-- ==== Sys2Proof/Word.lean ====
section
/-! DEFINITION. Word.lean: the word types of the SG3616 and the carrier of its sparse stores.
Multi-byte values are little-endian (R6); the byte order itself is coded in Machine/Store.lean, once. -/

namespace Sys2Proof

/-- One byte of memory or of a payload. -/
abbrev Byte := BitVec 8

/-- A Kiben register, and the 32-bit word of a register access. -/
abbrev Word := BitVec 32

/-- A 64-bit register, an address of the device address space. -/
abbrev DWord := BitVec 64

/-- The carrier of every sparse store: key and value pairs, keys strictly rising, no value equal to
what an unlisted key reads as. The default is named where the store is read and written. -/
abbrev SMap (α : Type) := List (Nat × α)

/-- A numeric flag set (R33): [4] SCORE_CLAMP, [3] INVALID, [2] OVERFLOW, [1] UNDERFLOW, [0] INEXACT. -/
abbrev NumFlags := BitVec 5

end Sys2Proof
end

