-- ==== Sys2Proof/Machine/Store.lean ====
section
/-! DEFINITION. Machine/Store.lean: the sparse stores (read, write, canonical form), byte lists and the
little-endian order of R6.
Choices beyond the words of the spec: log entries DEDUCED 8. -/

namespace Sys2Proof.Machine

/-- What key `k` reads as, `d` being what an unlisted key reads as. -/
def sget {α : Type} (d : α) : SMap α → Nat → α
  | [], _ => d
  | (k', v) :: r, k => if k' = k then v else sget d r k

/-- Writes `v` at `k`, keeping the keys rising and dropping an entry equal to the default. -/
def sput {α : Type} [DecidableEq α] (d : α) : SMap α → Nat → α → SMap α
  | [], k, v => if v = d then [] else [(k, v)]
  | (k', v') :: r, k, v =>
    if k < k' then (if v = d then (k', v') :: r else (k, v) :: (k', v') :: r)
    else if k' = k then (if v = d then r else (k, v) :: r)
    else (k', v') :: sput d r k v

/-- Updates the value at `k`. -/
def smod {α : Type} [DecidableEq α] (d : α) (m : SMap α) (k : Nat) (f : α → α) : SMap α :=
  sput d m k (f (sget d m k))

/-- The canonical form: keys strictly rising, no entry equal to the default. -/
def swf {α : Type} [DecidableEq α] (d : α) : SMap α → Bool
  | [] => true
  | (k, v) :: r => decide (v ≠ d) && r.all (fun p => decide (k < p.1)) && swf d r

/-- Keys strictly rising: the form of a store whose default depends on the key. -/
def rising {α : Type} : SMap α → Bool
  | [] => true
  | (k, _) :: r => r.all (fun p => decide (k < p.1)) && rising r

/-- Returns every key of the range to the default. -/
def sclear {α : Type} (m : SMap α) (lo n : Nat) : SMap α :=
  m.filter (fun p => !(decide (lo ≤ p.1) && decide (p.1 < lo + n)))

/-- A set of numbers, as a sparse store of `true`. -/
abbrev NSet := SMap Bool

/-- Membership. -/
def nin (s : NSet) (k : Nat) : Bool := sget false s k
/-- Insertion. -/
def nadd (s : NSet) (k : Nat) : NSet := sput false s k true
/-- Removal. -/
def ndel (s : NSet) (k : Nat) : NSet := sput false s k false

/-- `n` bytes of a byte store from address `a` on. -/
def bytesAt (d : Byte) (m : SMap Byte) (a : Nat) : Nat → List Byte
  | 0 => []
  | n + 1 => sget d m a :: bytesAt d m (a + 1) n

/-- Stores a list of bytes from address `a` on. -/
def putBytes (d : Byte) (m : SMap Byte) (a : Nat) : List Byte → SMap Byte
  | [] => m
  | b :: r => putBytes d (sput d m a b) (a + 1) r

/-- The number a little-endian byte list spells (R6). -/
def leNat : List Byte → Nat
  | [] => 0
  | b :: r => b.toNat + 256 * leNat r

/-- The `n` little-endian bytes of a number (R6). -/
def natLE : Nat → Nat → List Byte
  | 0, _ => []
  | n + 1, v => BitVec.ofNat 8 v :: natLE n (v / 256)

/-- The number a big-endian byte list spells: network headers and digests follow their standards (R6). -/
def beNat (l : List Byte) : Nat := l.foldl (fun a b => 256 * a + b.toNat) 0

/-- The `n` big-endian bytes of a number. -/
def natBE (n v : Nat) : List Byte := (natLE n v).reverse

/-- Bits [hi:lo] of a number. -/
def bits (v hi lo : Nat) : Nat := (v >>> lo) % 2 ^ (hi + 1 - lo)

/-- One bit of a number. -/
def bit (v i : Nat) : Bool := v.testBit i

/-- The number with bits [hi:lo] replaced. -/
def setBits (v hi lo x : Nat) : Nat :=
  let w := hi + 1 - lo
  v - (bits v hi lo) <<< lo + (x % 2 ^ w) <<< lo

/-- 1 for true, 0 for false. -/
def b2n (b : Bool) : Nat := if b then 1 else 0

/-- The bytes `[o, o+n)` of a list as a little-endian number (missing bytes count 0). -/
def le (l : List Byte) (o n : Nat) : Nat := leNat ((l.drop o).take n)

/-- The bytes `[o, o+n)` of a list as a big-endian number. -/
def be (l : List Byte) (o n : Nat) : Nat := beNat ((l.drop o).take n)

/-- A field [hi:lo] of the `n`-byte little-endian word at offset `o` of a list. -/
def lef (l : List Byte) (o n hi lo : Nat) : Nat := bits (le l o n) hi lo

/-- Are all bytes `[o, o+n)` zero. -/
def zeroAt (l : List Byte) (o n : Nat) : Bool := le l o n == 0

/-- Replaces the bytes from offset `o` on, within the list's length. -/
def putAt (l : List Byte) (o : Nat) (x : List Byte) : List Byte :=
  l.take o ++ x.take (l.length - o) ++ l.drop (o + x.length)

/-- `x` truncated or zero-extended to `n` bytes. -/
def padTo (n : Nat) (x : List Byte) : List Byte := (x ++ List.replicate n 0).take n

/-- Cuts a list into pieces of `n` (fuel bounds the number of pieces). -/
def chunks {α : Type} (n : Nat) : Nat → List α → List (List α)
  | 0, _ => []
  | f + 1, l => if l.isEmpty then [] else l.take n :: chunks n f (l.drop n)

/-- Rounds up to a multiple. -/
def alignUp (x a : Nat) : Nat := (x + a - 1) / a * a

/-- The smallest number from `k` on that satisfies a predicate, among the next ones that the fuel allows. -/
def findFrom (p : Nat → Bool) : Nat → Nat → Option Nat
  | 0, _ => none
  | n + 1, k => if p k then some k else findFrom p n (k + 1)

/-- The smallest number below a bound that satisfies a predicate. -/
def findBelow (p : Nat → Bool) (n : Nat) : Option Nat := findFrom p n 0

/-- Integer square root by Newton's method; the fuel covers numbers of up to 2^18 bits. -/
def isqrtGo : Nat → Nat → Nat → Nat
  | 0, _, x => x
  | f + 1, n, x =>
    let y := (x + n / x) / 2
    if y < x then isqrtGo f n y else x

/-- The largest `r` with `r * r ≤ n`. -/
def isqrt (n : Nat) : Nat := if n = 0 then 0 else isqrtGo 400 n (2 ^ (n.log2 / 2 + 1))

end Sys2Proof.Machine
end

