-- ==== Sys2Proof/Machine/BootState.lean ====
section
/-! DEFINITION. Machine/BootState.lean: the state of start-up, reset, self-test, the management firmware, board power, the debug
port and the sideband, beyond their registers (R397–R419, R433–R460).
Choices beyond the words of the spec: log entries DESIGN CHOICE 59, 69. -/

namespace Sys2Proof.Machine

/-! ### Start-up, reset and firmware -/

/-- Where the bring-up of R397 stands. -/
inductive Stage
  /-- Power-on release has not happened. -/
  | off
  /-- Fuse sense runs (step 2). -/
  | fuse
  /-- The option bytes are being fetched (step 4). -/
  | option
  /-- The configuration image is being read (step 5). -/
  | image
  /-- Self-test runs (step 6). -/
  | test
  /-- Self-test has ended (step 7). -/
  | done
deriving DecidableEq, Repr

/-- A fuse key slot (R413). -/
structure FuseKey where
  /-- SHA-384 of the public key. -/
  digest : List Byte
  /-- Revoked. -/
  revoked : Bool
deriving DecidableEq, Repr

/-- A slot without a key. -/
def FuseKey.none : FuseKey := ⟨[], true⟩

/-- A firmware image as loaded (R413–R415). -/
structure Fw where
  /-- FWIF. -/
  fwif : Nat
  /-- SVN. -/
  svn : Nat
  /-- SHA-384 of the image. -/
  digest : List Byte
  /-- The cell runtime that the driver supplied with it (R387). -/
  runtime : List Byte
deriving DecidableEq, Repr

/-- A firmware component (R417). -/
structure Comp where
  /-- Instants of its crashes, newest first. -/
  crashes : List Nat
  /-- It has been left stopped. -/
  stopped : Bool
deriving DecidableEq, Repr

/-- A component that never crashed. -/
def Comp.reset : Comp := ⟨[], false⟩

/-- Modes of self-test (R409). -/
inductive BistMode
  | full | memories | off
deriving DecidableEq, Repr

/-- A failing bit or pattern block that self-test found (R411, R412). -/
structure BistRec where
  /-- UNIT: 0 scratch, 1 instruction memory, 2 cell logic, 3 reservoir, 4 flume, 5 merge unit, 6 management, 7 other I/O die,
  8 region logic. -/
  unit : Fin 9
  /-- How it was repaired: 0 by a spare row, 1 by a spare column, 2 at the factory; 3: it cannot be repaired. -/
  fix : Fin 4
  /-- March element or pattern block. -/
  elem : Byte
  /-- INSTANCE. -/
  inst : BitVec 16
  /-- Word address within the array. -/
  addr : Word
  /-- Bit within the word. -/
  bitNo : Byte
  /-- For UNIT 7: the fault source of its subsystem. -/
  src : BitVec 9
  /-- For UNIT 7: the furrow class that the subsystem serves. -/
  cls : Fin 16
deriving DecidableEq, Repr

/-- Start-up, resets and firmware. -/
structure Boot where
  /-- The main rails are good. -/
  powered : Bool
  /-- VDD_AUX has risen and no FULL reset has followed (R442). -/
  auxRose : Bool
  /-- A thermal trip or supply fault holds the device in reset until the next power-on (R404). -/
  hold : Bool
  /-- REFCLK_25M is absent (R459). -/
  refLost : Bool
  /-- The THERMTRIP_N latch (R442, R448). -/
  trip : Bool
  /-- Instant at which the supplies became good. -/
  goodAt : Nat
  /-- A CHIP or FULL reset is asserted. -/
  inRst : Bool
  /-- Index of its source. -/
  rstSrc : Nat
  /-- Its level. -/
  rstLvl : Nat
  /-- It holds until this instant (R406). -/
  rstUntil : Nat
  /-- Where bring-up stands; under a reset, where it restarts (R408). -/
  stage : Stage
  /-- Fuse key slots 0–3, as sensed. -/
  keys : SMap FuseKey
  /-- The rollback counter, a fuse (R414). -/
  rollback : Nat
  /-- AVS set points of the fuses, mV: rails 0–3 and 5 (R439). -/
  avs : SMap Nat
  /-- Factory repair, as latched: repaired elements, each the INSTANCE of its array and the word and bit (R397, R411). -/
  factory : List Nat
  /-- Soft repairs made since the last FULL reset (R411). -/
  softRep : List Nat
  /-- The option copy used; empty for the safe defaults (R399, R400). -/
  opt : List Byte
  /-- The configuration image applied; empty for the default configuration (R401, R402). -/
  img : List Byte
  /-- Region enables of the image (R401). -/
  regions : BitVec 16
  /-- Subsystem IDs of the three function kinds, 16 bytes (R242). -/
  ids : List Byte
  /-- Physical Slot Number, Slot Power Limit Value and Scale of each slot (R263). -/
  slotCaps : SMap Nat
  /-- MAC of each port number (R317, R365). -/
  macs : SMap Nat
  /-- Blocks that self-test marked unusable (R411). -/
  badBlocks : NSet
  /-- Furrow classes whose I/O die array failed self-test (R411). -/
  badCls : NSet
  /-- The running firmware. -/
  fw : Option Fw
  /-- The firmware that an activation takes over with (R418). -/
  next : Option Fw
  /-- Instant of the GO that loaded the firmware. -/
  goAt : Nat
  /-- Firmware components 0–7. -/
  comps : SMap Comp
deriving DecidableEq, Repr

/-- Is a firmware activation in progress (R418). -/
def Boot.activating (b : Boot) : Bool := b.next.isSome

/-- Is the watchdog service stopped by a stopped or crashed component 0 or 1 (R417). -/
def Boot.wdStop (b : Boot) : Bool := !(sget Comp.reset b.comps 0).crashes.isEmpty || !(sget Comp.reset b.comps 1).crashes.isEmpty

/-- After power-on release, at step 2 of the bring-up. -/
def Boot.reset : Boot where
  powered := true
  auxRose := false
  hold := false
  refLost := false
  trip := false
  goodAt := 0
  inRst := false
  rstSrc := 0
  rstLvl := 7
  rstUntil := 0
  stage := .fuse
  keys := []
  rollback := 0
  avs := []
  factory := []
  softRep := []
  opt := []
  img := []
  regions := 0xFFFF
  ids := []
  slotCaps := []
  macs := []
  badBlocks := []
  badCls := []
  fw := none
  next := none
  goAt := 0
  comps := []

/-! ### Power (R443–R447, R456) -/

/-- Board power beyond the PWR registers. -/
structure Pwr where
  /-- READ_POUT of each rail at the last measurement, W. -/
  readings : SMap Nat
  /-- Consecutive measurements below 95 % of the limit (R445). -/
  low : Nat
  /-- POWER is above the limit at STEP 4. -/
  overLimit : Bool
  /-- A sensor is at or above THROTTLE. -/
  hot : Bool
  /-- STEP may not rise until the hottest sensor is 3 °C below THROTTLE (R447). -/
  noRise : Bool
  /-- The sensors as last read, °C. -/
  sensors : SMap Nat
  /-- Rails whose regulator does not answer or reports a fault (R456). -/
  silent : NSet
  /-- 1 + the instant of the last droop trip, by region (R443). -/
  droop : SMap Nat
  /-- AVS set points, mV, by rail; 0: not set. They outlive a CHIP or FULL reset (R460). -/
  setp : SMap Nat
  /-- The set-point change of a rail keeps the monitors from looking until this instant (R441). -/
  quiet : SMap Nat
  /-- PROCHOT_N has been low for 1 µs. The input outlives a reset. -/
  pin : Bool
  /-- 1 + the sensor whose event 13h lasts; 0: none (R447). -/
  hotSrc : Nat
deriving DecidableEq, Repr

/-- Power after a CHIP reset. -/
def Pwr.reset : Pwr := ⟨[], 0, false, false, false, [], [], [], [], [], false, 0⟩

/-! ### The debug port (R433–R436) -/

/-- The TAP and the lock. -/
structure Dbg where
  /-- The instruction register; Test-Logic-Reset selects BYPASS. -/
  ir : Nat
  /-- The selected cell. -/
  sel : Nat
  /-- DDATA STATUS: 0 done, 1 busy, 2 refused, 3 error. -/
  status : Nat
  /-- DDATA result. -/
  result : DWord
  /-- DDATA write data. -/
  wdata : DWord
  /-- The cell and address of a memory read that is not answered yet: STATUS is busy. -/
  wait : Option (Nat × Nat)
  /-- Boundary scan update latches. -/
  bscan : List Byte
  /-- 1 + the instant at which the nonce was placed. -/
  nonceAt : Nat
  /-- Instant at which the unlock expires. -/
  until_ : Nat
deriving DecidableEq, Repr

/-- The port after a CHIP reset. -/
def Dbg.reset : Dbg := ⟨0xFF, 0, 0, 0, 0, none, [], 0, 0⟩

/-! ### The sideband (R451–R459) -/

/-- A request at the SMBus target (R452). -/
inductive SideReq
  /-- An MCTP control message: command and argument. -/
  | mctp (cmd : Byte) (arg : Byte)
  /-- PLDM SetEventReceiver: the receiver's endpoint. -/
  | pldmReceiver (eid : Byte)
  /-- PLDM GetPDR. -/
  | pldmPdr
  /-- PLDM GetSensorReading: 0 power, 1–11 rails 0–10, 12–35 thermal sensors, 36 STEP, 37 GEN_STATE. -/
  | pldmSensor (n : Fin 38)
  /-- PLDM PlatformEventMessage read by the BMC. -/
  | pldmEvent
  /-- SPDM GET_VERSION, GET_CAPABILITIES, NEGOTIATE_ALGORITHMS, GET_DIGESTS, GET_CERTIFICATE, CHALLENGE: by its code. -/
  | spdm (code : Byte)
  /-- SPDM GET_MEASUREMENTS of a block 1–5. -/
  | spdmMeasure (block : Fin 6)
  /-- SET_TOD. -/
  | setTod (v : DWord)
  /-- Any other message. -/
  | other
deriving DecidableEq, Repr

/-- The sideband. -/
structure Side where
  /-- SMBus address, from the straps. -/
  addr : Nat
  /-- MCTP endpoint ID, assigned by the bus owner. -/
  eid : Nat
  /-- PLDM event receiver. -/
  receiver : Nat
  /-- The request queue, oldest first (R419). -/
  queue : List SideReq
  /-- SMB_ALERT_N is asserted (R451). -/
  alert : Bool
  /-- HEALTH. -/
  health : Bool
  /-- 1 + the instant of its last edge. -/
  healthAt : Nat
  /-- I2C: failures of the transaction in progress. -/
  i2cFails : Nat
  /-- The instant of its retry (R453). -/
  i2cRetry : Nat
  /-- Buses whose clear is to be repeated, with the instant of the last attempt: 0 I2C, 1 PMBus (R455). -/
  clear : SMap Nat
deriving DecidableEq, Repr

/-- The sideband after a CHIP reset. -/
def Side.reset : Side := ⟨0x20, 0, 0, [], false, false, 0, 0, 0, []⟩

end Sys2Proof.Machine
end

