-- ==== Sys2Proof/Config.lean ====
section
/-! DEFINITION. Config.lean: what an implementation fixes and the free values: constants with no body, so
that no proof can see their value. Each is named in the assumption log. -/

namespace Sys2Proof.Config

/-- A fresh free value for each value of the model's own counter `State.free` (DESIGN CHOICE, log entry 1). -/
opaque freeValue : Nat → DWord

/-- The result of a rounding that the model's interval evaluation leaves undecided (DESIGN CHOICE, log entry 6). -/
opaque hardRound : Nat → Nat → Nat

/-- Bytes of an HBM line that was not written under the key selected now (R466): key number, address. -/
opaque hbmByte : Nat → Nat → Byte

/-- Bytes of memory behind the ports that the device has not written (DESIGN CHOICE, log entry 3): port × 2^64 + bus address. -/
opaque portByte : Nat → Byte

/-- The SHA-384 digest of the boot ROM (R415), which the spec does not give. -/
opaque bootRomDigest : Nat → Byte

/-- Block versions of the resource directory's entries (R257), which the spec does not give: entry × 2 + part. -/
opaque dirVersion : Nat → Byte

/-- The sizes that the register block table gives its blocks (R257); the table is not in the spec. -/
opaque dirSize : Nat → Nat

/-- The mnemonics of the directory's entries that are no register block (R257): entry × 8 + byte. -/
opaque dirName : Nat → Byte

/-- Shadows of telemetry counters read before DONE (R431): instant and register offset. -/
opaque earlyShadow : Nat → Nat → DWord

/-- The ordering code: SG3616-B15L, otherwise SG3616-A18L (R4). Both are covered. -/
opaque b15l : Bool

end Sys2Proof.Config
end

