-- ==== Sys2Proof/Machine/Num.lean ====
section
/-! DEFINITION. Machine/Num.lean: the number formats, their values, the rounding of an exact value into a
format, conversions and the MX block (R16, R18–R36).
Choices beyond the words of the spec: log entries DEDUCED 75, 76; DESIGN CHOICE 6; DEDUCED 24. -/

namespace Sys2Proof.Machine

/-- The twenty formats of R16, in the order of their codes. -/
inductive Fmt
  | fp32 | fp16 | bf16 | e4m3 | e5m2 | e3m2 | e2m3 | e2m1
  | mxE4m3 | mxE5m2 | mxE3m2 | mxE2m3 | mxE2m1 | mxInt8
  | int32 | int16 | int8 | int4 | uint8 | lp8
deriving DecidableEq, Repr

/-- The format of a code (R16); codes 14h–1Fh are reserved. -/
def fmtOfCode : Nat → Option Fmt
  | 0x00 => some .fp32 | 0x01 => some .fp16 | 0x02 => some .bf16 | 0x03 => some .e4m3
  | 0x04 => some .e5m2 | 0x05 => some .e3m2 | 0x06 => some .e2m3 | 0x07 => some .e2m1
  | 0x08 => some .mxE4m3 | 0x09 => some .mxE5m2 | 0x0A => some .mxE3m2 | 0x0B => some .mxE2m3
  | 0x0C => some .mxE2m1 | 0x0D => some .mxInt8 | 0x0E => some .int32 | 0x0F => some .int16
  | 0x10 => some .int8 | 0x11 => some .int4 | 0x12 => some .uint8 | 0x13 => some .lp8
  | _ => none

/-- The code of a format (R16). -/
def fmtCode : Fmt → Nat
  | .fp32 => 0x00 | .fp16 => 0x01 | .bf16 => 0x02 | .e4m3 => 0x03
  | .e5m2 => 0x04 | .e3m2 => 0x05 | .e2m3 => 0x06 | .e2m1 => 0x07
  | .mxE4m3 => 0x08 | .mxE5m2 => 0x09 | .mxE3m2 => 0x0A | .mxE2m3 => 0x0B
  | .mxE2m1 => 0x0C | .mxInt8 => 0x0D | .int32 => 0x0E | .int16 => 0x0F
  | .int8 => 0x10 | .int4 => 0x11 | .uint8 => 0x12 | .lp8 => 0x13

/-- The element format of an MX format (R25); other formats stand for themselves. -/
def mxElem : Fmt → Fmt
  | .mxE4m3 => .e4m3 | .mxE5m2 => .e5m2 | .mxE3m2 => .e3m2 | .mxE2m3 => .e2m3
  | .mxE2m1 => .e2m1 | .mxInt8 => .int8 | f => f

/-- Is it one of the six MX formats (R25). -/
def isMX : Fmt → Bool
  | .mxE4m3 | .mxE5m2 | .mxE3m2 | .mxE2m3 | .mxE2m1 | .mxInt8 => true
  | _ => false

/-- Is it an integer format (R22). -/
def isIntFmt : Fmt → Bool
  | .int32 | .int16 | .int8 | .int4 | .uint8 => true
  | _ => false

/-- Bits of one element (R18, R22–R25). -/
def fmtBits : Fmt → Nat
  | .fp32 | .int32 => 32
  | .fp16 | .bf16 | .int16 => 16
  | .e4m3 | .e5m2 | .mxE4m3 | .mxE5m2 | .mxInt8 | .int8 | .uint8 | .lp8 => 8
  | .e3m2 | .e2m3 | .mxE3m2 | .mxE2m3 => 6
  | .e2m1 | .mxE2m1 | .int4 => 4

/-- The layout of a scalar floating format (R18): mantissa width, bias, code of the largest finite
magnitude, code of infinity, canonical NaN. -/
structure FloatFmt where
  /-- Mantissa width m. -/
  m : Nat
  /-- Width of the exponent field. -/
  e : Nat
  /-- Exponent bias. -/
  bias : Int
  /-- The magnitude code of the largest finite value. -/
  maxc : Nat
  /-- The magnitude code of infinity, where the format has one. -/
  inf : Option Nat
  /-- The canonical NaN, where the format has one (R19). -/
  nan : Option Nat
deriving DecidableEq, Repr

/-- R18's table. -/
def floatFmt : Fmt → Option FloatFmt
  | .fp32 => some ⟨23, 8, 127, 0x7F7FFFFF, some 0x7F800000, some 0x7FC00000⟩
  | .fp16 => some ⟨10, 5, 15, 0x7BFF, some 0x7C00, some 0x7E00⟩
  | .bf16 => some ⟨7, 8, 127, 0x7F7F, some 0x7F80, some 0x7FC0⟩
  | .e4m3 => some ⟨3, 4, 7, 0x7E, none, some 0x7F⟩
  | .e5m2 => some ⟨2, 5, 15, 0x7B, some 0x7C, some 0x7E⟩
  | .e3m2 => some ⟨2, 3, 3, 0x1F, none, none⟩
  | .e2m3 => some ⟨3, 2, 1, 0x1F, none, none⟩
  | .e2m1 => some ⟨1, 2, 1, 0x7, none, none⟩
  | _ => none

/-- An exact value: NaN, a signed infinity, `(−1)^neg × m × 2^e`, or an LP8 value `2^(−k/16)`. -/
inductive Val
  | nan
  | inf (neg : Bool)
  | fin (neg : Bool) (m : Nat) (e : Int)
  | lp (k : Nat)
deriving DecidableEq, Repr

/-- Raised flag bits (R33). -/
def fINV : NumFlags := 0b01000#5
/-- OVERFLOW. -/
def fOVF : NumFlags := 0b00100#5
/-- UNDERFLOW. -/
def fUNF : NumFlags := 0b00010#5
/-- INEXACT. -/
def fINX : NumFlags := 0b00001#5
/-- SCORE_CLAMP. -/
def fCLAMP : NumFlags := 0b10000#5

/-- A rounding mode (R35); SR carries the 32 random bits of its element (R36). -/
inductive Mode
  | rne | rtz | rup | rdn | rna
  | sr (r : Nat)
deriving DecidableEq, Repr

/-- The value of an element's bits (R18, R22, R23); MX formats are read as their elements. -/
def valOf (f : Fmt) (b : Nat) : Val :=
  match mxElem f with
  | .int32 => if b < 2 ^ 31 then .fin false b 0 else .fin true (2 ^ 32 - b) 0
  | .int16 => if b < 2 ^ 15 then .fin false b 0 else .fin true (2 ^ 16 - b) 0
  | .int8 => if b < 2 ^ 7 then .fin false b 0 else .fin true (2 ^ 8 - b) 0
  | .int4 => if b < 8 then .fin false b 0 else .fin true (16 - b) 0
  | .uint8 => .fin false b 0
  | .lp8 => if b ≥ 255 then .fin false 0 0 else .lp b
  | g =>
    match floatFmt g with
    | none => .nan
    | some F =>
      let s := b.testBit (F.m + F.e)
      let c := b % 2 ^ (F.m + F.e)
      if F.inf = some c then .inf s
      else if c > F.maxc then .nan
      else
        let ex := c / 2 ^ F.m
        let mm := c % 2 ^ F.m
        if ex = 0 then .fin s mm (1 - F.bias - F.m)
        else .fin s (2 ^ F.m + mm) (ex - F.bias - F.m)

/-- The value of an MX element under its scale byte (R25, R27): a scale of FFh makes it NaN, an infinite element included
(DEDUCED, log entry 75). -/
def mxVal (f : Fmt) (scale b : Nat) : Val :=
  match valOf f b with
  | .nan => .nan
  | .inf s => if scale = 255 then .nan else .inf s
  | .fin s m e =>
    if scale = 255 then .nan
    else .fin s m (e + (scale : Int) - 127 - (if f = .mxInt8 then 6 else 0))
  | .lp k => .lp k

/-- `n × 2^e` as a fraction. -/
def scaleUp (n : Nat) (e : Int) : Nat := if e ≥ 0 then n <<< e.toNat else n

/-- A value's numerator. -/
def numOf (m : Nat) (e : Int) : Nat := scaleUp m e
/-- A value's denominator. -/
def denOf (e : Int) : Nat := if e ≥ 0 then 1 else 1 <<< (-e).toNat

/-- floor(log2(n/d)) for positive n and d. -/
def flog2 (n d : Nat) : Int :=
  let e : Int := (n.log2 : Int) - (d.log2 : Int)
  let ge := if e ≥ 0 then decide (d <<< e.toNat ≤ n) else decide (d ≤ n <<< (-e).toNat)
  if ge then e else e - 1

/-- Rounds the non-negative fraction `n/d` to an integer; `neg` gives the directed modes and SR their side.
Answers the integer and whether the fraction was one. -/
def roundInt (mode : Mode) (neg : Bool) (n d : Nat) : Nat × Bool :=
  let q := n / d
  let r := n % d
  if r = 0 then (q, true)
  else
    let up := match mode with
      | .rne => decide (2 * r > d) || (decide (2 * r = d) && q % 2 == 1)
      | .rtz => false
      | .rup => !neg
      | .rdn => neg
      | .rna => decide (2 * r ≥ d)
      | .sr x => if neg then !(decide (x < (d - r) * 2 ^ 32 / d)) else decide (x < r * 2 ^ 32 / d)
    (if up then q + 1 else q, false)

/-- Rounds the positive fraction `n/d`, with its sign, into a floating format (R29–R31, R36): the code with
its sign bit, and the flags. -/
def roundFloat (F : FloatFmt) (mode : Mode) (neg : Bool) (n d : Nat) : Nat × NumFlags :=
  let sign := if neg then 2 ^ (F.m + F.e) else 0
  let lg := flog2 n d
  let emin : Int := 1 - F.bias
  let ex := if lg < emin then emin else lg
  let q : Int := ex - F.m
  let sn := if q ≥ 0 then n else n <<< (-q).toNat
  let sd := if q ≥ 0 then d <<< q.toNat else d
  let (s, exact) := roundInt mode neg sn sd
  let code := (q - (emin - F.m)).toNat * 2 ^ F.m + s
  if code > F.maxc then
    let toInf := match mode with
      | .rne | .rna | .sr _ => true
      | .rtz => false
      | .rup => !neg
      | .rdn => neg
    match F.inf with
    | some i => (sign + (if toInf then i else F.maxc), fOVF ||| fINX)
    | none => (sign + F.maxc, fOVF ||| fINX)
  else
    let tiny := decide (lg < emin)
    (sign + code, if exact then 0 else if tiny then fUNF ||| fINX else fINX)

/-- The limits of an integer format: the largest negative magnitude and the largest positive value (R22). -/
def intLimits : Fmt → Nat × Nat
  | .int32 => (2 ^ 31, 2 ^ 31 - 1)
  | .int16 => (2 ^ 15, 2 ^ 15 - 1)
  | .int8 | .mxInt8 => (128, 127)
  | .int4 => (8, 7)
  | _ => (0, 255)

/-- The code of an integer of a format. -/
def intCode (f : Fmt) (neg : Bool) (m : Nat) : Nat :=
  if neg then (2 ^ fmtBits f - m) % 2 ^ fmtBits f else m % 2 ^ fmtBits f

/-- Rounds a fraction into an integer format: saturation raises INVALID alone (R29). -/
def roundToInt (f : Fmt) (mode : Mode) (neg : Bool) (n d : Nat) : Nat × NumFlags :=
  let (s, exact) := roundInt mode neg n d
  let (lo, hi) := intLimits f
  let lim := if neg then lo else hi
  if s > lim then (intCode f neg lim, fINV)
  else (intCode f neg s, if exact then 0 else fINX)

/-! ### Interval evaluation of the irrational values -/

/-- An interval [lo, hi] × 2^(−p) that holds a real number. -/
structure Ivl where
  /-- Lower bound, in units of 2^(−p). -/
  lo : Int
  /-- Upper bound, in units of 2^(−p). -/
  hi : Int
deriving DecidableEq, Repr

/-- Taylor sum of exp at `t/2^p`, `0 ≤ t < 2^p`: term, index, fuel. -/
def expSum (p t : Nat) : Nat → Nat → Nat → Nat
  | 0, _, _ => 0
  | f + 1, term, i => if term = 0 then 0 else term + expSum p t f (term * t / 2 ^ p / (i + 1)) (i + 1)

/-- exp of `t/2^p` for `0 ≤ t < 2^p`, within the truncation bound. -/
def expIvl (p t : Nat) : Ivl :=
  let n := p / 2 + 12
  let s := expSum p t n (2 ^ p) 0
  ⟨s, s + 4 * n + 8⟩

/-- Sum of z^(2i+1)/(2i+1) for z = t/2^p ≤ 1/2: power, index, fuel. -/
def atanhSum (p z2 : Nat) : Nat → Nat → Nat → Nat
  | 0, _, _ => 0
  | f + 1, pw, i => if pw = 0 then 0 else pw / (2 * i + 1) + atanhSum p z2 f (pw * z2 / 2 ^ p) (i + 1)

/-- ln(n/d) for `1 ≤ n/d < 2`, through the inverse hyperbolic tangent. -/
def lnIvl (p n d : Nat) : Ivl :=
  let z := (n - d) * 2 ^ p / (n + d)
  let k := p + 4
  let s := atanhSum p (z * z / 2 ^ p) k z 0
  ⟨2 * s, 2 * s + 6 * k + 8⟩

/-- ln 2. -/
def ln2Ivl (p : Nat) : Ivl :=
  let z := 2 ^ p / 3
  let k := p + 4
  let s := atanhSum p (z * z / 2 ^ p) k z 0
  ⟨2 * s, 2 * s + 6 * k + 8⟩

/-- log2(n/d) of a positive fraction. -/
def log2Ivl (p n d : Nat) : Ivl :=
  let k := flog2 n d
  let (n', d') := if k ≥ 0 then (n, d <<< k.toNat) else (n <<< (-k).toNat, d)
  let l := lnIvl p n' d'
  let l2 := ln2Ivl p
  let lo := l.lo * 2 ^ p / l2.hi
  let hi := l.hi * 2 ^ p / l2.lo + 1
  ⟨k * 2 ^ p + lo, k * 2 ^ p + hi⟩

/-- ln(n/d) of a positive fraction. -/
def lnFullIvl (p n d : Nat) : Ivl :=
  let k := flog2 n d
  let (n', d') := if k ≥ 0 then (n, d <<< k.toNat) else (n <<< (-k).toNat, d)
  let l := lnIvl p n' d'
  let l2 := ln2Ivl p
  if k ≥ 0 then ⟨k * l2.lo + l.lo, k * l2.hi + l.hi⟩ else ⟨k * l2.hi + l.lo, k * l2.lo + l.hi⟩

/-- exp(x) of the fraction x = a/d (a signed): an interval and the power of two it is scaled by. -/
def expScaled (p : Nat) (a : Int) (d : Nat) : Ivl × Int :=
  let l2 := ln2Ivl p
  let x := a * 2 ^ p / d
  let k := x / l2.lo
  let lo := x - (if k ≥ 0 then k * l2.hi else k * l2.lo)
  let hi := x + 1 - (if k ≥ 0 then k * l2.lo else k * l2.hi)
  -- the reduced argument lies in [lo, hi]; it is shifted by 2 so that a slightly negative bound stays in range
  let lo' := max lo 0
  let e1 := expIvl p lo'.toNat
  let e2 := expIvl p (min hi.toNat (2 ^ p - 1))
  (⟨if lo < 0 then e1.lo + 2 * lo else e1.lo, e2.hi⟩, k)

/-- exp2(x) of the fraction x = a/d: an interval and its power of two. -/
def exp2Scaled (p : Nat) (a : Int) (d : Nat) : Ivl × Int :=
  let k := a / (d : Int)
  let r := a - k * d
  let l2 := ln2Ivl p
  let lo := r * l2.lo / d
  let hi := r * l2.hi / d + 1
  let e1 := expIvl p lo.toNat
  let e2 := expIvl p (min hi.toNat (2 ^ p - 1))
  if r = 0 then (⟨2 ^ p, 2 ^ p⟩, k) else (⟨e1.lo, e2.hi⟩, k)

/-- 2^(−k/16) by four integer square roots. -/
def lpIvl (p k : Nat) : Ivl :=
  let r := isqrt (isqrt (isqrt (isqrt (2 ^ (16 * p - k)))))
  if k % 16 = 0 then ⟨r, r⟩ else ⟨r, r + 1⟩

/-- The precisions tried, in order. -/
def precisions : List Nat := [96, 192, 384, 768, 1536]

/-- Rounds a real number given by intervals: the first precision at which both bounds round alike decides
(rounding is monotone, and two different bounds can only agree on an inexact result). -/
def resolve (iv : Nat → Ivl × Int) (rnd : Int → Nat → Nat × NumFlags) : List Nat → Nat × NumFlags
  | [] => (Config.hardRound 0 0, fINX)
  | p :: ps =>
    let (i, e) := iv p
    let den := if (p : Int) - e ≥ 0 then 2 ^ ((p : Int) - e).toNat else 1
    let mul : Int := if (p : Int) - e ≥ 0 then 1 else 2 ^ (e - (p : Int)).toNat
    let a := rnd (i.lo * mul) den
    let b := rnd (i.hi * mul) den
    if a = b then a else resolve iv rnd ps

/-- Rounds a positive fraction into LP8 (R32). `y = −16 × log2(x)`; its floor is exact integer arithmetic. -/
def roundLP (mode : Mode) (n d : Nat) : Nat × NumFlags :=
  if n > d then (0, fINX)
  else
    let k0 := (flog2 (d ^ 16) (n ^ 16)).toNat
    let exact := decide (n ^ 16 * 2 ^ k0 = d ^ 16)
    if exact && decide (k0 ≤ 254) then (k0, 0)
    else
      let up := if exact then false else match mode with
        | .rne | .rna => (flog2 (d ^ 32) (n ^ 32)).toNat % 2 == 1
        | .rtz | .rdn => true
        | .rup => false
        | .sr x =>
          -- floor of the 32 fraction bits of y, from the first precision that decides it
          let (fr, _) := resolve (fun p => let i := log2Ivl p d n; (⟨16 * i.lo, 16 * i.hi⟩, 0))
            (fun a dd => ((a * 2 ^ 32 / dd).toNat, 0)) precisions
          decide (x < fr % 2 ^ 32)
      let k := if up then k0 + 1 else k0
      let k := match mode with
        | .rup => min k 254
        | _ => min k 255
      (k, if k = 255 then fUNF ||| fINX else fINX)

/-- Rounds a positive fraction with its sign into any format but an MX one (R29). -/
def roundPos (f : Fmt) (mode : Mode) (neg : Bool) (n d : Nat) : Nat × NumFlags :=
  match f with
  | .lp8 => if neg then (255, fINV) else roundLP mode n d
  | _ =>
    if isIntFmt f then roundToInt f mode neg n d
    else match floatFmt (mxElem f) with
      | some F => roundFloat F mode neg n d
      | none => roundToInt .int8 mode neg n d

/-- Zero of a format, keeping the sign where it has one (R21). -/
def zeroCode (f : Fmt) (neg : Bool) : Nat :=
  match f with
  | .lp8 => 255
  | _ => match floatFmt (mxElem f) with
    | some F => if neg then 2 ^ (F.m + F.e) else 0
    | none => 0

/-- Rounds a signed fraction (zero gives zero with the sign `neg`). -/
def roundQ (f : Fmt) (mode : Mode) (neg : Bool) (n d : Nat) : Nat × NumFlags :=
  if n = 0 then (zeroCode f neg, 0) else roundPos f mode neg n d

/-- NaN into a format (R19, R29). -/
def nanInto (f : Fmt) : Nat × NumFlags :=
  match floatFmt (mxElem f) with
  | some F => match F.nan with
    | some c => (c, 0)
    | none => (0, fINV)
  | none => (if f = .lp8 then 255 else 0, fINV)

/-- ±infinity into a format (R29, R30, R32). -/
def infInto (f : Fmt) (neg : Bool) : Nat × NumFlags :=
  match f with
  | .lp8 => if neg then (255, fINV) else (0, fINX)
  | _ => match floatFmt (mxElem f) with
    | some F =>
      let sign := if neg then 2 ^ (F.m + F.e) else 0
      match F.inf with
      | some i => (sign + i, 0)
      | none => (sign + F.maxc, fOVF ||| fINX)
    | none => let (lo, hi) := intLimits f; (intCode f neg (if neg then lo else hi), fINV)

/-- The conversion of an exact value into a format other than an MX block (R29–R32). LP8 into LP8 copies the code and raises no
flag (DEDUCED, log entry 76). -/
def convert (f : Fmt) (mode : Mode) : Val → Nat × NumFlags
  | .nan => nanInto f
  | .inf s => infInto f s
  | .fin s m e => roundQ f mode s (numOf m e) (denOf e)
  | .lp k =>
    if f = .lp8 then (k, 0)
    else resolve (fun p => (lpIvl p k, 0)) (fun a d => roundPos f mode false a.toNat d) precisions

/-! ### Stochastic rounding (R36) -/

/-- `mix` of R36. -/
def mix64 (x : DWord) : DWord :=
  let x := x ^^^ (x >>> 31)
  let x := x * 0x8f3a5c71d2e94b67#64
  let x := x ^^^ (x >>> 29)
  let x := x * 0x6b1de4a395c72f19#64
  x ^^^ (x >>> 32)

/-- `sr_bits` of R36: seed, stream and the four logical coordinates (R37). -/
def srBits (seed : DWord) (stream c0 c1 c2 c3 : Word) : Nat :=
  let st (h : DWord) (c : Word) (i : Nat) : DWord :=
    mix64 (h ^^^ (c.zeroExtend 64 <<< 32) ^^^ BitVec.ofNat 64 i)
  let h := mix64 (seed ^^^ stream.zeroExtend 64)
  ((st (st (st (st h c0 1) c1 2) c2 3) c3 4) >>> 32).toNat

/-- A rounding-mode field (R35): none for the reserved codes 6h and 7h. `r` serves SR alone. -/
def modeOfCode (c r : Nat) : Option Mode :=
  match c with
  | 0 => some .rne | 1 => some .rtz | 2 => some .rup | 3 => some .rdn | 4 => some .rna
  | 5 => some (.sr r)
  | _ => none

/-- A mode code that a check has already found valid. -/
def modeOf (c r : Nat) : Mode := (modeOfCode c r).getD .rne

/-! ### MX blocks (R28) -/

/-- An exact value as a fraction with its class, for an encoder: NaN, infinity, or signed fraction. -/
inductive QVal
  | nan
  | inf (neg : Bool)
  | q (neg : Bool) (n d : Nat)
deriving DecidableEq, Repr

/-- A value as a fraction; an LP8 value is held to 2^(−1536), far beyond what any target distinguishes. -/
def qOf : Val → QVal
  | .nan => .nan
  | .inf s => .inf s
  | .fin s m e => .q s (numOf m e) (denOf e)
  | .lp k => .q false (lpIvl 1536 k).lo.toNat (2 ^ 1536)

/-- Converts a fraction into a format. -/
def convertQ (f : Fmt) (mode : Mode) : QVal → Nat × NumFlags
  | .nan => nanInto f
  | .inf s => infInto f s
  | .q s n d => roundQ f mode s n d

/-- emax of an MX element format (R25). -/
def mxEmax : Fmt → Int
  | .mxE4m3 => 8 | .mxE5m2 => 15 | .mxE3m2 => 4 | .mxE2m3 => 2 | .mxE2m1 => 2 | _ => 0

/-- One element of an MX block under scale exponent `x` (R28). MXINT8 saturates at ±127. -/
def mxElement (f : Fmt) (mode : Mode) (x : Int) (v : QVal) : Nat × NumFlags :=
  match v with
  | .nan => (0, 0)
  | .inf s =>
    if f = .mxInt8 then (intCode .int8 s 127, fOVF ||| fINX) else infInto (mxElem f) s
  | .q s n d =>
    let n' := if x < 0 then n <<< (-x).toNat else n
    let d' := if x < 0 then d else d <<< x.toNat
    if f = .mxInt8 then
      let (k, exact) := roundInt mode s (n' * 64) d'
      if k > 127 then (intCode .int8 s 127, fOVF ||| fINX) else (intCode .int8 s k, if exact then 0 else fINX)
    else if n = 0 then (zeroCode f s, 0)
    else match floatFmt (mxElem f) with
      -- a finite value beyond the element's range saturates, in E5M2 too
      | some F => roundFloat { F with inf := Option.none } mode s n' d'
      | none => (0, 0)

/-- floor(log2 |v|) of the finite non-zero values. -/
def qLog2 : QVal → Option Int
  | .q _ n d => if n = 0 then none else some (flog2 n d)
  | _ => none

/-- The greatest of a list of optional integers. -/
def maxOpt (l : List (Option Int)) : Option Int :=
  l.foldl (fun a b => match a, b with
    | none, b => b
    | a, none => a
    | some a, some b => some (max a b)) none

/-- Encodes a block (R28): the scale byte, the elements and the flags. Each value comes with its mode, since
under SR each element has random bits of its own. -/
def mxEncode (f : Fmt) (vs : List (QVal × Mode)) : Nat × List Nat × NumFlags :=
  if vs.any (fun p => decide (p.1 = .nan)) then (255, vs.map (fun _ => 0), 0)
  else
    let x : Int := match maxOpt (vs.map (fun p => qLog2 p.1)) with
      | none => 0
      | some e => e - mxEmax f
    let x := min (max x (-127)) 127
    let es := vs.map (fun p => mxElement f p.2 x p.1)
    ((x + 127).toNat, es.map Prod.fst, es.foldl (fun a e => a ||| e.2) 0)

/-! ### Packing below a byte (R24) -/

/-- Element `i` of width `w` of a bit stream that starts at bit 0 of the bytes. -/
def elemAt (w : Nat) (l : List Byte) (i : Nat) : Nat :=
  bits (leNat ((l.drop (w * i / 8)).take 5)) (w * i % 8 + w - 1) (w * i % 8)

/-- The bit stream of a list of elements of width `w`, as bytes. -/
def packElems (w : Nat) (es : List Nat) : List Byte :=
  natLE ((w * es.length + 7) / 8) (es.foldr (fun e a => e % 2 ^ w + a <<< w) 0)

end Sys2Proof.Machine
end

