-- ==== Sys2Proof/Machine/Acc.lean ====
section
/-! DEFINITION. Machine/Acc.lean: the long accumulator, exact products, rounding out, LAX records, the
correctly rounded functions and the ordered-mode entry (R38–R52).
Choices beyond the words of the spec: log entries DESIGN CHOICE 6; DEDUCED 77. -/

namespace Sys2Proof.Machine

/-- A long accumulator (R38): the 704-bit integer N in steps of 2^−300, the special flags and a flag set. -/
structure Acc where
  /-- N, two's complement (R38). -/
  n : BitVec 704
  /-- PINF. -/
  pinf : Bool
  /-- NINF. -/
  ninf : Bool
  /-- NAN. -/
  nan : Bool
  /-- The numeric flag set (R33). -/
  flags : NumFlags
deriving DecidableEq, Repr

/-- The accumulator of value zero with all flags clear. -/
def Acc.zero : Acc := ⟨0, false, false, false, 0⟩

/-- Adds a finite value `(−1)^neg × m × 2^e`, a multiple of 2^−300, modulo 2^704 (R39, R40). -/
def Acc.addFin (a : Acc) (neg : Bool) (m : Nat) (e : Int) : Acc :=
  let s := e + 300
  let k : Int := if s ≥ 0 then (m <<< s.toNat : Nat) else (m >>> (-s).toNat : Nat)
  { a with n := a.n + BitVec.ofInt 704 (if neg then -k else k) }

/-- Adds a value that is no product: a reduction's operand (R39's rules with a factor of 1). -/
def Acc.addVal (a : Acc) : Val → Acc
  | .nan => { a with nan := true }
  | .inf s => if s then { a with ninf := true } else { a with pinf := true }
  | .fin s m e => a.addFin s m e
  | .lp _ => a

/-- Is the value a zero. -/
def isZeroV : Val → Bool
  | .fin _ m _ => m == 0
  | _ => false

/-- The sign of a value. -/
def negV : Val → Bool
  | .inf s => s
  | .fin s _ _ => s
  | _ => false

/-- Adds one product (R39). -/
def Acc.addProd (a : Acc) (x y : Val) : Acc :=
  match x, y with
  | .nan, _ | _, .nan => { a with nan := true }
  | .lp _, _ | _, .lp _ => a
  | .fin s m e, .fin s' m' e' => a.addFin (s != s') (m * m') (e + e')
  | x, y =>
    if isZeroV x || isZeroV y then { a with nan := true, flags := a.flags ||| fINV }
    else if negV x != negV y then { a with ninf := true } else { a with pinf := true }

/-- Merging (R45). -/
def Acc.merge (a b : Acc) : Acc :=
  ⟨a.n + b.n, a.pinf || b.pinf, a.ninf || b.ninf, a.nan || b.nan, a.flags ||| b.flags⟩

/-- The value an accumulator resolves to (R41), with INVALID where PINF meets NINF, NAN set or not (DEDUCED, log entry 77). Finite: a signed
fraction of denominator 2^300; an exact zero is +0 (R21). -/
def Acc.resolve (a : Acc) : QVal × NumFlags :=
  if a.nan || (a.pinf && a.ninf) then (.nan, if a.pinf && a.ninf then fINV else 0)
  else if a.pinf then (.inf false, 0)
  else if a.ninf then (.inf true, 0)
  else (.q a.n.msb (a.n.toInt.natAbs) (2 ^ 300), 0)

/-- Rounding out into a format other than an MX one (R41): the accumulator stays as it is; the flags of the
rounding are ORed with its own. -/
def Acc.round (a : Acc) (f : Fmt) (mode : Mode) : Nat × NumFlags :=
  let (v, fl) := a.resolve
  let (c, fr) := convertQ f mode v
  (c, a.flags ||| fl ||| fr)

/-- Rounding 32 accumulators out into an MX block (R41, R28). -/
def accsToMX (f : Fmt) (as : List (Acc × Mode)) : Nat × List Nat × NumFlags :=
  let (sc, es, fl) := mxEncode f (as.map (fun p => (p.1.resolve.1, p.2)))
  (sc, es, as.foldl (fun x p => x ||| p.1.flags ||| p.1.resolve.2) fl)

/-! ### LAX records (R42–R44) -/

/-- Limb i of N. -/
def Acc.limb (a : Acc) (i : Nat) : Nat := (a.n.toNat >>> (64 * i)) % 2 ^ 64

/-- Index of the lowest non-zero limb, 11 for none. -/
def Acc.lowLimb (a : Acc) : Nat := ((List.range 11).find? (fun i => a.limb i != 0)).getD 11

/-- Is every limb above `j` the sign extension of limb `j` (R43). -/
def Acc.extAbove (a : Acc) (j : Nat) : Bool :=
  let e := if (a.limb j).testBit 63 then 2 ^ 64 - 1 else 0
  (List.range 11).all (fun i => decide (i ≤ j) || a.limb i == e)

/-- The canonical record (R42, R43). -/
def Acc.toLAX (a : Acc) : List Byte :=
  let b0 := b2n a.pinf + 2 * b2n a.ninf + 4 * b2n a.nan
  let special := a.pinf || a.ninf || a.nan
  let (low, cnt) :=
    if special || a.n == 0 then (0, 0)
    else
      let lo := a.lowLimb
      let hi := ((List.range 11).find? (fun j => decide (lo ≤ j) && a.extAbove j)).getD 10
      (lo, hi + 1 - lo)
  natLE 1 b0 ++ natLE 1 low ++ natLE 1 cnt ++ natLE 1 a.flags.toNat ++ natLE 4 0 ++
    (List.range cnt).flatMap (fun i => natLE 8 (a.limb (low + i)))

/-- The length a record's header gives it: 8 + 8 × COUNT. -/
def laxLen (l : List Byte) : Nat := 8 + 8 * le l 2 1

/-- Does a header meet R44, `n` bytes being there. -/
def laxOk (l : List Byte) : Bool :=
  let low := le l 1 1
  let cnt := le l 2 1
  decide (8 ≤ l.length) && lef l 0 1 7 3 == 0 && lef l 3 1 7 5 == 0 && zeroAt l 4 4 &&
    decide (low ≤ 10) && decide (cnt ≤ 11) && decide (low + cnt ≤ 11) &&
    (cnt == 0 || lef l 0 1 2 0 == 0) && decide (laxLen l ≤ l.length)

/-- Reads a record that meets R44; none for a malformed one. -/
def ofLAX (l : List Byte) : Option Acc :=
  if laxOk l then
    let low := le l 1 1
    let cnt := le l 2 1
    let raw := le l 8 (8 * cnt)
    let neg := decide (0 < cnt) && raw.testBit (64 * cnt - 1)
    let v : Int := if neg then (raw : Int) - 2 ^ (64 * cnt) else raw
    some ⟨BitVec.ofInt 704 (v * 2 ^ (64 * low)), bit (le l 0 1) 0, bit (le l 0 1) 1, bit (le l 0 1) 2,
      BitVec.ofNat 5 (le l 3 1)⟩
  else none

/-! ### The quotient of two accumulators (R47) -/

/-- Is a resolved value zero. -/
def qZero : QVal → Bool
  | .q _ n _ => n == 0
  | _ => false

/-- quot of two resolved values, as a value to round and the flags it raises itself. -/
def quotVal (a b : QVal) : QVal × NumFlags :=
  match a, b with
  | .nan, _ | _, .nan => (.nan, 0)
  | .inf _, .inf _ => (.nan, fINV)
  | .inf s, .q s' n' _ => (.inf (s != (s' && n' != 0)), 0)
  | .q _ _ _, .inf _ => (.q false 0 1, 0)
  | .q s n d, .q s' n' d' =>
    if n' = 0 then (if n = 0 then (.nan, fINV) else (.inf s, 0))
    else if n = 0 then (.q false 0 1, 0)
    else (.q (s != s') (n * d') (d * n'), 0)

/-- quot(a, b) rounded once (R47). -/
def quotRound (a b : Acc) (f : Fmt) (mode : Mode) : Nat × NumFlags :=
  let (x, fx) := a.resolve
  let (y, fy) := b.resolve
  let (v, fq) := quotVal x y
  let (c, fr) := convertQ f mode v
  (c, a.flags ||| b.flags ||| fx ||| fy ||| fq ||| fr)

/-! ### Correctly rounded functions of one operand (R46) -/

/-- The function of a VFN row. -/
inductive VFn
  | exp2 | exp | log2 | log | rcp | rsqrt
deriving DecidableEq, Repr

/-- Signed numerator. -/
def sgn (neg : Bool) (n : Nat) : Int := if neg then -(n : Int) else n

/-- Rounds a signed real given by intervals. -/
def resolveSigned (f : Fmt) (mode : Mode) (iv : Nat → Ivl × Int) : Nat × NumFlags :=
  resolve iv (fun a d => roundQ f mode (decide (a < 0)) a.natAbs d) precisions

/-- exp or exp2 of the fraction `x = (−1)^neg n/d`, `n ≠ 0`. Beyond ±2048 the result is far outside every
format, and the bound stands for it. -/
def expRound (two : Bool) (f : Fmt) (mode : Mode) (neg : Bool) (n d : Nat) : Nat × NumFlags :=
  if n > 2048 * d then
    (if neg then roundPos f mode false 1 (2 ^ 2000) else roundPos f mode false (2 ^ 2000) 1)
  else if two then resolveSigned f mode (fun p => exp2Scaled p (sgn neg n) d)
  else resolveSigned f mode (fun p => expScaled p (sgn neg n) d)

/-- A function of R46's table applied to an exact value. -/
def vfnRound (fn : VFn) (f : Fmt) (mode : Mode) (v : QVal) : Nat × NumFlags :=
  match fn, v with
  | _, .nan => nanInto f
  | .exp2, .inf s | .exp, .inf s => if s then (zeroCode f false, 0) else infInto f false
  | .exp2, .q s n d => if n = 0 then roundPos f mode false 1 1 else expRound true f mode s n d
  | .exp, .q s n d => if n = 0 then roundPos f mode false 1 1 else expRound false f mode s n d
  | .log2, .inf s | .log, .inf s =>
    if s then (let (c, fl) := nanInto f; (c, fl ||| fINV)) else infInto f false
  | .log2, .q s n d =>
    if n = 0 then infInto f true
    else if s then (let (c, fl) := nanInto f; (c, fl ||| fINV))
    else
      let k := flog2 n d
      let pow2 := if k ≥ 0 then decide (n = d <<< k.toNat) else decide (n <<< (-k).toNat = d)
      if pow2 then roundQ f mode (decide (k < 0)) k.natAbs 1
      else resolveSigned f mode (fun p => (log2Ivl p n d, 0))
  | .log, .q s n d =>
    if n = 0 then infInto f true
    else if s then (let (c, fl) := nanInto f; (c, fl ||| fINV))
    else if n = d then (zeroCode f false, 0)
    else resolveSigned f mode (fun p => (lnFullIvl p n d, 0))
  | .rcp, .inf s => (zeroCode f s, 0)
  | .rcp, .q s n d => if n = 0 then infInto f s else roundPos f mode s d n
  | .rsqrt, .inf s => if s then (let (c, fl) := nanInto f; (c, fl ||| fINV)) else (zeroCode f false, 0)
  | .rsqrt, .q s n d =>
    if n = 0 then infInto f s
    else if s then (let (c, fl) := nanInto f; (c, fl ||| fINV))
    else
      -- 1/sqrt(n/d) = sqrt(d * n) / n; a perfect square makes it exact
      let r := isqrt (d * n)
      if r * r = d * n then roundPos f mode false r n
      else resolveSigned f mode (fun p =>
        let q := isqrt (d * 2 ^ (2 * p) * 2 ^ 400 / n)
        (⟨q, q + 1⟩, -200))

/-! ### Ordered mode (R51, R52) -/

/-- The layout of IEEE 754 binary64, used by ordered mode alone. -/
def f64 : FloatFmt := ⟨52, 11, 1023, 0x7FEFFFFFFFFFFFFF, some 0x7FF0000000000000, some 0x7FF8000000000000⟩

/-- The value of a finite binary64 code, as a multiple of 2^−300 (R51 shows that it is one). -/
def f64Int (c : Nat) : Int :=
  let s := c.testBit 63
  let ex : Nat := c / 2 ^ 52 % 2 ^ 11
  let mm : Nat := c % 2 ^ 52
  let m : Nat := if ex = 0 then mm else 2 ^ 52 + mm
  let e : Int := if ex = 0 then -1074 else (ex : Int) - 1075
  let k : Nat := if e + 300 ≥ 0 then m <<< (e + 300).toNat else m >>> (-(e + 300)).toNat
  sgn s k

/-- Rounds `k × 2^−300` to binary64, RNE; an exact zero gives +0. -/
def f64Round (k : Int) : Nat × NumFlags :=
  if k = 0 then (0, 0) else roundFloat f64 .rne (decide (k < 0)) k.natAbs (2 ^ 300)

/-- An ordered-mode entry (R51): B as a binary64 code, the special flags and the flag set. -/
structure Ord where
  /-- B, binary64. -/
  b : DWord
  /-- PINF. -/
  pinf : Bool
  /-- NINF. -/
  ninf : Bool
  /-- NAN. -/
  nan : Bool
  /-- The numeric flag set. -/
  flags : NumFlags
deriving DecidableEq, Repr

/-- The cleared ordered entry. -/
def Ord.zero : Ord := ⟨0, false, false, false, 0⟩

/-- One chunk of up to 32 products (R51): exact sum, one rounding of the sum, one rounding of the addition. -/
def Ord.addChunk (o : Ord) (ps : List (Val × Val)) : Ord :=
  let a := ps.foldl (fun a p => a.addProd p.1 p.2) Acc.zero
  let (t, ft) := f64Round a.n.toInt
  let (b, fb) := f64Round (f64Int o.b.toNat + f64Int t)
  ⟨BitVec.ofNat 64 b, o.pinf || a.pinf, o.ninf || a.ninf, o.nan || a.nan,
    o.flags ||| a.flags ||| ((ft ||| fb) &&& fINX)⟩

/-- The exact long accumulator of an ordered entry (R52). -/
def Ord.toAcc (o : Ord) : Acc :=
  ⟨BitVec.ofInt 704 (f64Int o.b.toNat), o.pinf, o.ninf, o.nan, o.flags⟩

end Sys2Proof.Machine
end

