-- ==== Sys2Proof/Machine/KInstr.lean ====
section
/-! DEFINITION. Machine/KInstr.lean: the Kiben instruction words as data: the core's instructions (R98–R101) and those of
the coprocessors CP0–CP3 (R145, R154, R198, R205). Register numbers and fields are bit vectors, as the encodings give
them. -/

namespace Sys2Proof

/-- Instructions of the ALU group that write rd from two registers (R100). -/
inductive AluOp
  | add | sub | adc | sbc | and | or | xor | andn | sll | srl | sra | ror
  | mul | mulh | mulhu | div | divu | rem | remu
deriving DecidableEq, Repr

/-- Loads (R99). -/
inductive LoadOp
  | lb | lbu | lh | lhu | lw
deriving DecidableEq, Repr

/-- Stores (R99). -/
inductive StoreOp
  | sb | sh | sw
deriving DecidableEq, Repr

/-- mask/MU/T of a CP1 instruction (R148, R154). -/
structure VMask where
  /-- Mask register. -/
  mask : BitVec 3
  /-- MU: 1 applies the mask. -/
  mu : BitVec 1
  /-- Type T: 0 FP32, 1 FP16, 2 BF16. -/
  t : BitVec 2
deriving DecidableEq, Repr

/-- CP0 instructions (R145). -/
inductive CP0Op
  | tld (fmt rs1 rs2 : BitVec 5) (t : BitVec 4) (kq : BitVec 3)
  | tldt (fmt rs1 rs2 : BitVec 5) (t : BitVec 4) (kq : BitVec 3)
  | tlds (rs1 rs2 : BitVec 5) (t : BitVec 4)
  | tmma (bank : BitVec 2) (a b : BitVec 3) (ord : BitVec 1)
  | tclr (bank : BitVec 2)
  | trnd (fmt rs1 rs2 : BitVec 5) (rm : BitVec 3) (bank : BitVec 2)
  | txp (bank : BitVec 2) (rs1 rs2 : BitVec 5)
  | tim (bank : BitVec 2) (rs1 rs2 : BitVec 5)
  | tmtc (rs1 : BitVec 5) (n : BitVec 7)
  | tmfc (rd : BitVec 5) (n : BitVec 7)
  | tsig (sl : BitVec 5)
  | twait (rs1 : BitVec 5) (sl : BitVec 5)
deriving DecidableEq, Repr

/-- Three-register arithmetic of CP1 under a mask (R149, R151). -/
inductive VBinOp
  | vadd | vsub | vmul | vmax | vmin | vfma | vsel | vexpd | vexp2d
deriving DecidableEq, Repr

/-- CP1 instructions (R154). -/
inductive CP1Op
  | vld (vd rs1 : BitVec 5)
  | vst (vs rs1 : BitVec 5) (m : VMask)
  | vbc (vd rs1 : BitVec 5) (t : BitVec 2)
  | vbin (op : VBinOp) (vd va vb : BitVec 5) (m : VMask)
  | vcmp (m : BitVec 3) (va vb : BitVec 5) (cond : BitVec 4) (t : BitVec 2)
  | vhmax (vd va : BitVec 5) (m : VMask)
  | vcvt (vd vs dst src : BitVec 5)
  | vfn (vd va : BitVec 5) (fn : BitVec 3) (rt : BitVec 2) (m : VMask)
  | vred (x : BitVec 3) (va : BitVec 5) (m : VMask)
  | vdot (x : BitVec 3) (va vb : BitVec 5) (m : VMask)
  | vxclr (x : BitVec 3)
  | vxrnd (vd : BitVec 5) (x : BitVec 3) (lane : BitVec 5) (t : BitVec 2)
  | vquot (vd : BitVec 5) (xa xb : BitVec 3) (lane : BitVec 5) (t : BitVec 2)
  | vxp (x : BitVec 3) (rs1 : BitVec 5)
  | vxim (x : BitVec 3) (rs1 : BitVec 5)
  | vmtc (rs1 : BitVec 5) (n : BitVec 6)
  | vmfc (rd : BitVec 5) (n : BitVec 6)
  | vsig (sl : BitVec 5)
  | vwait (rs1 : BitVec 5) (sl : BitVec 5)
deriving DecidableEq, Repr

/-- CP2 instructions (R198). -/
inductive CP2Op
  | sinc (rs1 sl : BitVec 5)
  | swait (rs1 sl : BitVec 5)
  | stest (rd sl : BitVec 5)
  | sset (rs1 sl : BitVec 5)
  | smtc (rs1 : BitVec 5) (n : BitVec 7)
  | smfc (rd : BitVec 5) (n : BitVec 7)
deriving DecidableEq, Repr

/-- CP3 instructions (R205). -/
inductive CP3Op
  | dq (rs1 : BitVec 5)
  | dmsg (rs1 rs2 : BitVec 5) (ord : BitVec 1)
deriving DecidableEq, Repr

/-- A Kiben instruction (R98–R101). -/
inductive KInstr
  | alu (op : AluOp) (rd rs1 rs2 : BitVec 5)
  | cmp (rs1 rs2 : BitVec 5)
  | csel (cond : BitVec 4) (rd rs1 rs2 : BitVec 5)
  | addi (rd rs1 : BitVec 5) (imm : BitVec 16)
  | cmpi (rs1 : BitVec 5) (imm : BitVec 16)
  | andi (rd rs1 : BitVec 5) (imm : BitVec 16)
  | ori (rd rs1 : BitVec 5) (imm : BitVec 16)
  | xori (rd rs1 : BitVec 5) (imm : BitVec 16)
  | shi (ty : BitVec 2) (rd rs1 : BitVec 5) (amount : BitVec 5)
  | lui (rd : BitVec 5) (imm : BitVec 16)
  | load (op : LoadOp) (rd rs1 : BitVec 5) (imm : BitVec 16)
  | store (op : StoreOp) (rs2 rs1 : BitVec 5) (imm : BitVec 16)
  | bc (cond : BitVec 4) (off : BitVec 22)
  | j (off : BitVec 26)
  | jal (off : BitVec 26)
  | jalr (rd rs1 : BitVec 5) (imm : BitVec 16)
  | loop (level : BitVec 2) (rs : BitVec 5) (len : BitVec 12)
  | loopi (level : BitVec 2) (count len : BitVec 12)
  | mfc (rd : BitVec 5) (n : BitVec 12)
  | mtc (rs : BitVec 5) (n : BitVec 12)
  | syscall (code : BitVec 12)
  | eret
  | break (code : BitVec 12)
  | fence (cp i : BitVec 1)
  | park
  | cp0 (op : CP0Op)
  | cp1 (op : CP1Op)
  | cp2 (op : CP2Op)
  | cp3 (op : CP3Op)
deriving DecidableEq, Repr

end Sys2Proof
end

