-- ==== Sys2Proof/Machine/CellState.lean ====
section
/-! DEFINITION. Machine/CellState.lean: the state of one cell: Kiben core, coprocessors CP0 and CP1, sluices and inbox,
DMA queue, debug registers (R91, R114, R135–R156, R195–R208, R435).
Choices beyond the words of the spec: log entries DESIGN CHOICE 4, 26, 65. -/

namespace Sys2Proof.Machine

/-- A wait on a sluice (R197, R214). -/
structure Waiter where
  /-- Sluice number. -/
  sl : BitVec 5
  /-- Threshold. -/
  thr : Word
  /-- Time-base instant at which the wait began, ns. -/
  began : Nat
  /-- Watchdog limit in µs when the wait began; 0: off. -/
  limit : Nat
  /-- The watchdog has recorded its event. -/
  fired : Bool
  /-- Instant on the device's clock at which it began: its watchdog is timed from there (R214). -/
  at_ : Nat
deriving DecidableEq, Repr

/-- A blocking access through a window (R95, R96). -/
structure Access95 where
  /-- A store; otherwise a load. -/
  isStore : Bool
  /-- The load's kind, which also gives a store's width (LB byte, LH half-word, LW word). -/
  op : LoadOp
  /-- Destination register of a load. -/
  rd : BitVec 5
  /-- Cell-local address. -/
  addr : Word
  /-- Data of a store. -/
  data : Word
  /-- Device physical address. -/
  pa : Nat
  /-- TAG of the request; 0 while the access waits on a page request. -/
  tag : Nat
  /-- Instant at which the response timer expires. -/
  deadline : Nat
  /-- Time left on the response timer while it is paused by a page request. -/
  paused : Option Nat
  /-- The window segment through which it was issued: its mode (true physical) and base, none for the reservoir window (R226). -/
  win : Option (Bool × Nat)
deriving DecidableEq, Repr

/-- What the core is doing. -/
inductive Run
  /-- Halted after a reset, not fetching (R127). -/
  | halted
  /-- Fetching and issuing. -/
  | running
  /-- Blocked on a window access (R95). -/
  | access (a : Access95)
  /-- Reloading a parity-failed line (R61): the word's offset; a load's address, or none for a fetch. -/
  | reload (off : Nat) (load : Option Word)
  /-- Dividing (R128): destination and result. -/
  | dividing (rd : BitVec 5) (v : Word)
  /-- Stalled by SWAIT (R199). -/
  | swait (w : Waiter)
  /-- PARK waits for the queues and the DMA to empty (R213). -/
  | parking
  /-- Parked: clocks stopped (R213). -/
  | parked
  /-- Stopped by a double trap (R125). -/
  | stopped
  /-- Halted by the debug port (R435). -/
  | debug
  /-- Halted by the siphon at a turnout save or restore (R379, R381). -/
  | saved
deriving DecidableEq, Repr

/-- The Kiben core (R91, R114). -/
structure KCore where
  /-- g1–g31; g0 is not stored (R91). -/
  g : SMap Word
  /-- Program counter. -/
  pc : Word
  /-- CR_FLAGS: N Z C V. -/
  flags : BitVec 4
  /-- CR_STATUS: EXL PIE PPRIV IE PRIV. -/
  status : BitVec 5
  /-- CR_EPC. -/
  epc : Word
  /-- CR_CAUSE. -/
  cause : Word
  /-- CR_TVAL. -/
  tval : Word
  /-- CR_TVEC. -/
  tvec : Word
  /-- CR_SSCRATCH. -/
  sscratch : Word
  /-- CR_IEN. -/
  ien : BitVec 4
  /-- CR_IPEND bits MGMT, COPROC and TIMER; INBOX follows from the inbox. -/
  ipend : BitVec 4
  /-- CR_LS0–2, CR_LE0–2, CR_LC0–2 under 0–2, 4–6 and 8–10. -/
  loops : SMap Word
  /-- CR_TIMECMP. -/
  timecmp : DWord
  /-- The compare is armed (R116). -/
  tcArmed : Bool
  /-- Captured CR_TIME_HI, CR_TIME_FRAC and CR_CYCLE_HI, under 0, 1 and 2 (R115). -/
  captured : SMap Word
  /-- Region clock count at the cell's reset, subtracted from the live count (CR_CYCLE). -/
  cycBase : DWord
  /-- The cycle count held while the clocks are stopped: the cell is parked, whatever else halts it (R213). -/
  cycHeld : Option DWord
  /-- CR_IMEM_BACK. -/
  imemBack : DWord
  /-- CR_MPU_BASE0–7 under 0–7 and CR_MPU_LIM0–7 under 8–15. -/
  mpu : SMap Word
  /-- What the core is doing. -/
  run : Run
deriving DecidableEq, Repr

/-- The core after a CELL reset (R127). -/
def KCore.reset : KCore :=
  ⟨[], 0, 0, 0b00001#5, 0, 0, 0, 0, 0, 0, 0, [], 0, false, [], 0, none, 0, [], .halted⟩

/-- A coprocessor instruction accepted into a queue: its operands were read at issue (R113). -/
structure CopEntry (α : Type) where
  /-- The instruction. -/
  op : α
  /-- The core register operands. -/
  r1 : Word
  /-- The second operand. -/
  r2 : Word
  /-- The core was in user mode at issue. -/
  user : Bool
  /-- Address of the instruction. -/
  pc : Word
deriving DecidableEq, Repr

/-- A tile (R137). -/
structure Tile where
  /-- Format code. -/
  fmt : Fmt
  /-- K = 32 × (kq + 1). -/
  kq : Nat
  /-- The element codes, row by row. -/
  elems : List Nat
  /-- The MX scale bytes, row by row. -/
  scales : List Nat
deriving DecidableEq, Repr

/-- A bank of 32 × 32 entries, entry (i, j) under 32 i + j (R141). -/
inductive Bank
  | empty
  | exact (e : SMap Acc)
  | ordered (e : SMap Ord)
deriving DecidableEq, Repr

/-- The tensor coprocessor (R137–R147). -/
structure Tensor where
  /-- Accepted instructions not yet started, in order (R129). -/
  q : List (CopEntry CP0Op)
  /-- A0–A7 and B0–B7. -/
  tiles : List (Nat × Tile)
  /-- Banks 0–3. -/
  banks : SMap Bank
  /-- TTILE0–TTILE15: the tile state left by the last instruction accepted (R138). -/
  ttile : SMap Word
  /-- Bank states left by the last instruction accepted: 0 EMPTY, 1 EXACT, 2 ORDERED. -/
  tbank : SMap Nat
  /-- TFLAGS. -/
  flags : NumFlags
  /-- TSTATUS.HALTED. -/
  halted : Bool
  /-- TSTATUS.ERR. -/
  err : Nat
  /-- TERRPC. -/
  errpc : Word
  /-- TSEED, TSTREAM, TC0–TC3 and TSCALE_OUT under their control register numbers. -/
  cr : SMap Word
  /-- The wait of TWAIT. -/
  wait : Option Waiter
deriving DecidableEq, Repr

/-- The tensor coprocessor after a CELL reset (R136). -/
def Tensor.reset : Tensor := ⟨[], [], [], [], [], 0, false, 0, 0, [], none⟩

/-- The vector coprocessor (R148–R156). -/
structure Vector1 where
  /-- Accepted instructions not yet started, in order (R129). -/
  q : List (CopEntry CP1Op)
  /-- v0–v31. -/
  v : SMap (BitVec 512)
  /-- m0–m7. -/
  m : SMap DWord
  /-- x0–x7. -/
  x : SMap Acc
  /-- VFLAGS. -/
  flags : NumFlags
  /-- VSTATUS.HALTED. -/
  halted : Bool
  /-- VSTATUS.ERR. -/
  err : Nat
  /-- VERRPC. -/
  errpc : Word
  /-- VCTL.RM. -/
  rm : BitVec 3
  /-- VSEED, VSTREAM and VC0–VC3 under their control register numbers. -/
  cr : SMap Word
  /-- The wait of VWAIT. -/
  wait : Option Waiter
deriving DecidableEq, Repr

/-- The vector coprocessor after a CELL reset (R136). -/
def Vector1.reset : Vector1 := ⟨[], [], [], [], 0, false, 0, 0, 0, [], none⟩

/-- A message in the hardware inbox buffer (R201). -/
structure InMsg where
  /-- Source endpoint. -/
  src : Nat
  /-- Payload of 64 bytes. -/
  data : List Byte
  /-- The flit was poisoned (R80). -/
  poison : Bool
deriving DecidableEq, Repr

/-- Sluices and inbox (R195–R204). -/
structure Sluices where
  /-- s0–s31. -/
  s : SMap Word
  /-- SWDOG.LIMIT. -/
  swdog : Nat
  /-- ICFG. -/
  icfg : Word
  /-- IBASE. -/
  ibase : Word
  /-- IPROD. -/
  iprod : Word
  /-- ICONS. -/
  icons : Word
  /-- IDROP. -/
  idrop : Word
  /-- The hardware buffer of up to 16 messages, oldest first. -/
  buf : List InMsg
deriving DecidableEq, Repr

/-- Sluices and inbox after a CELL reset. -/
def Sluices.reset : Sluices := ⟨[], 0, 0, 0, 0, 0, 0, []⟩

/-- Where a descriptor that waits stands: the pieces before it have been moved. -/
structure DmaHold where
  /-- Which of the cell's four descriptors in progress it is. -/
  k : Nat
  /-- Bytes moved. -/
  moved : Nat
  /-- Poisoned data were met. -/
  bad : Bool
  /-- The window segment of the source of the piece that waits, as at its issue (R226). -/
  src : Option (Bool × Nat)
  /-- That of its destination. -/
  dst : Option (Bool × Nat)
deriving DecidableEq, Repr

/-- Progress of a DMA queue entry. -/
inductive DmaPhase
  /-- Not started. -/
  | queued
  /-- Waits on the page request of a page key (R229). -/
  | paging (key : Nat) (h : DmaHold)
  /-- Waits for a read that left through a port (R252); the 100 µs of R208 end at this instant. -/
  | reading (deadline : Nat) (h : DmaHold)
  /-- A response has not come; the 100 µs end at this instant (R208). -/
  | unanswered (deadline : Nat) (h : DmaHold)
  /-- Ended with a status; STATUS and DONE are still to be written (R207). -/
  | ended (status : Nat)
deriving DecidableEq, Repr

/-- An entry of the CP3 queue (R206). -/
inductive DmaItem
  /-- A descriptor, its scratch address, its issue mode and its progress. -/
  | desc (bytes : List Byte) (addr : Word) (user : Bool) (ph : DmaPhase)
  /-- A message, its destination endpoint and ORD. -/
  | msg (data : List Byte) (dest : Nat) (ord : Bool)
deriving DecidableEq, Repr

/-- The DMA engine (R205–R208). -/
structure Dma where
  /-- The queue, oldest first. -/
  q : List DmaItem
  /-- The wait of the first descriptor that waits. -/
  wait : Option Waiter
deriving DecidableEq, Repr

/-- The cell's debug registers (R433–R435). -/
structure CellDbg where
  /-- CLAIMED. -/
  claimed : Bool
  /-- DBP0–DBP3. -/
  bp : SMap Word
  /-- DWP0_A, DWP0_C, DWP1_A, DWP1_C. -/
  wp : SMap Word
  /-- DSTAT halt reason. -/
  reason : Nat
  /-- DSTAT index of the breakpoint or watchpoint. -/
  index : Nat
  /-- A single step is running (R435 STEP): interrupts are held off. -/
  stepping : Bool
  /-- The first instruction after a halt does not stop on its own breakpoint or watchpoint. -/
  skip : Bool
  /-- HALT waits for the instruction boundary. -/
  haltReq : Bool
  /-- A SWAIT, a divide or an access that the halt must let end, or re-issue. -/
  resumeRun : Run
deriving DecidableEq, Repr

/-- No claim, no breakpoint. -/
def CellDbg.reset : CellDbg := ⟨false, [], [], 0, 0, false, false, false, .running⟩

/-- One cell. -/
structure Cell where
  /-- The Kiben core. -/
  k : KCore
  /-- CP0. -/
  t : Tensor
  /-- CP1. -/
  v : Vector1
  /-- CP2: sluices and inbox. -/
  sl : Sluices
  /-- CP3: the DMA engine. -/
  dma : Dma
  /-- Debug registers. -/
  dbg : CellDbg
  /-- CR_TURNOUT (R239). -/
  turnout : BitVec 10
  /-- The cell is held in a reset that has not completed (R62, R84). -/
  inReset : Bool
deriving DecidableEq, Repr

/-- A cell after a CHIP reset (R127). -/
def Cell.reset : Cell :=
  ⟨KCore.reset, Tensor.reset, Vector1.reset, Sluices.reset, ⟨[], none⟩, CellDbg.reset, 0x200#10, false⟩

end Sys2Proof.Machine
end

