-- ==== Sys2Proof/Machine/MimState.lean ====
section
/-! DEFINITION. Machine/MimState.lean: the contexts of the Mimin engine (R157–R168).
Choices beyond the words of the spec: log entries DESIGN CHOICE 29. -/

namespace Sys2Proof.Machine

/-- A page (R158, R160–R162). -/
structure Page where
  /-- The frame: K rows of 64 tokens, then V rows, each row followed by its scale bytes in an MX format. -/
  frame : List Byte
  /-- KMAX row. -/
  kmax : List Byte
  /-- KMIN row. -/
  kmin : List Byte
  /-- Tier: 0 reservoir, 1 HBM, 2 context store. -/
  tier : Nat
  /-- Pinned (R168). -/
  pin : Bool
  /-- When it was last read, on the device's count of reads. -/
  read : Nat
deriving DecidableEq, Repr

/-- A layer-group (R158). -/
structure LGroup where
  /-- L. -/
  len : Nat
  /-- The pages present, by index. -/
  pages : SMap (Option Page)
deriving DecidableEq, Repr

/-- A context (R157). -/
structure Context where
  /-- Owning turnout. -/
  t : Nat
  /-- Context ID. -/
  id : Nat
  /-- LAYERS. -/
  layers : Nat
  /-- GROUPS. -/
  groups : Nat
  /-- HEADS. -/
  heads : Nat
  /-- D. -/
  d : Nat
  /-- PFMT. -/
  pfmt : Fmt
  /-- POLICY: 0 STREAM, 1 RECENT, 2 RESERVOIR, 3 STORE. -/
  policy : Nat
  /-- RECENT. -/
  recent : Nat
  /-- SUMRSV. -/
  sumrsv : Bool
  /-- NSID. -/
  nsid : Nat
  /-- FIRSTPAGE. -/
  first : Nat
  /-- Layer-groups under 64 × layer + group; an unlisted one has length 64 × FIRSTPAGE and no page. -/
  lgs : SMap LGroup
  /-- How many TRUNCATEs have shortened it: a call fetched before one completes on the old data (R183). -/
  cuts : Nat
deriving DecidableEq, Repr

/-- A RUN that its cells are executing (R187). -/
structure RunRec where
  /-- Furrow of its entry. -/
  f : Nat
  /-- Index of its entry. -/
  i : Nat
  /-- The cells, in ascending order of their index within the set. -/
  cells : List Nat
  /-- Cells that have exited. -/
  done : NSet
  /-- OR of the exit values. -/
  acc : Nat
  /-- 1 + the instant at which TLIMIT expires; 0: none. -/
  due : Nat
  /-- Indices whose cell was reset and whose share is to run again (R192). -/
  lost : List Nat
  /-- Indices whose cell has not been taken yet: it was not free (R187). -/
  wait : List Nat
deriving DecidableEq, Repr

/-- Does a RUN hold a cell now: taken, and not yet exited (R187). -/
def RunRec.holds (r : RunRec) (c : Nat) : Bool :=
  r.cells.contains c && !nin r.done c && !r.wait.contains (r.cells.idxOf c)

/-- The context engine. -/
structure Mim where
  /-- Contexts under turnout × 2^32 + ID. -/
  ctxs : SMap (Option Context)
  /-- Count of page reads, for R165's order. -/
  reads : Nat
  /-- RUN calls in execution. -/
  runs : List RunRec
  /-- Entries already counted in MIM_SLOT_WAIT, furrow × 2^32 + HEAD. -/
  waited : NSet
  /-- The furrow served last, for the round robin among fetchable furrows (R172). -/
  last : Nat
deriving DecidableEq, Repr

/-- After a CHIP reset. -/
def Mim.reset : Mim := ⟨[], 0, [], [], 0⟩

end Sys2Proof.Machine
end

