-- ==== Sys2Proof/Machine/Regs.lean ====
section
/-! DEFINITION. Machine/Regs.lean: the register blocks of PF0 BAR0: every register, its offset, its fields, their access
codes, reset values and reach (R13, R14 and the register tables of each chapter). A field handle names one field of one
register; a register is stored under its offset. -/

namespace Sys2Proof.Machine

/-- Access codes (R13). -/
inductive Access
  | rw | ro | wo | w1c | w1s | rs
deriving DecidableEq, Repr

/-- Reset levels (R14). -/
inductive Level
  | function | cell | block | region | port | chip | full
deriving DecidableEq, Repr

/-- A field of one register: the register's offset and the bit range. -/
structure Fld where
  /-- PF0 BAR0 offset of the register. -/
  key : Nat
  /-- Highest bit. -/
  hi : Nat
  /-- Lowest bit. -/
  lo : Nat
deriving DecidableEq, Repr

/-- A row of a register field table. -/
structure FieldRow where
  /-- Highest bit. -/
  hi : Nat
  /-- Lowest bit. -/
  lo : Nat
  /-- Access code. -/
  acc : Access
  /-- Reset value. -/
  rst : Nat
  /-- The smallest reset level that restores it. -/
  reach : Level
  /-- The valid range of an enumerated field; none where every value is valid. -/
  ok : Option (Nat × Nat)
deriving DecidableEq, Repr

/-- A register or an array of registers: base offset, strides and counts of its indices, bytes, fields. -/
structure RegRow where
  /-- Name. -/
  name : String
  /-- Offset of the first instance. -/
  base : Nat
  /-- Stride and count of each index. -/
  dims : List (Nat × Nat)
  /-- Bytes of the register. -/
  bytes : Nat
  /-- Field rows. -/
  fields : List FieldRow
deriving DecidableEq, Repr

/-! ### Reset values that the configuration image and the fuses give, at the default configuration (R402) -/

/-- HEP_TOPO.ASSIGN of the default configuration. -/
def imgAssign : Nat := 0x5555
/-- LNK_CTL.MODE of the default configuration. -/
def imgLinkMode : Nat := 0
/-- TMB_CTL.ROLE of the default configuration. -/
def imgRole : Nat := 0
/-- PAR_CFG.LAT_PORT of the default configuration. -/
def imgLatPort : Nat := 0
/-- The default reach table (R403): nibble i is the level of source i. -/
def imgReach : Nat := 0x6774666155555577

/-- The default UE mask of a fault source (R423). -/
def fltUE (s : Nat) : Nat :=
  if s ≤ 0x14F then 0x05
  else if s ≤ 0x153 || s == 0x178 || s == 0x179 || s == 0x19B || s == 0x19D || s == 0x19E then 0x11
  else if s == 0x19C then 0x13
  else if s == 0x199 || s == 0x19A then (if s == 0x199 then 0x19 else 0x01)
  else if s ≤ 0x19F then 0x01
  else 0

/-- LAST at reset: the UE mask without BRST and CRST, with 11h (R423). -/
def fltLast (ue : Nat) : Nat := (ue &&& 0x13) ||| 0x11

/-! ### Field handles -/
/-- GEN_STATE.STATE [2:0]. -/
def f_GEN_STATE_STATE : Fld := ⟨0x0000010, 2, 0⟩
/-- GEN_ERR.WRITE_IGNORED [0:0]. -/
def f_GEN_ERR_WRITE_IGNORED : Fld := ⟨0x0000018, 0, 0⟩
/-- RGN_UNIT_RST.BUSY [31:31]. -/
def f_RGN_UNIT_RST_BUSY (i : Nat) : Fld := ⟨0x2000000 + 0x100000 * i, 31, 31⟩
/-- RGN_UNIT_RST.LEVEL [9:8]. -/
def f_RGN_UNIT_RST_LEVEL (i : Nat) : Fld := ⟨0x2000000 + 0x100000 * i, 9, 8⟩
/-- RGN_UNIT_RST.BLOCK [3:2]. -/
def f_RGN_UNIT_RST_BLOCK (i : Nat) : Fld := ⟨0x2000000 + 0x100000 * i, 3, 2⟩
/-- RGN_UNIT_RST.CELL [1:0]. -/
def f_RGN_UNIT_RST_CELL (i : Nat) : Fld := ⟨0x2000000 + 0x100000 * i, 1, 0⟩
/-- RGN_RSV_WEIGHT.F [19:16]. -/
def f_RGN_RSV_WEIGHT_F (i : Nat) : Fld := ⟨0x2000010 + 0x100000 * i, 19, 16⟩
/-- RGN_RSV_WEIGHT.B3 [15:12]. -/
def f_RGN_RSV_WEIGHT_B3 (i : Nat) : Fld := ⟨0x2000010 + 0x100000 * i, 15, 12⟩
/-- RGN_RSV_WEIGHT.B2 [11:8]. -/
def f_RGN_RSV_WEIGHT_B2 (i : Nat) : Fld := ⟨0x2000010 + 0x100000 * i, 11, 8⟩
/-- RGN_RSV_WEIGHT.B1 [7:4]. -/
def f_RGN_RSV_WEIGHT_B1 (i : Nat) : Fld := ⟨0x2000010 + 0x100000 * i, 7, 4⟩
/-- RGN_RSV_WEIGHT.B0 [3:0]. -/
def f_RGN_RSV_WEIGHT_B0 (i : Nat) : Fld := ⟨0x2000010 + 0x100000 * i, 3, 0⟩
/-- RGN_RSV_ERR.CE_COUNT [31:16]. -/
def f_RGN_RSV_ERR_CE_COUNT (i : Nat) : Fld := ⟨0x2000018 + 0x100000 * i, 31, 16⟩
/-- RGN_RSV_ERR.UE_COUNT [15:8]. -/
def f_RGN_RSV_ERR_UE_COUNT (i : Nat) : Fld := ⟨0x2000018 + 0x100000 * i, 15, 8⟩
/-- RGN_RSV_ERR_ADDR.VALID [31:31]. -/
def f_RGN_RSV_ERR_ADDR_VALID (i : Nat) : Fld := ⟨0x2000020 + 0x100000 * i, 31, 31⟩
/-- RGN_RSV_ERR_ADDR.LINE [27:6]. -/
def f_RGN_RSV_ERR_ADDR_LINE (i : Nat) : Fld := ⟨0x2000020 + 0x100000 * i, 27, 6⟩
/-- RGN_CLK_STAT.STRETCH_COUNT [31:16]. -/
def f_RGN_CLK_STAT_STRETCH_COUNT (i : Nat) : Fld := ⟨0x2000030 + 0x100000 * i, 31, 16⟩
/-- RGN_CLK_STAT.STRETCHED [1:1]. -/
def f_RGN_CLK_STAT_STRETCHED (i : Nat) : Fld := ⟨0x2000030 + 0x100000 * i, 1, 1⟩
/-- RGN_CLK_STAT.LOCKED [0:0]. -/
def f_RGN_CLK_STAT_LOCKED (i : Nat) : Fld := ⟨0x2000030 + 0x100000 * i, 0, 0⟩
/-- RGN_GRAN_RETIRED.RETIRED [31:0]. -/
def f_RGN_GRAN_RETIRED_RETIRED (i j : Nat) : Fld := ⟨0x2000040 + 0x100000 * i + 0x4 * j, 31, 0⟩
/-- MIM_INFLIGHT.CALLS [16:0]. -/
def f_MIM_INFLIGHT_CALLS : Fld := ⟨0x1100000, 16, 0⟩
/-- MIM_PEAK.PEAK [16:0]. -/
def f_MIM_PEAK_PEAK : Fld := ⟨0x1100008, 16, 0⟩
/-- MIM_SLOT_WAIT.COUNT [31:0]. -/
def f_MIM_SLOT_WAIT_COUNT : Fld := ⟨0x1100010, 31, 0⟩
/-- MIM_TWIN_MISMATCH.COUNT [15:0]. -/
def f_MIM_TWIN_MISMATCH_COUNT : Fld := ⟨0x1100018, 15, 0⟩
/-- MIM_CPL_DROP.COUNT [15:0]. -/
def f_MIM_CPL_DROP_COUNT : Fld := ⟨0x1100020, 15, 0⟩
/-- SLU_BAR_CFG.EN [31:31]. -/
def f_SLU_BAR_CFG_EN (i : Nat) : Fld := ⟨0x1200100 + 0x20 * i, 31, 31⟩
/-- SLU_BAR_CFG.ROOT [30:30]. -/
def f_SLU_BAR_CFG_ROOT (i : Nat) : Fld := ⟨0x1200100 + 0x20 * i, 30, 30⟩
/-- SLU_BAR_CFG.UPLINK [29:24]. -/
def f_SLU_BAR_CFG_UPLINK (i : Nat) : Fld := ⟨0x1200100 + 0x20 * i, 29, 24⟩
/-- SLU_BAR_CFG.TURNOUT [17:9]. -/
def f_SLU_BAR_CFG_TURNOUT (i : Nat) : Fld := ⟨0x1200100 + 0x20 * i, 17, 9⟩
/-- SLU_BAR_CFG.LOCAL [8:0]. -/
def f_SLU_BAR_CFG_LOCAL (i : Nat) : Fld := ⟨0x1200100 + 0x20 * i, 8, 0⟩
/-- SLU_BAR_LINKS.TMO [63:48]. -/
def f_SLU_BAR_LINKS_TMO (i : Nat) : Fld := ⟨0x1200108 + 0x20 * i, 63, 48⟩
/-- SLU_BAR_LINKS.LINKS [35:0]. -/
def f_SLU_BAR_LINKS_LINKS (i : Nat) : Fld := ⟨0x1200108 + 0x20 * i, 35, 0⟩
/-- SLU_BAR_STAT.BUSY [31:31]. -/
def f_SLU_BAR_STAT_BUSY (i : Nat) : Fld := ⟨0x1200118 + 0x20 * i, 31, 31⟩
/-- SLU_BAR_STAT.DROP [30:24]. -/
def f_SLU_BAR_STAT_DROP (i : Nat) : Fld := ⟨0x1200118 + 0x20 * i, 30, 24⟩
/-- SLU_BAR_STAT.GEN [23:16]. -/
def f_SLU_BAR_STAT_GEN (i : Nat) : Fld := ⟨0x1200118 + 0x20 * i, 23, 16⟩
/-- SLU_BAR_STAT.ARRIVED [8:0]. -/
def f_SLU_BAR_STAT_ARRIVED (i : Nat) : Fld := ⟨0x1200118 + 0x20 * i, 8, 0⟩
/-- SLU_UNPARK.CELL [7:0]. -/
def f_SLU_UNPARK_CELL : Fld := ⟨0x1200000, 7, 0⟩
/-- SLU_DUMP_CTL.LATE [2:2]. -/
def f_SLU_DUMP_CTL_LATE : Fld := ⟨0x1200040, 2, 2⟩
/-- SLU_DUMP_CTL.DONE [1:1]. -/
def f_SLU_DUMP_CTL_DONE : Fld := ⟨0x1200040, 1, 1⟩
/-- SLU_DUMP_CTL.ARM [0:0]. -/
def f_SLU_DUMP_CTL_ARM : Fld := ⟨0x1200040, 0, 0⟩
/-- SLU_DUMP_ADDR.ADDR [51:0]. -/
def f_SLU_DUMP_ADDR_ADDR : Fld := ⟨0x1200048, 51, 0⟩
/-- SLU_DUMP_AT.AT [63:0]. -/
def f_SLU_DUMP_AT_AT : Fld := ⟨0x1200050, 63, 0⟩
/-- TRN_EXT.SCRUB [31:31]. -/
def f_TRN_EXT_SCRUB (i : Nat) : Fld := ⟨0x0702000 + 0x4 * i, 31, 31⟩
/-- TRN_EXT.OWNER [9:0]. -/
def f_TRN_EXT_OWNER (i : Nat) : Fld := ⟨0x0702000 + 0x4 * i, 9, 0⟩
/-- TRN_GRAN.SCRUB [31:31]. -/
def f_TRN_GRAN_SCRUB (i : Nat) : Fld := ⟨0x0704000 + 0x4 * i, 31, 31⟩
/-- TRN_GRAN.OWNER [9:0]. -/
def f_TRN_GRAN_OWNER (i : Nat) : Fld := ⟨0x0704000 + 0x4 * i, 9, 0⟩
/-- TRN_ROOT.EN [63:63]. -/
def f_TRN_ROOT_EN (i : Nat) : Fld := ⟨0x0700000 + 0x10 * i, 63, 63⟩
/-- TRN_ROOT.ROOT [51:12]. -/
def f_TRN_ROOT_ROOT (i : Nat) : Fld := ⟨0x0700000 + 0x10 * i, 51, 12⟩
/-- TRN_PARAM.PRQ_TMO [63:48]. -/
def f_TRN_PARAM_PRQ_TMO (i : Nat) : Fld := ⟨0x0700008 + 0x10 * i, 63, 48⟩
/-- TRN_PARAM.PORTS [41:32]; its bits 10 and 11 are reserved (R8). -/
def f_TRN_PARAM_PORTS (i : Nat) : Fld := ⟨0x0700008 + 0x10 * i, 41, 32⟩
/-- TRN_INV_ADDR.TA [47:12]. -/
def f_TRN_INV_ADDR_TA : Fld := ⟨0x0708000, 47, 12⟩
/-- TRN_INV_CTL.GO [31:31]. -/
def f_TRN_INV_CTL_GO : Fld := ⟨0x0708008, 31, 31⟩
/-- TRN_INV_CTL.SCOPE [19:16]. -/
def f_TRN_INV_CTL_SCOPE : Fld := ⟨0x0708008, 19, 16⟩
/-- TRN_INV_CTL.TURNOUT [8:0]. -/
def f_TRN_INV_CTL_TURNOUT : Fld := ⟨0x0708008, 8, 0⟩
/-- RGN_WIN.EN [63:63]. -/
def f_RGN_WIN_EN (i j k : Nat) : Fld := ⟨0x2001000 + 0x100000 * i + 0x40 * j + 0x8 * k, 63, 63⟩
/-- RGN_WIN.MODE [62:62]. -/
def f_RGN_WIN_MODE (i j k : Nat) : Fld := ⟨0x2001000 + 0x100000 * i + 0x40 * j + 0x8 * k, 62, 62⟩
/-- RGN_WIN.BASE [51:28]. -/
def f_RGN_WIN_BASE (i j k : Nat) : Fld := ⟨0x2001000 + 0x100000 * i + 0x40 * j + 0x8 * k, 51, 28⟩
/-- DSP_FSEL.FURROW [17:0]. -/
def f_DSP_FSEL_FURROW : Fld := ⟨0x0900000, 17, 0⟩
/-- DSP_FCMD.BUSY [31:31]. -/
def f_DSP_FCMD_BUSY : Fld := ⟨0x0900004, 31, 31⟩
/-- DSP_FCMD.RESULT [15:8]. -/
def f_DSP_FCMD_RESULT : Fld := ⟨0x0900004, 15, 8⟩
/-- DSP_FCMD.CMD [2:0]. -/
def f_DSP_FCMD_CMD : Fld := ⟨0x0900004, 2, 0⟩
/-- DSP_FSTAT.STATE [31:30]. -/
def f_DSP_FSTAT_STATE : Fld := ⟨0x0900008, 31, 30⟩
/-- DSP_FSTAT.RING_FAULT [29:29]. -/
def f_DSP_FSTAT_RING_FAULT : Fld := ⟨0x0900008, 29, 29⟩
/-- DSP_DB_BAD.COUNT [31:0]. -/
def f_DSP_DB_BAD_COUNT : Fld := ⟨0x0900010, 31, 0⟩
/-- DSP_FCTX.CTX [63:0]. -/
def f_DSP_FCTX_CTX (i : Nat) : Fld := ⟨0x0900020 + 0x8 * i, 63, 0⟩
/-- TRN_PRQ_FURROW.EN [31:31]. -/
def f_TRN_PRQ_FURROW_EN : Fld := ⟨0x0708010, 31, 31⟩
/-- TRN_PRQ_FURROW.FURROW [17:0]. -/
def f_TRN_PRQ_FURROW_FURROW : Fld := ⟨0x0708010, 17, 0⟩
/-- HEP_TOPO.MGR_UP [30:30]. -/
def f_HEP_TOPO_MGR_UP : Fld := ⟨0x0800000, 30, 30⟩
/-- HEP_TOPO.BIFUR [23:16]. -/
def f_HEP_TOPO_BIFUR : Fld := ⟨0x0800000, 23, 16⟩
/-- HEP_TOPO.ASSIGN [15:0]. -/
def f_HEP_TOPO_ASSIGN : Fld := ⟨0x0800000, 15, 0⟩
/-- HEP_BAR4_OFF.OFFSET [37:30]. -/
def f_HEP_BAR4_OFF_OFFSET : Fld := ⟨0x0800008, 37, 30⟩
/-- HEP_FLR_DROP.COUNT [31:0]. -/
def f_HEP_FLR_DROP_COUNT : Fld := ⟨0x0800020, 31, 0⟩
/-- HEP_SLC_STAT.FAULT [31:31]. -/
def f_HEP_SLC_STAT_FAULT : Fld := ⟨0x0800030, 31, 31⟩
/-- HEP_SLC_STAT.FRAME_ERR [15:0]. -/
def f_HEP_SLC_STAT_FRAME_ERR : Fld := ⟨0x0800030, 15, 0⟩
/-- HEP_WAKE.VALID [31:31]. -/
def f_HEP_WAKE_VALID : Fld := ⟨0x0800040, 31, 31⟩
/-- HEP_WAKE.WITHDRAWN [30:30]. -/
def f_HEP_WAKE_WITHDRAWN : Fld := ⟨0x0800040, 30, 30⟩
/-- HEP_WAKE.PORT [8:8]. -/
def f_HEP_WAKE_PORT : Fld := ⟨0x0800040, 8, 8⟩
/-- HEP_WAKE.SLOT [7:4]. -/
def f_HEP_WAKE_SLOT : Fld := ⟨0x0800040, 7, 4⟩
/-- HEP_WAKE.REASON [3:0]. -/
def f_HEP_WAKE_REASON : Fld := ⟨0x0800040, 3, 0⟩
/-- HEP_WIN_HI.HI [63:45]. -/
def f_HEP_WIN_HI_HI (i : Nat) : Fld := ⟨0x0800100 + 0x8 * i, 63, 45⟩
/-- LNK_CTL.RETRAIN [31:31]. -/
def f_LNK_CTL_RETRAIN (i : Nat) : Fld := ⟨0x0A00000 + 0x100 * i, 31, 31⟩
/-- LNK_CTL.AUTO [30:30]. -/
def f_LNK_CTL_AUTO (i : Nat) : Fld := ⟨0x0A00000 + 0x100 * i, 30, 30⟩
/-- LNK_CTL.DARK [29:29]. -/
def f_LNK_CTL_DARK (i : Nat) : Fld := ⟨0x0A00000 + 0x100 * i, 29, 29⟩
/-- LNK_CTL.TS_EN [28:28]. -/
def f_LNK_CTL_TS_EN (i : Nat) : Fld := ⟨0x0A00000 + 0x100 * i, 28, 28⟩
/-- LNK_CTL.SLEEP_IDLE [27:16]. -/
def f_LNK_CTL_SLEEP_IDLE (i : Nat) : Fld := ⟨0x0A00000 + 0x100 * i, 27, 16⟩
/-- LNK_CTL.MODE [3:0]. -/
def f_LNK_CTL_MODE (i : Nat) : Fld := ⟨0x0A00000 + 0x100 * i, 3, 0⟩
/-- LNK_STAT.STATE [31:29]. -/
def f_LNK_STAT_STATE (i : Nat) : Fld := ⟨0x0A00008 + 0x100 * i, 31, 29⟩
/-- LNK_STAT.LOCK [28:28]. -/
def f_LNK_STAT_LOCK (i : Nat) : Fld := ⟨0x0A00008 + 0x100 * i, 28, 28⟩
/-- LNK_STAT.REMAP [27:26]. -/
def f_LNK_STAT_REMAP (i : Nat) : Fld := ⟨0x0A00008 + 0x100 * i, 27, 26⟩
/-- LNK_STAT.GRP_OK [25:25]. -/
def f_LNK_STAT_GRP_OK (i : Nat) : Fld := ⟨0x0A00008 + 0x100 * i, 25, 25⟩
/-- LNK_STAT.PEER [23:22]. -/
def f_LNK_STAT_PEER (i : Nat) : Fld := ⟨0x0A00008 + 0x100 * i, 23, 22⟩
/-- LNK_STAT.PEER_NODE [21:0]. -/
def f_LNK_STAT_PEER_NODE (i : Nat) : Fld := ⟨0x0A00008 + 0x100 * i, 21, 0⟩
/-- LNK_GRP.QUAD0 [1:0]. The spec prints QUAD as one field [17:0] of nine codes; the model takes each quad's code as an enumerated
field of its own, so that a reserved code leaves that quad alone unchanged (DESIGN CHOICE, log entry 80). -/
def f_LNK_GRP_QUAD0 : Fld := ⟨0x0A04000, 1, 0⟩
/-- LNK_GRP.QUAD1 [3:2]. -/
def f_LNK_GRP_QUAD1 : Fld := ⟨0x0A04000, 3, 2⟩
/-- LNK_GRP.QUAD2 [5:4]. -/
def f_LNK_GRP_QUAD2 : Fld := ⟨0x0A04000, 5, 4⟩
/-- LNK_GRP.QUAD3 [7:6]. -/
def f_LNK_GRP_QUAD3 : Fld := ⟨0x0A04000, 7, 6⟩
/-- LNK_GRP.QUAD4 [9:8]. -/
def f_LNK_GRP_QUAD4 : Fld := ⟨0x0A04000, 9, 8⟩
/-- LNK_GRP.QUAD5 [11:10]. -/
def f_LNK_GRP_QUAD5 : Fld := ⟨0x0A04000, 11, 10⟩
/-- LNK_GRP.QUAD6 [13:12]. -/
def f_LNK_GRP_QUAD6 : Fld := ⟨0x0A04000, 13, 12⟩
/-- LNK_GRP.QUAD7 [15:14]. -/
def f_LNK_GRP_QUAD7 : Fld := ⟨0x0A04000, 15, 14⟩
/-- LNK_GRP.QUAD8 [17:16]. -/
def f_LNK_GRP_QUAD8 : Fld := ⟨0x0A04000, 17, 16⟩
/-- LNK_ELS_STAT.OK [17:0]. -/
def f_LNK_ELS_STAT_OK : Fld := ⟨0x0A04010, 17, 0⟩
/-- TMB_CTL.ROLE [31:30]. -/
def f_TMB_CTL_ROLE : Fld := ⟨0x0500000, 31, 30⟩
/-- TMB_CTL.SRC_LINK [29:24]. -/
def f_TMB_CTL_SRC_LINK : Fld := ⟨0x0500000, 29, 24⟩
/-- TMB_CTL.SRC_MEMBER [23:21]. -/
def f_TMB_CTL_SRC_MEMBER : Fld := ⟨0x0500000, 23, 21⟩
/-- TMB_CTL.PPS_W [15:8]. -/
def f_TMB_CTL_PPS_W : Fld := ⟨0x0500000, 15, 8⟩
/-- TMB_CTL.SYNC_TOL [7:0]. -/
def f_TMB_CTL_SYNC_TOL : Fld := ⟨0x0500000, 7, 0⟩
/-- TMB_STAT.SYNCED [31:31]. -/
def f_TMB_STAT_SYNCED : Fld := ⟨0x0500008, 31, 31⟩
/-- TMB_STAT.HOLDOVER [30:30]. -/
def f_TMB_STAT_HOLDOVER : Fld := ⟨0x0500008, 30, 30⟩
/-- TMB_STAT.OFFSET [15:0]. -/
def f_TMB_STAT_OFFSET : Fld := ⟨0x0500008, 15, 0⟩
/-- TMB_RATE.PPB [31:0]. -/
def f_TMB_RATE_PPB : Fld := ⟨0x0500020, 31, 0⟩
/-- TMB_LOFS.OFFSET [31:0]. -/
def f_TMB_LOFS_OFFSET (i : Nat) : Fld := ⟨0x0500100 + 0x8 * i, 31, 0⟩
/-- TMB_ASYM.ASYM [15:0]. -/
def f_TMB_ASYM_ASYM (i : Nat) : Fld := ⟨0x0500104 + 0x8 * i, 15, 0⟩
/-- PAR_CFG.LAT_PORT [31:16]. -/
def f_PAR_CFG_LAT_PORT : Fld := ⟨0x0B00000, 31, 16⟩
/-- PAR_CFG.GENEVE_PORT [15:0]. -/
def f_PAR_CFG_GENEVE_PORT : Fld := ⟨0x0B00000, 15, 0⟩
/-- PAR_ACT.MAL [10:1]. -/
def f_PAR_ACT_MAL : Fld := ⟨0x0B00008, 10, 1⟩
/-- PAR_ACT.NOMATCH [0:0]. -/
def f_PAR_ACT_NOMATCH : Fld := ⟨0x0B00008, 0, 0⟩
/-- PAR_RULE_CMD.BUSY [31:31]. -/
def f_PAR_RULE_CMD_BUSY : Fld := ⟨0x0B00100, 31, 31⟩
/-- PAR_RULE_CMD.RESULT [27:20]. -/
def f_PAR_RULE_CMD_RESULT : Fld := ⟨0x0B00100, 27, 20⟩
/-- PAR_RULE_CMD.CMD [19:17]. -/
def f_PAR_RULE_CMD_CMD : Fld := ⟨0x0B00100, 19, 17⟩
/-- PAR_RULE_CMD.TABLE [16:15]. -/
def f_PAR_RULE_CMD_TABLE : Fld := ⟨0x0B00100, 16, 15⟩
/-- PAR_RULE_CMD.INDEX [13:0]. -/
def f_PAR_RULE_CMD_INDEX : Fld := ⟨0x0B00100, 13, 0⟩
/-- SCH_SVC.SERVICE [31:30]. -/
def f_SCH_SVC_SERVICE (i : Nat) : Fld := ⟨0x0C90000 + 0x10 * i, 31, 30⟩
/-- SCH_SVC.FREEBOARD [23:0]. -/
def f_SCH_SVC_FREEBOARD (i : Nat) : Fld := ⟨0x0C90000 + 0x10 * i, 23, 0⟩
/-- SCH_CLS.CBS_EN [63:63]. -/
def f_SCH_CLS_CBS_EN (i j : Nat) : Fld := ⟨0x0C00000 + 0x800 * i + 0x80 * j, 63, 63⟩
/-- SCH_CLS.IDLE_SLOPE [62:41]. -/
def f_SCH_CLS_IDLE_SLOPE (i j : Nat) : Fld := ⟨0x0C00000 + 0x800 * i + 0x80 * j, 62, 41⟩
/-- SCH_CLS.TB_RATE [40:19]. -/
def f_SCH_CLS_TB_RATE (i j : Nat) : Fld := ⟨0x0C00000 + 0x800 * i + 0x80 * j, 40, 19⟩
/-- SCH_CLS.QUANTUM [15:0]. -/
def f_SCH_CLS_QUANTUM (i j : Nat) : Fld := ⟨0x0C00000 + 0x800 * i + 0x80 * j, 15, 0⟩
/-- LAT_CFG.EN [31:31]. -/
def f_LAT_CFG_EN : Fld := ⟨0x0D00000, 31, 31⟩
/-- LAT_CFG.RTO [30:24]. -/
def f_LAT_CFG_RTO : Fld := ⟨0x0D00000, 30, 24⟩
/-- LAT_CFG.NODE [23:0]. -/
def f_LAT_CFG_NODE : Fld := ⟨0x0D00000, 23, 0⟩
/-- LAT_NODETAB.BASE [51:12]. -/
def f_LAT_NODETAB_BASE : Fld := ⟨0x0D00008, 51, 12⟩
/-- LAT_NODETAB.LOG2N [4:0]. -/
def f_LAT_NODETAB_LOG2N : Fld := ⟨0x0D00008, 4, 0⟩
/-- LAT_ETHMASK.LINKS [35:0]. -/
def f_LAT_ETHMASK_LINKS : Fld := ⟨0x0D00010, 35, 0⟩
/-- LAT_CLS.ACK_CLASS [3:0]. -/
def f_LAT_CLS_ACK_CLASS : Fld := ⟨0x0D00018, 3, 0⟩
/-- LAT_USE.FILTER [50:32]. -/
def f_LAT_USE_FILTER : Fld := ⟨0x0D00040, 50, 32⟩
/-- LAT_USE.TRACKER [16:0]. -/
def f_LAT_USE_TRACKER : Fld := ⟨0x0D00040, 16, 0⟩
/-- CQS_CFG.TMO [15:0]. -/
def f_CQS_CFG_TMO : Fld := ⟨0x0E00000, 15, 0⟩
/-- CQS_PS.BUSY [31:31]. -/
def f_CQS_PS_BUSY : Fld := ⟨0x0E00008, 31, 31⟩
/-- CQS_PS.CUR [5:4]. -/
def f_CQS_PS_CUR : Fld := ⟨0x0E00008, 5, 4⟩
/-- CQS_PS.REQ [1:0]. -/
def f_CQS_PS_REQ : Fld := ⟨0x0E00008, 1, 0⟩
/-- CQS_RLOCK.PEAK [31:16]. -/
def f_CQS_RLOCK_PEAK : Fld := ⟨0x0E00010, 31, 16⟩
/-- CQS_RLOCK.INUSE [12:0]. -/
def f_CQS_RLOCK_INUSE : Fld := ⟨0x0E00010, 12, 0⟩
/-- CQS_DRV.PRESENT [63:63]. -/
def f_CQS_DRV_PRESENT (i : Nat) : Fld := ⟨0x0E00100 + 0x8 * i, 63, 63⟩
/-- CQS_DRV.READY [62:62]. -/
def f_CQS_DRV_READY (i : Nat) : Fld := ⟨0x0E00100 + 0x8 * i, 62, 62⟩
/-- CQS_DRV.WORN [61:61]. -/
def f_CQS_DRV_WORN (i : Nat) : Fld := ⟨0x0E00100 + 0x8 * i, 61, 61⟩
/-- CQS_DRV.ACTIVATING [60:60]. -/
def f_CQS_DRV_ACTIVATING (i : Nat) : Fld := ⟨0x0E00100 + 0x8 * i, 60, 60⟩
/-- CQS_DRV.FREE [47:24]. -/
def f_CQS_DRV_FREE (i : Nat) : Fld := ⟨0x0E00100 + 0x8 * i, 47, 24⟩
/-- CQS_DRV.SLABS [23:0]. -/
def f_CQS_DRV_SLABS (i : Nat) : Fld := ⟨0x0E00100 + 0x8 * i, 23, 0⟩
/-- CIP_SLOT_SEL.SLOT [12:0]. -/
def f_CIP_SLOT_SEL_SLOT : Fld := ⟨0x0F00000, 12, 0⟩
/-- CIP_SLOT_INFO.VALID [31:31]. -/
def f_CIP_SLOT_INFO_VALID : Fld := ⟨0x0F00008, 31, 31⟩
/-- CIP_SLOT_INFO.TYPE [30:28]. -/
def f_CIP_SLOT_INFO_TYPE : Fld := ⟨0x0F00008, 30, 28⟩
/-- CIP_SLOT_INFO.OWNER [25:16]. -/
def f_CIP_SLOT_INFO_OWNER : Fld := ⟨0x0F00008, 25, 16⟩
/-- CIP_SLOT_INFO.GEN [15:0]. -/
def f_CIP_SLOT_INFO_GEN : Fld := ⟨0x0F00008, 15, 0⟩
/-- CIP_HOLD.PEAK [24:16]. -/
def f_CIP_HOLD_PEAK : Fld := ⟨0x0F00010, 24, 16⟩
/-- CIP_HOLD.INUSE [8:0]. -/
def f_CIP_HOLD_INUSE : Fld := ⟨0x0F00010, 8, 0⟩
/-- SIP_CFG.EN [31:31]. -/
def f_SIP_CFG_EN : Fld := ⟨0x1000000, 31, 31⟩
/-- SIP_CFG.CLASS [19:16]. -/
def f_SIP_CFG_CLASS : Fld := ⟨0x1000000, 19, 16⟩
/-- SIP_CFG.TMO [15:0]. -/
def f_SIP_CFG_TMO : Fld := ⟨0x1000000, 15, 0⟩
/-- SIP_TGTTAB.BASE [51:12]. -/
def f_SIP_TGTTAB_BASE : Fld := ⟨0x1000010, 51, 12⟩
/-- SIP_TGTTAB.COUNT [4:0]. -/
def f_SIP_TGTTAB_COUNT : Fld := ⟨0x1000010, 4, 0⟩
/-- SIP_TSTAT.PHASE [31:29]. -/
def f_SIP_TSTAT_PHASE : Fld := ⟨0x1000018, 31, 29⟩
/-- SIP_TSTAT.GO [28:28]. -/
def f_SIP_TSTAT_GO : Fld := ⟨0x1000018, 28, 28⟩
/-- SIP_TSTAT.TURNOUT [8:0]. -/
def f_SIP_TSTAT_TURNOUT : Fld := ⟨0x1000018, 8, 0⟩
/-- TRN_STATE.STATE [31:29]. -/
def f_TRN_STATE_STATE (i : Nat) : Fld := ⟨0x0709000 + 0x4 * i, 31, 29⟩
/-- TRN_STATE.REXCL [28:28]. -/
def f_TRN_STATE_REXCL (i : Nat) : Fld := ⟨0x0709000 + 0x4 * i, 28, 28⟩
/-- TRN_STATE.NCELLS [24:16]. -/
def f_TRN_STATE_NCELLS (i : Nat) : Fld := ⟨0x0709000 + 0x4 * i, 24, 16⟩
/-- TRN_STATE.MBV [15:15]. -/
def f_TRN_STATE_MBV (i : Nat) : Fld := ⟨0x0709000 + 0x4 * i, 15, 15⟩
/-- TRN_STATE.MBOX [13:8]. -/
def f_TRN_STATE_MBOX (i : Nat) : Fld := ⟨0x0709000 + 0x4 * i, 13, 8⟩
/-- TRN_CFG.CHAN [31:31]. -/
def f_TRN_CFG_CHAN : Fld := ⟨0x070A000, 31, 31⟩
/-- TRN_CFG.VEC [10:0]. -/
def f_TRN_CFG_VEC : Fld := ⟨0x070A000, 10, 0⟩
/-- TRN_CMD_ADDR.ADDR [51:6]. -/
def f_TRN_CMD_ADDR_ADDR : Fld := ⟨0x070A008, 51, 6⟩
/-- TRN_CMD_CTL.GO [31:31]. -/
def f_TRN_CMD_CTL_GO : Fld := ⟨0x070A010, 31, 31⟩
/-- TRN_CMD_CTL.RESULT [15:8]. -/
def f_TRN_CMD_CTL_RESULT : Fld := ⟨0x070A010, 15, 8⟩
/-- TRN_CMD_CTL.OP [2:0]. -/
def f_TRN_CMD_CTL_OP : Fld := ⟨0x070A010, 2, 0⟩
/-- TRN_CHAN.UP_CI [63:48]. -/
def f_TRN_CHAN_UP_CI (i : Nat) : Fld := ⟨0x070C000 + 0x10 * i, 63, 48⟩
/-- TRN_CHAN.UP_PI [47:32]. -/
def f_TRN_CHAN_UP_PI (i : Nat) : Fld := ⟨0x070C000 + 0x10 * i, 47, 32⟩
/-- TRN_CHAN.DN_PI [31:16]. -/
def f_TRN_CHAN_DN_PI (i : Nat) : Fld := ⟨0x070C000 + 0x10 * i, 31, 16⟩
/-- TRN_CHAN.DN_CI [15:0]. -/
def f_TRN_CHAN_DN_CI (i : Nat) : Fld := ⟨0x070C000 + 0x10 * i, 15, 0⟩
/-- GEN_FWIF.MAJOR [31:16]. -/
def f_GEN_FWIF_MAJOR : Fld := ⟨0x0000020, 31, 16⟩
/-- GEN_FWIF.MINOR [15:0]. -/
def f_GEN_FWIF_MINOR : Fld := ⟨0x0000020, 15, 0⟩
/-- GEN_FW_ADDR.ADDR [63:0]. -/
def f_GEN_FW_ADDR_ADDR : Fld := ⟨0x0000028, 63, 0⟩
/-- GEN_FW_LEN.LEN [23:0]. -/
def f_GEN_FW_LEN_LEN : Fld := ⟨0x0000030, 23, 0⟩
/-- GEN_FW_CTL.GO [31:31]. -/
def f_GEN_FW_CTL_GO : Fld := ⟨0x0000034, 31, 31⟩
/-- GEN_FW_CTL.RESULT [11:8]. -/
def f_GEN_FW_CTL_RESULT : Fld := ⟨0x0000034, 11, 8⟩
/-- GEN_FW_CTL.OP [1:0]. -/
def f_GEN_FW_CTL_OP : Fld := ⟨0x0000034, 1, 0⟩
/-- RST_REACH.LEVEL [63:0]. -/
def f_RST_REACH_LEVEL : Fld := ⟨0x0100000, 63, 0⟩
/-- RST_CAUSE.SEEN [31:16]. -/
def f_RST_CAUSE_SEEN : Fld := ⟨0x0100008, 31, 16⟩
/-- RST_CAUSE.LAST [11:8]. -/
def f_RST_CAUSE_LAST : Fld := ⟨0x0100008, 11, 8⟩
/-- RST_CAUSE.LEVEL [2:0]. -/
def f_RST_CAUSE_LEVEL : Fld := ⟨0x0100008, 2, 0⟩
/-- RST_SW.KEY [7:0]. -/
def f_RST_SW_KEY : Fld := ⟨0x0100010, 7, 0⟩
/-- CFG_STAT.IMG [3:2]. -/
def f_CFG_STAT_IMG : Fld := ⟨0x0200000, 3, 2⟩
/-- CFG_STAT.OPT [1:0]. -/
def f_CFG_STAT_OPT : Fld := ⟨0x0200000, 1, 0⟩
/-- BST_STAT.RESULT [31:30]. -/
def f_BST_STAT_RESULT : Fld := ⟨0x1300000, 31, 30⟩
/-- BST_STAT.OVERFLOW [29:29]. -/
def f_BST_STAT_OVERFLOW : Fld := ⟨0x1300000, 29, 29⟩
/-- BST_STAT.ENTRIES [12:0]. -/
def f_BST_STAT_ENTRIES : Fld := ⟨0x1300000, 12, 0⟩
/-- FLT_CFG.WIN [31:20]. -/
def f_FLT_CFG_WIN : Fld := ⟨0x0400000, 31, 20⟩
/-- FLT_CFG.THR [19:12]. -/
def f_FLT_CFG_THR : Fld := ⟨0x0400000, 19, 12⟩
/-- FLT_CFG.VEC [10:0]. -/
def f_FLT_CFG_VEC : Fld := ⟨0x0400000, 10, 0⟩
/-- FLT_PIN.RECOVERY [2:2]. -/
def f_FLT_PIN_RECOVERY : Fld := ⟨0x0400008, 2, 2⟩
/-- FLT_PIN.FATAL [1:1]. -/
def f_FLT_PIN_FATAL : Fld := ⟨0x0400008, 1, 1⟩
/-- FLT_PIN.ERR [0:0]. -/
def f_FLT_PIN_ERR : Fld := ⟨0x0400008, 0, 0⟩
/-- FLT_HIST_HEAD.HEAD [31:0]. -/
def f_FLT_HIST_HEAD_HEAD : Fld := ⟨0x0400010, 31, 0⟩
/-- FLT_REACT.LAST [20:16]. -/
def f_FLT_REACT_LAST (i : Nat) : Fld := ⟨0x0402000 + 0x4 * i, 20, 16⟩
/-- FLT_REACT.UE [12:8]. -/
def f_FLT_REACT_UE (i : Nat) : Fld := ⟨0x0402000 + 0x4 * i, 12, 8⟩
/-- FLT_REACT.CE [4:0]. -/
def f_FLT_REACT_CE (i : Nat) : Fld := ⟨0x0402000 + 0x4 * i, 4, 0⟩
/-- FLT_STAT.ACTIVE [63:63]. -/
def f_FLT_STAT_ACTIVE (i : Nat) : Fld := ⟨0x0404000 + 0x8 * i, 63, 63⟩
/-- FLT_STAT.LASTING [62:62]. -/
def f_FLT_STAT_LASTING (i : Nat) : Fld := ⟨0x0404000 + 0x8 * i, 62, 62⟩
/-- FLT_STAT.PRESENT [61:61]. -/
def f_FLT_STAT_PRESENT (i : Nat) : Fld := ⟨0x0404000 + 0x8 * i, 61, 61⟩
/-- FLT_STAT.PINNED [60:60]. -/
def f_FLT_STAT_PINNED (i : Nat) : Fld := ⟨0x0404000 + 0x8 * i, 60, 60⟩
/-- FLT_STAT.UE_COUNT [47:32]. -/
def f_FLT_STAT_UE_COUNT (i : Nat) : Fld := ⟨0x0404000 + 0x8 * i, 47, 32⟩
/-- FLT_STAT.CE_COUNT [31:16]. -/
def f_FLT_STAT_CE_COUNT (i : Nat) : Fld := ⟨0x0404000 + 0x8 * i, 31, 16⟩
/-- FLT_STAT.WIN_COUNT [15:8]. -/
def f_FLT_STAT_WIN_COUNT (i : Nat) : Fld := ⟨0x0404000 + 0x8 * i, 15, 8⟩
/-- FLT_STAT.INFO_COUNT [7:0]. -/
def f_FLT_STAT_INFO_COUNT (i : Nat) : Fld := ⟨0x0404000 + 0x8 * i, 7, 0⟩
/-- FLT_INJ.GO [63:63]. -/
def f_FLT_INJ_GO : Fld := ⟨0x0400100, 63, 63⟩
/-- FLT_INJ.AVAIL [62:62]. -/
def f_FLT_INJ_AVAIL : Fld := ⟨0x0400100, 62, 62⟩
/-- FLT_INJ.CLASS [57:56]. -/
def f_FLT_INJ_CLASS : Fld := ⟨0x0400100, 57, 56⟩
/-- FLT_INJ.SOURCE [55:47]. -/
def f_FLT_INJ_SOURCE : Fld := ⟨0x0400100, 55, 47⟩
/-- FLT_INJ.CODE [31:24]. -/
def f_FLT_INJ_CODE : Fld := ⟨0x0400100, 31, 24⟩
/-- FLT_INJ.DETAIL [23:0]. -/
def f_FLT_INJ_DETAIL : Fld := ⟨0x0400100, 23, 0⟩
/-- TEL_SNAP_CTL.LATE [2:2]. -/
def f_TEL_SNAP_CTL_LATE : Fld := ⟨0x0600008, 2, 2⟩
/-- TEL_SNAP_CTL.DONE [1:1]. -/
def f_TEL_SNAP_CTL_DONE : Fld := ⟨0x0600008, 1, 1⟩
/-- TEL_SNAP_CTL.ARM [0:0]. -/
def f_TEL_SNAP_CTL_ARM : Fld := ⟨0x0600008, 0, 0⟩
/-- DBG_CTL.REQ [31:31]. -/
def f_DBG_CTL_REQ : Fld := ⟨0x1400000, 31, 31⟩
/-- DBG_CTL.VERIFY [30:30]. -/
def f_DBG_CTL_VERIFY : Fld := ⟨0x1400000, 30, 30⟩
/-- DBG_CTL.LOCK [29:29]. -/
def f_DBG_CTL_LOCK : Fld := ⟨0x1400000, 29, 29⟩
/-- DBG_CTL.STATE [25:24]. -/
def f_DBG_CTL_STATE : Fld := ⟨0x1400000, 25, 24⟩
/-- DBG_CTL.RESULT [23:20]. -/
def f_DBG_CTL_RESULT : Fld := ⟨0x1400000, 23, 20⟩
/-- DBG_CTL.REMAIN [16:0]. -/
def f_DBG_CTL_REMAIN : Fld := ⟨0x1400000, 16, 0⟩
/-- PWR_CAP.RAISE [23:16]. -/
def f_PWR_CAP_RAISE : Fld := ⟨0x0300000, 23, 16⟩
/-- PWR_CAP.WATTS [15:0]. -/
def f_PWR_CAP_WATTS : Fld := ⟨0x0300000, 15, 0⟩
/-- PWR_STAT.POWER [31:16]. -/
def f_PWR_STAT_POWER : Fld := ⟨0x0300008, 31, 16⟩
/-- PWR_STAT.CAPPED [7:7]. -/
def f_PWR_STAT_CAPPED : Fld := ⟨0x0300008, 7, 7⟩
/-- PWR_STAT.HOT [6:6]. -/
def f_PWR_STAT_HOT : Fld := ⟨0x0300008, 6, 6⟩
/-- PWR_STAT.PROCHOT [5:5]. -/
def f_PWR_STAT_PROCHOT : Fld := ⟨0x0300008, 5, 5⟩
/-- PWR_STAT.STEP [4:0]. -/
def f_PWR_STAT_STEP : Fld := ⟨0x0300008, 4, 0⟩
/-- PWR_DROOP.THRESH [3:0]. -/
def f_PWR_DROOP_THRESH : Fld := ⟨0x0300010, 3, 0⟩
/-- PWR_THERM.HOTTEST [15:8]. -/
def f_PWR_THERM_HOTTEST : Fld := ⟨0x0300018, 15, 8⟩
/-- PWR_THERM.THROTTLE [7:0]. -/
def f_PWR_THERM_THROTTLE : Fld := ⟨0x0300018, 7, 0⟩
/-- PWR_AUXLOG.VALID [31:31]. -/
def f_PWR_AUXLOG_VALID : Fld := ⟨0x0300020, 31, 31⟩
/-- PWR_AUXLOG.KIND [30:29]. -/
def f_PWR_AUXLOG_KIND : Fld := ⟨0x0300020, 30, 29⟩
/-- PWR_AUXLOG.INDEX [15:8]. -/
def f_PWR_AUXLOG_INDEX : Fld := ⟨0x0300020, 15, 8⟩
/-- TRN_WALK_ERR.V [31:0]. -/
def f_TRN_WALK_ERR_V : Fld := ⟨0x0708018, 31, 0⟩
/-- TRN_PRQ_STALE.V [31:0]. -/
def f_TRN_PRQ_STALE_V : Fld := ⟨0x0708020, 31, 0⟩
/-- LNK_PEERHI.V [1:0]. -/
def f_LNK_PEERHI_V (i : Nat) : Fld := ⟨0x0A0000C + 0x100 * i, 1, 0⟩
/-- LNK_REPLAY.V [31:0]. -/
def f_LNK_REPLAY_V (i : Nat) : Fld := ⟨0x0A00010 + 0x100 * i, 31, 0⟩
/-- LNK_DUP.V [31:0]. -/
def f_LNK_DUP_V (i : Nat) : Fld := ⟨0x0A00014 + 0x100 * i, 31, 0⟩
/-- LNK_CRC.V [31:0]. -/
def f_LNK_CRC_V (i : Nat) : Fld := ⟨0x0A00018 + 0x100 * i, 31, 0⟩
/-- LNK_DRIFT.V [31:0]. -/
def f_LNK_DRIFT_V (i : Nat) : Fld := ⟨0x0A0001C + 0x100 * i, 31, 0⟩
/-- LNK_TRAINFAIL.V [31:0]. -/
def f_LNK_TRAINFAIL_V (i : Nat) : Fld := ⟨0x0A00020 + 0x100 * i, 31, 0⟩
/-- TMB_TIME_LO.V [31:0]. -/
def f_TMB_TIME_LO_V : Fld := ⟨0x0500010, 31, 0⟩
/-- TMB_TIME_HI.V [31:0]. -/
def f_TMB_TIME_HI_V : Fld := ⟨0x0500014, 31, 0⟩
/-- TMB_TIME_FRAC.V [31:0]. -/
def f_TMB_TIME_FRAC_V : Fld := ⟨0x0500018, 31, 0⟩
/-- TMB_SET.V [63:0]. -/
def f_TMB_SET_V : Fld := ⟨0x0500028, 63, 0⟩
/-- TMB_TOD_NEXT.V [63:0]. -/
def f_TMB_TOD_NEXT_V : Fld := ⟨0x0500030, 63, 0⟩
/-- PAR_NOMATCH.V [31:0]. -/
def f_PAR_NOMATCH_V : Fld := ⟨0x0B00400, 31, 0⟩
/-- PAR_MAL.V [31:0]. -/
def f_PAR_MAL_V (i : Nat) : Fld := ⟨0x0B00400 + 0x4 * i, 31, 0⟩
/-- PAR_RXDROP.V [31:0]. -/
def f_PAR_RXDROP_V (i : Nat) : Fld := ⟨0x0B00800 + 0x4 * i, 31, 0⟩
/-- PAR_NOBUF.V [31:0]. -/
def f_PAR_NOBUF_V : Fld := ⟨0x0B00440, 31, 0⟩
/-- PAR_STG.V [63:0]. -/
def f_PAR_STG_V (i : Nat) : Fld := ⟨0x0B00200 + 0x8 * i, 63, 0⟩
/-- PAR_EXC_FURROW.EN [31:31]. -/
def f_PAR_EXC_FURROW_EN : Fld := ⟨0x0B00010, 31, 31⟩
/-- PAR_EXC_FURROW.FURROW [17:0]. -/
def f_PAR_EXC_FURROW_FURROW : Fld := ⟨0x0B00010, 17, 0⟩
/-- SCH_TXMASK.V [35:0]. -/
def f_SCH_TXMASK_V (i : Nat) : Fld := ⟨0x0C98000 + 0x8 * i, 35, 0⟩
/-- SCH_HSEL.CLEAR [31:31]. -/
def f_SCH_HSEL_CLEAR : Fld := ⟨0x0C94000, 31, 31⟩
/-- SCH_HSEL.SHADOW [30:30]. -/
def f_SCH_HSEL_SHADOW : Fld := ⟨0x0C94000, 30, 30⟩
/-- SCH_HSEL.QUEUE [12:0]. -/
def f_SCH_HSEL_QUEUE : Fld := ⟨0x0C94000, 12, 0⟩
/-- SCH_GCL_SEL.PORT [17:9]. -/
def f_SCH_GCL_SEL_PORT : Fld := ⟨0x0C96000, 17, 9⟩
/-- SCH_GCL_SEL.LIST [8:8]. -/
def f_SCH_GCL_SEL_LIST : Fld := ⟨0x0C96000, 8, 8⟩
/-- SCH_GCL_SEL.ENTRY [7:0]. -/
def f_SCH_GCL_SEL_ENTRY : Fld := ⟨0x0C96000, 7, 0⟩
/-- SCH_GCL_DATA.V [63:0]. -/
def f_SCH_GCL_DATA_V : Fld := ⟨0x0C96008, 63, 0⟩
/-- SCH_GCL_BASE.V [63:0]. -/
def f_SCH_GCL_BASE_V (i : Nat) : Fld := ⟨0x0CA0000 + 0x20 * i, 63, 0⟩
/-- SCH_GCL_CYCLE.V [31:0]. -/
def f_SCH_GCL_CYCLE_V (i : Nat) : Fld := ⟨0x0CA0008 + 0x20 * i, 31, 0⟩
/-- SCH_GCL_LEN.V [31:0]. -/
def f_SCH_GCL_LEN_V (i : Nat) : Fld := ⟨0x0CA000C + 0x20 * i, 31, 0⟩
/-- SCH_GCL_CHANGE_AT.V [63:0]. -/
def f_SCH_GCL_CHANGE_AT_V (i : Nat) : Fld := ⟨0x0CA0010 + 0x20 * i, 63, 0⟩
/-- SCH_SYNC_U.V [15:0]. -/
def f_SCH_SYNC_U_V (i : Nat) : Fld := ⟨0x0C90004 + 0x10 * i, 15, 0⟩
/-- SCH_SAMPLE.V [15:0]. -/
def f_SCH_SAMPLE_V (i : Nat) : Fld := ⟨0x0C90008 + 0x10 * i, 15, 0⟩
/-- SCH_BURSTp_c.V [23:0]. -/
def f_SCH_BURSTp_c_V (i j : Nat) : Fld := ⟨0x0C00008 + 0x800 * i + 0x80 * j, 23, 0⟩
/-- SCH_HWIN.V [31:0]. -/
def f_SCH_HWIN_V (i : Nat) : Fld := ⟨0x0C94100 + 0x4 * i, 31, 0⟩
/-- LAT_SRCIP.V [63:0]. -/
def f_LAT_SRCIP_V (i : Nat) : Fld := ⟨0x0D00020 + 0x8 * i, 63, 0⟩
/-- LAT_RETX.V [31:0]. -/
def f_LAT_RETX_V : Fld := ⟨0x0D00100, 31, 0⟩
/-- LAT_DUP.V [31:0]. -/
def f_LAT_DUP_V : Fld := ⟨0x0D00104, 31, 0⟩
/-- LAT_AGED.V [31:0]. -/
def f_LAT_AGED_V : Fld := ⟨0x0D00108, 31, 0⟩
/-- LAT_BUSY.V [31:0]. -/
def f_LAT_BUSY_V : Fld := ⟨0x0D0010C, 31, 0⟩
/-- LAT_PAGEWAIT.V [31:0]. -/
def f_LAT_PAGEWAIT_V : Fld := ⟨0x0D00110, 31, 0⟩
/-- LAT_DENIED.V [31:0]. -/
def f_LAT_DENIED_V : Fld := ⟨0x0D00114, 31, 0⟩
/-- LAT_UNCERTAIN.V [31:0]. -/
def f_LAT_UNCERTAIN_V : Fld := ⟨0x0D00118, 31, 0⟩
/-- LAT_HDR_BAD.V [31:0]. -/
def f_LAT_HDR_BAD_V : Fld := ⟨0x0D0011C, 31, 0⟩
/-- CQS_CNT_TMO.V [31:0]. -/
def f_CQS_CNT_TMO_V : Fld := ⟨0x0E00200, 31, 0⟩
/-- CQS_CNT_MEDIA.V [31:0]. -/
def f_CQS_CNT_MEDIA_V : Fld := ⟨0x0E00204, 31, 0⟩
/-- CQS_CNT_NOSPACE.V [31:0]. -/
def f_CQS_CNT_NOSPACE_V : Fld := ⟨0x0E00208, 31, 0⟩
/-- CQS_CNT_LOST.V [31:0]. -/
def f_CQS_CNT_LOST_V : Fld := ⟨0x0E0020C, 31, 0⟩
/-- CQS_CNT_RLWAIT.V [31:0]. -/
def f_CQS_CNT_RLWAIT_V : Fld := ⟨0x0E00210, 31, 0⟩
/-- CIP_AUTHFAIL.V [31:0]. -/
def f_CIP_AUTHFAIL_V : Fld := ⟨0x0F00100, 31, 0⟩
/-- CIP_REQ.V [31:0]. -/
def f_CIP_REQ_V : Fld := ⟨0x0F00104, 31, 0⟩
/-- CIP_FAULT.V [31:0]. -/
def f_CIP_FAULT_V : Fld := ⟨0x0F00108, 31, 0⟩
/-- SIP_SRCIP4.V [31:0]. -/
def f_SIP_SRCIP4_V : Fld := ⟨0x1000048, 31, 0⟩
/-- SIP_LINKS.V [35:0]. -/
def f_SIP_LINKS_V : Fld := ⟨0x1000008, 35, 0⟩
/-- SIP_TGTSTAT.CONN [31:31]. -/
def f_SIP_TGTSTAT_CONN (i : Nat) : Fld := ⟨0x1000200 + 0x4 * i, 31, 31⟩
/-- SIP_TGTSTAT.ERR [30:30]. -/
def f_SIP_TGTSTAT_ERR (i : Nat) : Fld := ⟨0x1000200 + 0x4 * i, 30, 30⟩
/-- SIP_TGTSTAT.QUEUES [3:0]. -/
def f_SIP_TGTSTAT_QUEUES (i : Nat) : Fld := ⟨0x1000200 + 0x4 * i, 3, 0⟩
/-- SIP_TOKEN.V [63:0]. -/
def f_SIP_TOKEN_V (i : Nat) : Fld := ⟨0x1000020 + 0x8 * i, 63, 0⟩
/-- SIP_TOKEN_TRN.V [9:0]. -/
def f_SIP_TOKEN_TRN_V : Fld := ⟨0x1000040, 9, 0⟩
/-- SIP_CNT_SAVED.V [31:0]. -/
def f_SIP_CNT_SAVED_V : Fld := ⟨0x1000100, 31, 0⟩
/-- SIP_CNT_LOADED.V [31:0]. -/
def f_SIP_CNT_LOADED_V : Fld := ⟨0x1000104, 31, 0⟩
/-- SIP_CNT_AUTHFAIL.V [31:0]. -/
def f_SIP_CNT_AUTHFAIL_V : Fld := ⟨0x1000108, 31, 0⟩
/-- SIP_CNT_TMO.V [31:0]. -/
def f_SIP_CNT_TMO_V : Fld := ⟨0x100010C, 31, 0⟩
/-- TRN_FLR_PEND.V [31:0]. -/
def f_TRN_FLR_PEND_V (i : Nat) : Fld := ⟨0x070A100 + 0x4 * i, 31, 0⟩
/-- TRN_CHAN_PEND.V [31:0]. -/
def f_TRN_CHAN_PEND_V (i : Nat) : Fld := ⟨0x070A200 + 0x4 * i, 31, 0⟩
/-- BST_CELL.V [31:0]. -/
def f_BST_CELL_V (i : Nat) : Fld := ⟨0x1300010 + 0x4 * i, 31, 0⟩
/-- BST_REGION.V [15:0]. -/
def f_BST_REGION_V : Fld := ⟨0x1300030, 15, 0⟩
/-- BST_LOG.V [31:0]. -/
def f_BST_LOG_V (i : Nat) : Fld := ⟨0x1308000 + 0x4 * i, 31, 0⟩
/-- FLT_HIST.V [31:0]. -/
def f_FLT_HIST_V (i : Nat) : Fld := ⟨0x0400800 + 0x4 * i, 31, 0⟩
/-- FLT_HIST_DROP.V [31:0]. -/
def f_FLT_HIST_DROP_V : Fld := ⟨0x0400018, 31, 0⟩
/-- FLT_SUM.V [31:0]. -/
def f_FLT_SUM_V (i : Nat) : Fld := ⟨0x0400020 + 0x4 * i, 31, 0⟩
/-- TEL_CAT.V [31:0]. -/
def f_TEL_CAT_V (i : Nat) : Fld := ⟨0x0610000 + 0x4 * i, 31, 0⟩
/-- TEL_SHD.V [63:0]. -/
def f_TEL_SHD_V (i : Nat) : Fld := ⟨0x0680000 + 0x8 * i, 63, 0⟩
/-- TEL_SNAP_AT.V [63:0]. -/
def f_TEL_SNAP_AT_V : Fld := ⟨0x0600000, 63, 0⟩
/-- TEL_DR_PERIOD.V [15:0]. -/
def f_TEL_DR_PERIOD_V : Fld := ⟨0x0600010, 15, 0⟩
/-- DBG_SCOPE.V [31:0]. -/
def f_DBG_SCOPE_V (i : Nat) : Fld := ⟨0x1400100 + 0x4 * i, 31, 0⟩
/-- DBG_CHAL.V [31:0]. -/
def f_DBG_CHAL_V (i : Nat) : Fld := ⟨0x1400200 + 0x4 * i, 31, 0⟩
/-- DBG_RESP.V [31:0]. -/
def f_DBG_RESP_V (i : Nat) : Fld := ⟨0x1401000 + 0x4 * i, 31, 0⟩

/-! ### The register table -/
/-- Rows of the register tables, part 0. -/
def regRows0 : List RegRow :=
  [⟨"GEN_STATE", 0x0000010, [], 4,
    [⟨2, 0, .ro, 0x1, .chip, none⟩]⟩] ++
  [⟨"GEN_ERR", 0x0000018, [], 4,
    [⟨0, 0, .w1c, 0, .chip, none⟩]⟩] ++
  [⟨"RGN_UNIT_RST", 0x2000000, [(0x100000, 16)], 4,
    [⟨31, 31, .ro, 0, .region, none⟩,
     ⟨9, 8, .wo, 0, .chip, some (0, 2)⟩,
     ⟨3, 2, .wo, 0, .chip, none⟩,
     ⟨1, 0, .wo, 0, .chip, none⟩]⟩] ++
  [⟨"RGN_RSV_WEIGHT", 0x2000010, [(0x100000, 16)], 4,
    [⟨19, 16, .rw, 0x4, .chip, none⟩,
     ⟨15, 12, .rw, 0x3, .chip, none⟩,
     ⟨11, 8, .rw, 0x3, .chip, none⟩,
     ⟨7, 4, .rw, 0x3, .chip, none⟩,
     ⟨3, 0, .rw, 0x3, .chip, none⟩]⟩] ++
  [⟨"RGN_RSV_ERR", 0x2000018, [(0x100000, 16)], 4,
    [⟨31, 16, .rw, 0, .chip, none⟩,
     ⟨15, 8, .rw, 0, .chip, none⟩]⟩] ++
  [⟨"RGN_RSV_ERR_ADDR", 0x2000020, [(0x100000, 16)], 4,
    [⟨31, 31, .w1c, 0, .chip, none⟩,
     ⟨27, 6, .ro, 0, .chip, none⟩]⟩] ++
  [⟨"RGN_CLK_STAT", 0x2000030, [(0x100000, 16)], 4,
    [⟨31, 16, .rw, 0, .chip, none⟩,
     ⟨1, 1, .ro, 0, .region, none⟩,
     ⟨0, 0, .ro, 0, .chip, none⟩]⟩] ++
  [⟨"RGN_GRAN_RETIRED", 0x2000040, [(0x100000, 16), (0x4, 8)], 4,
    [⟨31, 0, .ro, 0, .full, none⟩]⟩] ++
  [⟨"MIM_INFLIGHT", 0x1100000, [], 4,
    [⟨16, 0, .ro, 0, .chip, none⟩]⟩] ++
  [⟨"MIM_PEAK", 0x1100008, [], 4,
    [⟨16, 0, .rw, 0, .chip, none⟩]⟩] ++
  [⟨"MIM_SLOT_WAIT", 0x1100010, [], 4,
    [⟨31, 0, .rw, 0, .chip, none⟩]⟩] ++
  [⟨"MIM_TWIN_MISMATCH", 0x1100018, [], 4,
    [⟨15, 0, .rw, 0, .chip, none⟩]⟩]
/-- Rows of the register tables, part 1. -/
def regRows1 : List RegRow :=
  [⟨"MIM_CPL_DROP", 0x1100020, [], 4,
    [⟨15, 0, .rw, 0, .chip, none⟩]⟩] ++
  [⟨"SLU_BARn_CFG", 0x1200100, [(0x20, 16)], 4,
    [⟨31, 31, .rw, 0, .chip, none⟩,
     ⟨30, 30, .rw, 0, .chip, none⟩,
     ⟨29, 24, .rw, 0, .chip, some (0, 35)⟩,
     ⟨17, 9, .rw, 0, .chip, none⟩,
     ⟨8, 0, .rw, 0, .chip, some (0, 256)⟩]⟩] ++
  [⟨"SLU_BARn_LINKS", 0x1200108, [(0x20, 16)], 8,
    [⟨63, 48, .rw, 0, .chip, none⟩,
     ⟨35, 0, .rw, 0, .chip, none⟩]⟩] ++
  [⟨"SLU_BARn_STAT", 0x1200118, [(0x20, 16)], 4,
    [⟨31, 31, .ro, 0, .chip, none⟩,
     ⟨30, 24, .rw, 0, .chip, none⟩,
     ⟨23, 16, .ro, 0, .chip, none⟩,
     ⟨8, 0, .ro, 0, .chip, none⟩]⟩] ++
  [⟨"SLU_UNPARK", 0x1200000, [], 4,
    [⟨7, 0, .wo, 0, .chip, none⟩]⟩] ++
  [⟨"SLU_DUMP_CTL", 0x1200040, [], 4,
    [⟨2, 2, .ro, 0, .chip, none⟩,
     ⟨1, 1, .w1c, 0, .chip, none⟩,
     ⟨0, 0, .w1s, 0, .chip, none⟩]⟩] ++
  [⟨"SLU_DUMP_ADDR", 0x1200048, [], 8,
    [⟨51, 0, .rw, 0, .chip, none⟩]⟩] ++
  [⟨"SLU_DUMP_AT", 0x1200050, [], 8,
    [⟨63, 0, .rw, 0, .chip, none⟩]⟩] ++
  [⟨"TRN_EXTe", 0x0702000, [(0x4, 1024)], 4,
    [⟨31, 31, .ro, 0, .chip, none⟩,
     ⟨9, 0, .rw, 0x200, .chip, none⟩]⟩] ++
  [⟨"TRN_GRANg", 0x0704000, [(0x4, 4096)], 4,
    [⟨31, 31, .ro, 0, .chip, none⟩,
     ⟨9, 0, .rw, 0x200, .chip, none⟩]⟩] ++
  [⟨"TRN_ROOTt", 0x0700000, [(0x10, 512)], 8,
    [⟨63, 63, .rw, 0, .chip, none⟩,
     ⟨51, 12, .rw, 0, .chip, none⟩]⟩] ++
  [⟨"TRN_PARAMt", 0x0700008, [(0x10, 512)], 8,
    [⟨63, 48, .rw, 0, .chip, none⟩,
     ⟨41, 32, .rw, 0, .chip, none⟩]⟩]
/-- Rows of the register tables, part 2. -/
def regRows2 : List RegRow :=
  [⟨"TRN_INV_ADDR", 0x0708000, [], 8,
    [⟨47, 12, .rw, 0, .chip, none⟩]⟩] ++
  [⟨"TRN_INV_CTL", 0x0708008, [], 4,
    [⟨31, 31, .w1s, 0, .chip, none⟩,
     ⟨19, 16, .rw, 0, .chip, some (0, 3)⟩,
     ⟨8, 0, .rw, 0, .chip, none⟩]⟩] ++
  [⟨"RGN_WINc_s", 0x2001000, [(0x100000, 16), (0x40, 16), (0x8, 8)], 8,
    [⟨63, 63, .rw, 0, .cell, none⟩,
     ⟨62, 62, .rw, 0, .cell, none⟩,
     ⟨51, 28, .rw, 0, .cell, none⟩]⟩] ++
  [⟨"DSP_FSEL", 0x0900000, [], 4,
    [⟨17, 0, .rw, 0, .chip, none⟩]⟩] ++
  [⟨"DSP_FCMD", 0x0900004, [], 4,
    [⟨31, 31, .ro, 0, .chip, none⟩,
     ⟨15, 8, .ro, 0, .chip, none⟩,
     ⟨2, 0, .wo, 0, .chip, some (1, 5)⟩]⟩] ++
  [⟨"DSP_FSTAT", 0x0900008, [], 4,
    [⟨31, 30, .ro, 0, .chip, none⟩,
     ⟨29, 29, .w1c, 0, .chip, none⟩]⟩] ++
  [⟨"DSP_DB_BAD", 0x0900010, [], 4,
    [⟨31, 0, .rw, 0, .chip, none⟩]⟩] ++
  [⟨"DSP_FCTX", 0x0900020, [(0x8, 4)], 8,
    [⟨63, 0, .rw, 0, .chip, none⟩]⟩] ++
  [⟨"TRN_PRQ_FURROW", 0x0708010, [], 4,
    [⟨31, 31, .rw, 0, .chip, none⟩,
     ⟨17, 0, .rw, 0, .chip, none⟩]⟩] ++
  [⟨"HEP_TOPO", 0x0800000, [], 4,
    [⟨30, 30, .ro, 0, .chip, none⟩,
     ⟨23, 16, .ro, 0, .chip, none⟩,
     ⟨15, 0, .ro, imgAssign, .chip, none⟩]⟩] ++
  [⟨"HEP_BAR4_OFF", 0x0800008, [], 8,
    [⟨37, 30, .rw, 0, .chip, none⟩]⟩] ++
  [⟨"HEP_FLR_DROP", 0x0800020, [], 4,
    [⟨31, 0, .rw, 0, .chip, none⟩]⟩]
/-- Rows of the register tables, part 3. -/
def regRows3 : List RegRow :=
  [⟨"HEP_SLC_STAT", 0x0800030, [], 4,
    [⟨31, 31, .ro, 0, .chip, none⟩,
     ⟨15, 0, .rw, 0, .chip, none⟩]⟩] ++
  [⟨"HEP_WAKE", 0x0800040, [], 4,
    [⟨31, 31, .w1c, 0, .full, none⟩,
     ⟨30, 30, .ro, 0, .full, none⟩,
     ⟨8, 8, .ro, 0, .full, none⟩,
     ⟨7, 4, .ro, 0, .full, none⟩,
     ⟨3, 0, .ro, 0, .full, none⟩]⟩] ++
  [⟨"HEP_WIN_HIp", 0x0800100, [(0x8, 34)], 8,
    [⟨63, 45, .rw, 0, .chip, none⟩]⟩] ++
  [⟨"LNK_CTLn", 0x0A00000, [(0x100, 36)], 4,
    [⟨31, 31, .w1s, 0, .chip, none⟩,
     ⟨30, 30, .rw, 1, .chip, none⟩,
     ⟨29, 29, .rw, 0, .chip, none⟩,
     ⟨28, 28, .rw, 1, .chip, none⟩,
     ⟨27, 16, .rw, 0, .chip, none⟩,
     ⟨3, 0, .rw, imgLinkMode, .chip, some (0, 5)⟩]⟩] ++
  [⟨"LNK_STATn", 0x0A00008, [(0x100, 36)], 4,
    [⟨31, 29, .ro, 0, .chip, none⟩,
     ⟨28, 28, .ro, 0, .chip, none⟩,
     ⟨27, 26, .ro, 0, .chip, none⟩,
     ⟨25, 25, .ro, 0, .chip, none⟩,
     ⟨23, 22, .ro, 0, .chip, none⟩,
     ⟨21, 0, .ro, 0, .chip, none⟩]⟩] ++
  [⟨"LNK_GRP", 0x0A04000, [], 4,
    [⟨1, 0, .rw, 0, .chip, some (0, 2)⟩,
     ⟨3, 2, .rw, 0, .chip, some (0, 2)⟩,
     ⟨5, 4, .rw, 0, .chip, some (0, 2)⟩,
     ⟨7, 6, .rw, 0, .chip, some (0, 2)⟩,
     ⟨9, 8, .rw, 0, .chip, some (0, 2)⟩,
     ⟨11, 10, .rw, 0, .chip, some (0, 2)⟩,
     ⟨13, 12, .rw, 0, .chip, some (0, 2)⟩,
     ⟨15, 14, .rw, 0, .chip, some (0, 2)⟩,
     ⟨17, 16, .rw, 0, .chip, some (0, 2)⟩]⟩] ++
  [⟨"LNK_ELS_STAT", 0x0A04010, [], 4,
    [⟨17, 0, .ro, 0, .chip, none⟩]⟩] ++
  [⟨"TMB_CTL", 0x0500000, [], 4,
    [⟨31, 30, .rw, imgRole, .chip, none⟩,
     ⟨29, 24, .rw, 0, .chip, some (0, 35)⟩,
     ⟨23, 21, .rw, 0, .chip, none⟩,
     ⟨15, 8, .rw, 0x64, .chip, none⟩,
     ⟨7, 0, .rw, 0x5, .chip, none⟩]⟩] ++
  [⟨"TMB_STAT", 0x0500008, [], 4,
    [⟨31, 31, .ro, 0, .chip, none⟩,
     ⟨30, 30, .ro, 0, .chip, none⟩,
     ⟨15, 0, .ro, 0, .chip, none⟩]⟩] ++
  [⟨"TMB_RATE", 0x0500020, [], 4,
    [⟨31, 0, .rw, 0, .chip, none⟩]⟩] ++
  [⟨"TMB_LOFSn", 0x0500100, [(0x8, 36)], 4,
    [⟨31, 0, .ro, 0x80000000, .chip, none⟩]⟩] ++
  [⟨"TMB_ASYMn", 0x0500104, [(0x8, 36)], 4,
    [⟨15, 0, .rw, 0, .chip, none⟩]⟩]
/-- Rows of the register tables, part 4. -/
def regRows4 : List RegRow :=
  [⟨"PAR_CFG", 0x0B00000, [], 4,
    [⟨31, 16, .rw, imgLatPort, .chip, none⟩,
     ⟨15, 0, .rw, 0x17c1, .chip, none⟩]⟩] ++
  [⟨"PAR_ACT", 0x0B00008, [], 4,
    [⟨10, 1, .rw, 0, .chip, none⟩,
     ⟨0, 0, .rw, 0, .chip, none⟩]⟩] ++
  [⟨"PAR_RULE_CMD", 0x0B00100, [], 4,
    [⟨31, 31, .ro, 0, .chip, none⟩,
     ⟨27, 20, .ro, 0, .chip, none⟩,
     ⟨19, 17, .wo, 0, .chip, some (1, 3)⟩,
     ⟨16, 15, .wo, 0, .chip, some (0, 2)⟩,
     ⟨13, 0, .wo, 0, .chip, none⟩]⟩] ++
  [⟨"SCH_SVCp", 0x0C90000, [(0x10, 288)], 4,
    [⟨31, 30, .rw, 0x1, .chip, some (0, 2)⟩,
     ⟨23, 0, .rw, 0, .chip, none⟩]⟩] ++
  [⟨"SCH_CLSp_c", 0x0C00000, [(0x800, 288), (0x80, 16)], 8,
    [⟨63, 63, .rw, 0, .chip, none⟩,
     ⟨62, 41, .rw, 0, .chip, none⟩,
     ⟨40, 19, .rw, 0, .chip, none⟩,
     ⟨15, 0, .rw, 0, .chip, none⟩]⟩] ++
  [⟨"LAT_CFG", 0x0D00000, [], 4,
    [⟨31, 31, .rw, 0, .chip, none⟩,
     ⟨30, 24, .rw, 0x14, .chip, some (1, 127)⟩,
     ⟨23, 0, .rw, 0, .chip, none⟩]⟩] ++
  [⟨"LAT_NODETAB", 0x0D00008, [], 8,
    [⟨51, 12, .rw, 0, .chip, none⟩,
     ⟨4, 0, .rw, 0, .chip, some (0, 24)⟩]⟩] ++
  [⟨"LAT_ETHMASK", 0x0D00010, [], 8,
    [⟨35, 0, .rw, 0, .chip, none⟩]⟩] ++
  [⟨"LAT_CLS", 0x0D00018, [], 4,
    [⟨3, 0, .rw, 0x1, .chip, none⟩]⟩] ++
  [⟨"LAT_USE", 0x0D00040, [], 8,
    [⟨50, 32, .ro, 0, .chip, none⟩,
     ⟨16, 0, .ro, 0, .chip, none⟩]⟩] ++
  [⟨"CQS_CFG", 0x0E00000, [], 4,
    [⟨15, 0, .rw, 0x1f40, .chip, some (1, 65535)⟩]⟩] ++
  [⟨"CQS_PS", 0x0E00008, [], 4,
    [⟨31, 31, .ro, 0, .chip, none⟩,
     ⟨5, 4, .ro, 0, .chip, none⟩,
     ⟨1, 0, .rw, 0, .chip, none⟩]⟩]
/-- Rows of the register tables, part 5. -/
def regRows5 : List RegRow :=
  [⟨"CQS_RLOCK", 0x0E00010, [], 4,
    [⟨31, 16, .rw, 0, .chip, none⟩,
     ⟨12, 0, .ro, 0, .chip, none⟩]⟩] ++
  [⟨"CQS_DRVn", 0x0E00100, [(0x8, 16)], 8,
    [⟨63, 63, .ro, 0, .chip, none⟩,
     ⟨62, 62, .ro, 0, .chip, none⟩,
     ⟨61, 61, .ro, 0, .chip, none⟩,
     ⟨60, 60, .ro, 0, .chip, none⟩,
     ⟨47, 24, .ro, 0, .chip, none⟩,
     ⟨23, 0, .ro, 0, .chip, none⟩]⟩] ++
  [⟨"CIP_SLOT_SEL", 0x0F00000, [], 4,
    [⟨12, 0, .rw, 0, .chip, none⟩]⟩] ++
  [⟨"CIP_SLOT_INFO", 0x0F00008, [], 4,
    [⟨31, 31, .ro, 0, .chip, none⟩,
     ⟨30, 28, .ro, 0, .chip, none⟩,
     ⟨25, 16, .ro, 0x200, .chip, none⟩,
     ⟨15, 0, .ro, 0, .chip, none⟩]⟩] ++
  [⟨"CIP_HOLD", 0x0F00010, [], 4,
    [⟨24, 16, .rw, 0, .chip, none⟩,
     ⟨8, 0, .ro, 0, .chip, none⟩]⟩] ++
  [⟨"SIP_CFG", 0x1000000, [], 4,
    [⟨31, 31, .rw, 0, .chip, none⟩,
     ⟨19, 16, .rw, 0x4, .chip, none⟩,
     ⟨15, 0, .rw, 0x1f40, .chip, some (1, 65535)⟩]⟩] ++
  [⟨"SIP_TGTTAB", 0x1000010, [], 8,
    [⟨51, 12, .rw, 0, .chip, none⟩,
     ⟨4, 0, .rw, 0, .chip, some (0, 16)⟩]⟩] ++
  [⟨"SIP_TSTAT", 0x1000018, [], 4,
    [⟨31, 29, .ro, 0, .chip, none⟩,
     ⟨28, 28, .w1s, 0, .chip, none⟩,
     ⟨8, 0, .ro, 0, .chip, none⟩]⟩] ++
  [⟨"TRN_STATEt", 0x0709000, [(0x4, 512)], 4,
    [⟨31, 29, .ro, 0x0, .chip, none⟩,
     ⟨28, 28, .ro, 0, .chip, none⟩,
     ⟨24, 16, .ro, 0, .chip, none⟩,
     ⟨15, 15, .ro, 0, .chip, none⟩,
     ⟨13, 8, .ro, 0, .chip, none⟩]⟩] ++
  [⟨"TRN_CFG", 0x070A000, [], 4,
    [⟨31, 31, .rw, 0, .chip, none⟩,
     ⟨10, 0, .rw, 0, .chip, none⟩]⟩] ++
  [⟨"TRN_CMD_ADDR", 0x070A008, [], 8,
    [⟨51, 6, .rw, 0, .chip, none⟩]⟩] ++
  [⟨"TRN_CMD_CTL", 0x070A010, [], 4,
    [⟨31, 31, .w1s, 0, .chip, none⟩,
     ⟨15, 8, .ro, 0, .chip, none⟩,
     ⟨2, 0, .wo, 0, .chip, some (1, 5)⟩]⟩]
/-- Rows of the register tables, part 6. -/
def regRows6 : List RegRow :=
  [⟨"TRN_CHANt", 0x070C000, [(0x10, 512)], 8,
    [⟨63, 48, .rw, 0, .chip, none⟩,
     ⟨47, 32, .ro, 0, .chip, none⟩,
     ⟨31, 16, .rw, 0, .chip, none⟩,
     ⟨15, 0, .ro, 0, .chip, none⟩]⟩] ++
  [⟨"GEN_FWIF", 0x0000020, [], 4,
    [⟨31, 16, .ro, 0, .chip, none⟩,
     ⟨15, 0, .ro, 0, .chip, none⟩]⟩] ++
  [⟨"GEN_FW_ADDR", 0x0000028, [], 8,
    [⟨63, 0, .rw, 0, .chip, none⟩]⟩] ++
  [⟨"GEN_FW_LEN", 0x0000030, [], 4,
    [⟨23, 0, .rw, 0, .chip, none⟩]⟩] ++
  [⟨"GEN_FW_CTL", 0x0000034, [], 4,
    [⟨31, 31, .w1s, 0, .chip, none⟩,
     ⟨11, 8, .ro, 0, .chip, none⟩,
     ⟨1, 0, .rw, 0, .chip, some (0, 2)⟩]⟩] ++
  [⟨"RST_REACH", 0x0100000, [], 8,
    [⟨63, 0, .ro, imgReach, .full, none⟩]⟩] ++
  [⟨"RST_CAUSE", 0x0100008, [], 4,
    [⟨31, 16, .w1c, 0, .full, none⟩,
     ⟨11, 8, .rs, 0, .full, none⟩,
     ⟨2, 0, .rs, 0x7, .full, none⟩]⟩] ++
  [⟨"RST_SW", 0x0100010, [], 4,
    [⟨7, 0, .wo, 0, .chip, none⟩]⟩] ++
  [⟨"CFG_STAT", 0x0200000, [], 4,
    [⟨3, 2, .ro, 0, .chip, none⟩,
     ⟨1, 0, .ro, 0, .chip, none⟩]⟩] ++
  [⟨"BST_STAT", 0x1300000, [], 4,
    [⟨31, 30, .ro, 0, .chip, none⟩,
     ⟨29, 29, .ro, 0, .chip, none⟩,
     ⟨12, 0, .ro, 0, .chip, none⟩]⟩] ++
  [⟨"FLT_CFG", 0x0400000, [], 4,
    [⟨31, 20, .rw, 0x3e8, .chip, some (1, 4095)⟩,
     ⟨19, 12, .rw, 0x10, .chip, some (1, 255)⟩,
     ⟨10, 0, .rw, 0, .chip, none⟩]⟩] ++
  [⟨"FLT_PIN", 0x0400008, [], 4,
    [⟨2, 2, .ro, 0, .chip, none⟩,
     ⟨1, 1, .w1c, 0, .full, none⟩,
     ⟨0, 0, .ro, 0, .chip, none⟩]⟩]
/-- Rows of the register tables, part 7. -/
def regRows7 : List RegRow :=
  [⟨"FLT_HIST_HEAD", 0x0400010, [], 4,
    [⟨31, 0, .ro, 0, .chip, none⟩]⟩] ++
  [⟨"FLT_REACTs", 0x0402000, [(0x4, 512)], 4,
    [⟨20, 16, .rw, 0, .chip, none⟩,
     ⟨12, 8, .rw, 0, .chip, none⟩,
     ⟨4, 0, .rw, 0, .chip, none⟩]⟩] ++
  [⟨"FLT_STATs", 0x0404000, [(0x8, 512)], 8,
    [⟨63, 63, .w1c, 0, .chip, none⟩,
     ⟨62, 62, .w1c, 0, .chip, none⟩,
     ⟨61, 61, .ro, 0, .chip, none⟩,
     ⟨60, 60, .ro, 0, .chip, none⟩,
     ⟨47, 32, .rw, 0, .chip, none⟩,
     ⟨31, 16, .rw, 0, .chip, none⟩,
     ⟨15, 8, .ro, 0, .chip, none⟩,
     ⟨7, 0, .rw, 0, .chip, none⟩]⟩] ++
  [⟨"FLT_INJ", 0x0400100, [], 8,
    [⟨63, 63, .w1s, 0, .chip, none⟩,
     ⟨62, 62, .ro, 0, .full, none⟩,
     ⟨57, 56, .rw, 0, .chip, none⟩,
     ⟨55, 47, .rw, 0, .chip, none⟩,
     ⟨31, 24, .rw, 0, .chip, none⟩,
     ⟨23, 0, .rw, 0, .chip, none⟩]⟩] ++
  [⟨"TEL_SNAP_CTL", 0x0600008, [], 4,
    [⟨2, 2, .ro, 0, .chip, none⟩,
     ⟨1, 1, .w1c, 0, .chip, none⟩,
     ⟨0, 0, .w1s, 0, .chip, none⟩]⟩] ++
  [⟨"DBG_CTL", 0x1400000, [], 4,
    [⟨31, 31, .w1s, 0, .chip, none⟩,
     ⟨30, 30, .w1s, 0, .chip, none⟩,
     ⟨29, 29, .w1s, 0, .chip, none⟩,
     ⟨25, 24, .ro, 0, .chip, none⟩,
     ⟨23, 20, .ro, 0, .chip, none⟩,
     ⟨16, 0, .ro, 0, .chip, none⟩]⟩] ++
  [⟨"PWR_CAP", 0x0300000, [], 4,
    [⟨23, 16, .rw, 0xa, .chip, some (1, 255)⟩,
     ⟨15, 0, .rw, 0, .chip, none⟩]⟩] ++
  [⟨"PWR_STAT", 0x0300008, [], 4,
    [⟨31, 16, .ro, 0, .chip, none⟩,
     ⟨7, 7, .ro, 0, .chip, none⟩,
     ⟨6, 6, .ro, 0, .chip, none⟩,
     ⟨5, 5, .ro, 0, .chip, none⟩,
     ⟨4, 0, .ro, 0x10, .chip, none⟩]⟩] ++
  [⟨"PWR_DROOP", 0x0300010, [], 4,
    [⟨3, 0, .rw, 0x5, .chip, some (2, 8)⟩]⟩] ++
  [⟨"PWR_THERM", 0x0300018, [], 4,
    [⟨15, 8, .ro, 0, .chip, none⟩,
     ⟨7, 0, .rw, 0x64, .chip, some (80, 105)⟩]⟩] ++
  [⟨"PWR_AUXLOG", 0x0300020, [], 4,
    [⟨31, 31, .w1c, 0, .full, none⟩,
     ⟨30, 29, .ro, 0, .full, none⟩,
     ⟨15, 8, .ro, 0, .full, none⟩]⟩] ++
  [⟨"TRN_WALK_ERR", 0x0708018, [], 4,
    [⟨31, 0, .rw, 0, .chip, none⟩]⟩]
/-- Rows of the register tables, part 8. -/
def regRows8 : List RegRow :=
  [⟨"TRN_PRQ_STALE", 0x0708020, [], 4,
    [⟨31, 0, .rw, 0, .chip, none⟩]⟩] ++
  [⟨"LNK_PEERHIn", 0x0A0000C, [(0x100, 36)], 4,
    [⟨1, 0, .ro, 0, .chip, none⟩]⟩] ++
  [⟨"LNK_REPLAYn", 0x0A00010, [(0x100, 36)], 4,
    [⟨31, 0, .rw, 0, .chip, none⟩]⟩] ++
  [⟨"LNK_DUPn", 0x0A00014, [(0x100, 36)], 4,
    [⟨31, 0, .rw, 0, .chip, none⟩]⟩] ++
  [⟨"LNK_CRCn", 0x0A00018, [(0x100, 36)], 4,
    [⟨31, 0, .rw, 0, .chip, none⟩]⟩] ++
  [⟨"LNK_DRIFTn", 0x0A0001C, [(0x100, 36)], 4,
    [⟨31, 0, .rw, 0, .chip, none⟩]⟩] ++
  [⟨"LNK_TRAINFAILn", 0x0A00020, [(0x100, 36)], 4,
    [⟨31, 0, .rw, 0, .chip, none⟩]⟩] ++
  [⟨"TMB_TIME_LO", 0x0500010, [], 4,
    [⟨31, 0, .ro, 0, .chip, none⟩]⟩] ++
  [⟨"TMB_TIME_HI", 0x0500014, [], 4,
    [⟨31, 0, .ro, 0, .chip, none⟩]⟩] ++
  [⟨"TMB_TIME_FRAC", 0x0500018, [], 4,
    [⟨31, 0, .ro, 0, .chip, none⟩]⟩] ++
  [⟨"TMB_SET", 0x0500028, [], 8,
    [⟨63, 0, .rw, 0, .chip, none⟩]⟩] ++
  [⟨"TMB_TOD_NEXT", 0x0500030, [], 8,
    [⟨63, 0, .rw, 0, .chip, none⟩]⟩]
/-- Rows of the register tables, part 9. -/
def regRows9 : List RegRow :=
  [⟨"PAR_NOMATCH", 0x0B00400, [], 4,
    [⟨31, 0, .rw, 0, .chip, none⟩]⟩] ++
  [⟨"PAR_MALr", 0x0B00400, [(0x4, 11)], 4,
    [⟨31, 0, .rw, 0, .chip, none⟩]⟩] ++
  [⟨"PAR_RXDROPn", 0x0B00800, [(0x4, 36)], 4,
    [⟨31, 0, .rw, 0, .chip, none⟩]⟩] ++
  [⟨"PAR_NOBUF", 0x0B00440, [], 4,
    [⟨31, 0, .rw, 0, .chip, none⟩]⟩] ++
  [⟨"PAR_STG", 0x0B00200, [(0x8, 14)], 8,
    [⟨63, 0, .rw, 0, .chip, none⟩]⟩] ++
  [⟨"PAR_EXC_FURROW", 0x0B00010, [], 4,
    [⟨31, 31, .rw, 0, .chip, none⟩,
     ⟨17, 0, .rw, 0, .chip, none⟩]⟩] ++
  [⟨"SCH_TXMASKt", 0x0C98000, [(0x8, 512)], 8,
    [⟨35, 0, .rw, 0, .chip, none⟩]⟩] ++
  [⟨"SCH_HSEL", 0x0C94000, [], 4,
    [⟨31, 31, .wo, 0, .chip, none⟩,
     ⟨30, 30, .rw, 0, .chip, none⟩,
     ⟨12, 0, .rw, 0, .chip, none⟩]⟩] ++
  [⟨"SCH_GCL_SEL", 0x0C96000, [], 4,
    [⟨17, 9, .rw, 0, .chip, none⟩,
     ⟨8, 8, .rw, 0, .chip, none⟩,
     ⟨7, 0, .rw, 0, .chip, none⟩]⟩] ++
  [⟨"SCH_GCL_DATA", 0x0C96008, [], 8,
    [⟨63, 48, .rw, 0, .chip, none⟩,
     ⟨31, 0, .rw, 0, .chip, none⟩]⟩] ++
  [⟨"SCH_GCL_BASEp", 0x0CA0000, [(0x20, 288)], 8,
    [⟨63, 0, .rw, 0, .chip, none⟩]⟩] ++
  [⟨"SCH_GCL_CYCLEp", 0x0CA0008, [(0x20, 288)], 4,
    [⟨31, 0, .rw, 0, .chip, none⟩]⟩]
/-- Rows of the register tables, part 10. -/
def regRows10 : List RegRow :=
  [⟨"SCH_GCL_LENp", 0x0CA000C, [(0x20, 288)], 4,
    [⟨31, 0, .rw, 0, .chip, none⟩]⟩] ++
  [⟨"SCH_GCL_CHANGE_ATp", 0x0CA0010, [(0x20, 288)], 8,
    [⟨63, 0, .rw, 0, .chip, none⟩]⟩] ++
  [⟨"SCH_SYNC_Up", 0x0C90004, [(0x10, 288)], 4,
    [⟨15, 0, .rw, 0x0A, .chip, none⟩]⟩] ++
  [⟨"SCH_SAMPLEp", 0x0C90008, [(0x10, 288)], 4,
    [⟨15, 0, .rw, 0x0A, .chip, none⟩]⟩] ++
  [⟨"SCH_BURSTp_c", 0x0C00008, [(0x800, 288), (0x80, 16)], 4,
    [⟨23, 0, .rw, 0, .chip, none⟩]⟩] ++
  [⟨"SCH_HWIN", 0x0C94100, [(0x4, 34)], 4,
    [⟨31, 0, .ro, 0, .chip, none⟩]⟩] ++
  [⟨"LAT_SRCIP", 0x0D00020, [(0x8, 2)], 8,
    [⟨63, 0, .rw, 0, .chip, none⟩]⟩] ++
  [⟨"LAT_RETX", 0x0D00100, [], 4,
    [⟨31, 0, .rw, 0, .chip, none⟩]⟩] ++
  [⟨"LAT_DUP", 0x0D00104, [], 4,
    [⟨31, 0, .rw, 0, .chip, none⟩]⟩] ++
  [⟨"LAT_AGED", 0x0D00108, [], 4,
    [⟨31, 0, .rw, 0, .chip, none⟩]⟩] ++
  [⟨"LAT_BUSY", 0x0D0010C, [], 4,
    [⟨31, 0, .rw, 0, .chip, none⟩]⟩] ++
  [⟨"LAT_PAGEWAIT", 0x0D00110, [], 4,
    [⟨31, 0, .rw, 0, .chip, none⟩]⟩]
/-- Rows of the register tables, part 11. -/
def regRows11 : List RegRow :=
  [⟨"LAT_DENIED", 0x0D00114, [], 4,
    [⟨31, 0, .rw, 0, .chip, none⟩]⟩] ++
  [⟨"LAT_UNCERTAIN", 0x0D00118, [], 4,
    [⟨31, 0, .rw, 0, .chip, none⟩]⟩] ++
  [⟨"LAT_HDR_BAD", 0x0D0011C, [], 4,
    [⟨31, 0, .rw, 0, .chip, none⟩]⟩] ++
  [⟨"CQS_CNT_TMO", 0x0E00200, [], 4,
    [⟨31, 0, .rw, 0, .chip, none⟩]⟩] ++
  [⟨"CQS_CNT_MEDIA", 0x0E00204, [], 4,
    [⟨31, 0, .rw, 0, .chip, none⟩]⟩] ++
  [⟨"CQS_CNT_NOSPACE", 0x0E00208, [], 4,
    [⟨31, 0, .rw, 0, .chip, none⟩]⟩] ++
  [⟨"CQS_CNT_LOST", 0x0E0020C, [], 4,
    [⟨31, 0, .rw, 0, .chip, none⟩]⟩] ++
  [⟨"CQS_CNT_RLWAIT", 0x0E00210, [], 4,
    [⟨31, 0, .rw, 0, .chip, none⟩]⟩] ++
  [⟨"CIP_AUTHFAIL", 0x0F00100, [], 4,
    [⟨31, 0, .rw, 0, .chip, none⟩]⟩] ++
  [⟨"CIP_REQ", 0x0F00104, [], 4,
    [⟨31, 0, .rw, 0, .chip, none⟩]⟩] ++
  [⟨"CIP_FAULT", 0x0F00108, [], 4,
    [⟨31, 0, .rw, 0, .chip, none⟩]⟩] ++
  [⟨"SIP_SRCIP4", 0x1000048, [], 4,
    [⟨31, 0, .rw, 0, .chip, none⟩]⟩]
/-- Rows of the register tables, part 12. -/
def regRows12 : List RegRow :=
  [⟨"SIP_LINKS", 0x1000008, [], 8,
    [⟨35, 0, .rw, 0, .chip, none⟩]⟩] ++
  [⟨"SIP_TGTSTATk", 0x1000200, [(0x4, 16)], 4,
    [⟨31, 31, .ro, 0, .chip, none⟩,
     ⟨30, 30, .w1c, 0, .chip, none⟩,
     ⟨3, 0, .ro, 0, .chip, none⟩]⟩] ++
  [⟨"SIP_TOKEN", 0x1000020, [(0x8, 4)], 8,
    [⟨63, 0, .ro, 0, .chip, none⟩]⟩] ++
  [⟨"SIP_TOKEN_TRN", 0x1000040, [], 4,
    [⟨9, 0, .ro, 0, .chip, none⟩]⟩] ++
  [⟨"SIP_CNT_SAVED", 0x1000100, [], 4,
    [⟨31, 0, .rw, 0, .chip, none⟩]⟩] ++
  [⟨"SIP_CNT_LOADED", 0x1000104, [], 4,
    [⟨31, 0, .rw, 0, .chip, none⟩]⟩] ++
  [⟨"SIP_CNT_AUTHFAIL", 0x1000108, [], 4,
    [⟨31, 0, .rw, 0, .chip, none⟩]⟩] ++
  [⟨"SIP_CNT_TMO", 0x100010C, [], 4,
    [⟨31, 0, .rw, 0, .chip, none⟩]⟩] ++
  [⟨"TRN_FLR_PENDn", 0x070A100, [(0x4, 16)], 4,
    [⟨31, 0, .w1c, 0, .chip, none⟩]⟩] ++
  [⟨"TRN_CHAN_PENDn", 0x070A200, [(0x4, 16)], 4,
    [⟨31, 0, .w1c, 0, .chip, none⟩]⟩] ++
  [⟨"BST_CELL", 0x1300010, [(0x4, 8)], 4,
    [⟨31, 0, .ro, 0, .chip, none⟩]⟩] ++
  [⟨"BST_REGION", 0x1300030, [], 4,
    [⟨15, 0, .ro, 0, .chip, none⟩]⟩]
/-- Rows of the register tables, part 13. -/
def regRows13 : List RegRow :=
  [⟨"BST_LOG", 0x1308000, [(0x4, 16384)], 4,
    [⟨31, 0, .ro, 0, .chip, none⟩]⟩] ++
  [⟨"FLT_HIST", 0x0400800, [(0x4, 128)], 4,
    [⟨31, 0, .ro, 0, .chip, none⟩]⟩] ++
  [⟨"FLT_HIST_DROP", 0x0400018, [], 4,
    [⟨31, 0, .rw, 0, .chip, none⟩]⟩] ++
  [⟨"FLT_SUMn", 0x0400020, [(0x4, 16)], 4,
    [⟨31, 0, .ro, 0, .chip, none⟩]⟩] ++
  [⟨"TEL_CAT", 0x0610000, [(0x4, 61440)], 4,
    [⟨31, 0, .ro, 0, .chip, none⟩]⟩] ++
  [⟨"TEL_SHD", 0x0680000, [(0x8, 61440)], 8,
    [⟨63, 0, .ro, 0, .chip, none⟩]⟩] ++
  [⟨"TEL_SNAP_AT", 0x0600000, [], 8,
    [⟨63, 0, .rw, 0, .chip, none⟩]⟩] ++
  [⟨"TEL_DR_PERIOD", 0x0600010, [], 4,
    [⟨15, 0, .rw, 0x3E8, .chip, none⟩]⟩] ++
  [⟨"DBG_SCOPE", 0x1400100, [(0x4, 16)], 4,
    [⟨31, 0, .rw, 0, .chip, none⟩]⟩] ++
  [⟨"DBG_CHAL", 0x1400200, [(0x4, 8)], 4,
    [⟨31, 0, .ro, 0, .chip, none⟩]⟩] ++
  [⟨"DBG_RESP", 0x1401000, [(0x4, 64)], 4,
    [⟨31, 0, .rw, 0, .chip, none⟩]⟩]
/-- Every register of PF0 BAR0. -/
def regTable : List RegRow :=
  regRows0 ++ regRows1 ++ regRows2 ++ regRows3 ++ regRows4 ++ regRows5 ++ regRows6 ++ regRows7 ++ regRows8 ++ regRows9 ++ regRows10 ++ regRows11 ++ regRows12 ++ regRows13
/-- Does an offset, taken off the base, hit an instance of an index list. -/
def hitDims : List (Nat × Nat) → Nat → Bool
  | [], d => d == 0
  | (s, c) :: r, d => decide (d / s < c) && hitDims r (d % s)

/-- The row of the register at an offset. -/
def regAt (off : Nat) : Option RegRow :=
  regTable.find? (fun r => decide (r.base ≤ off) && hitDims r.dims (off - r.base))

/-- The reset value a register's fields compose. -/
def composeReset (fs : List FieldRow) : Nat :=
  fs.foldl (fun v f => setBits v f.hi f.lo f.rst) 0

/-- What a register that nothing has written reads as: its reset value. -/
def regReset (off : Nat) : DWord :=
  if 0x402000 ≤ off ∧ off < 0x402800 then
    let ue := fltUE ((off - 0x402000) / 4)
    BitVec.ofNat 64 (fltLast ue * 2 ^ 16 + ue * 2 ^ 8)
  else match regAt off with
    | some r => BitVec.ofNat 64 (composeReset r.fields)
    | none => 0

end Sys2Proof.Machine
end

