-- ==== Sys2Proof/Machine/FabState.lean ====
section
/-! DEFINITION. Machine/FabState.lean: the state of the memories, the flume, the levees, the furrows and the fault
controller (R38, R64, R78, R217–R241, R420–R428).
Choices beyond the words of the spec: log entries DESIGN CHOICE 2, 3, 16, 31, 33, 69, 71, 73; DEDUCED 8, 18. -/

namespace Sys2Proof.Machine

/-- A flume packet in flight (R78). A bulk transfer carries its data flits' bytes. -/
structure Packet where
  /-- Destination endpoint. -/
  dest : Nat
  /-- Source endpoint. -/
  src : Nat
  /-- TYPE: 0 MSG, 1 RD_REQ, 2 RD_RSP, 3 WR, 4 WR_ACK, 5 MERGE. -/
  ty : Nat
  /-- STATUS of a response. -/
  status : Nat
  /-- OWNER. -/
  owner : Nat
  /-- TAG. -/
  tag : Nat
  /-- Target device physical address of a request. -/
  addr : Nat
  /-- Bytes requested or carried. -/
  len : Nat
  /-- Payload or data. -/
  data : List Byte
  /-- The poisoned flits (R80): bit 0 the header or message flit, bit j the data flit j. -/
  poison : BitVec 33
  /-- The plane it travels on (R73, R75). -/
  plane : Nat
  /-- How far it has come: 0 not yet in the mesh, h in the h-th router input of its route (R73, R74). -/
  hop : Nat
deriving DecidableEq, Repr

/-- What the block's LAX merge unit or a unit of the device hands out, or the device sends to the outside. -/
inductive Out
  /-- An MSI-X message: function (512 manager PF0, 513 companion PF0, t the VF of turnout t) and vector. -/
  | msix (fn vec : Nat)
  /-- A reply of a merge unit: block, slot, status, record. -/
  | merge (block slot status : Nat) (rec : List Byte)
  /-- A frame on an optical link: link, kind, bytes. -/
  | link (n kind : Nat) (data : List Byte)
  /-- A message or TLP leaving through a port: port code, kind, bytes. -/
  | tlp (port kind : Nat) (data : List Byte)
  /-- A device-issued memory TLP (R218, R252–R254): port code, requester ID, tag of a read, bus address, bytes, relaxed ordering, poisoned,
  data of a write. -/
  | mem (port rid : Nat) (tag : Option Nat) (addr len : Nat) (ro ep : Bool) (data : List Byte)
  /-- A sideband message or response: bus, kind, bytes. -/
  | side (bus kind : Nat) (data : List Byte)
  /-- A command to a store target: target; 0 connect, 1 Write with FUA, 2 Read, 3 Keep Alive, 4 close; the ports it leaves by and their
  MACs; source address; egress class; bytes (R365–R367). -/
  | store (target kind : Nat) (ports macs : List Nat) (src : List Byte) (cls : Nat) (data : List Byte)
  /-- The data a read of a register, a BAR, a configuration space or a test port returned. -/
  | rdata (kind : Nat) (data : List Byte)
deriving DecidableEq, Repr

/-- A slot of a LAX merge unit in use (R64). -/
abbrev MergeSlot := Option Acc

/-- What falls due at an instant of the model's clock (DESIGN CHOICE, log entry 2). -/
inductive Timer
  /-- A CELL reset completes (R62). -/
  | cellUp (n : Nat)
  /-- A BLOCK reset completes (R65). -/
  | blockUp (k : Nat)
  /-- A REGION reset completes (R67). -/
  | regionUp (r : Nat)
deriving DecidableEq, Repr

/-- The memories (R217, R230–R231, R466). -/
structure Mems where
  /-- Scratch, instruction memory and reservoirs, by device physical address; an unlisted byte is 0 (R469). -/
  sram : SMap Byte
  /-- HBM bytes written, each with the number of the key it was written under (R230). -/
  hbm : SMap (Option (Byte × Nat))
  /-- Memory behind the ports, as the device has written it. -/
  ext : SMap (Option Byte)
  /-- Words of 8 bytes with an ECC error, by address / 8: 1 single-bit, 2 uncorrectable (R60, R70). -/
  ecc : SMap Nat
  /-- Words of instruction memory with a parity error, by address / 4 (R61). -/
  par : NSet
  /-- CHIP and FULL resets so far: every key is drawn afresh at each (R231). -/
  epoch : Nat
  /-- Keys drawn for an owner since (R231, R240). -/
  keyGen : SMap Nat
  /-- 1 + the key under which a scrub wrote zeros over an extent (R241), 0 for none. -/
  zeroed : SMap Nat
deriving DecidableEq, Repr

/-- Memories after a CHIP reset. -/
def Mems.reset : Mems := ⟨[], [], [], [], [], 0, [], []⟩

/-- A requester that waits on a page request (R229). -/
inductive PReq
  /-- The core of a cell. -/
  | core (c : Nat)
  /-- A DMA descriptor of a cell: which of the four in progress (R207). -/
  | dma (c k : Nat)
  /-- The ring of a furrow. -/
  | ring (f : Nat)
  /-- Data of entry `i` of furrow `f`. -/
  | entry (f i : Nat)
  /-- A lateral request from another device, which does not wait on a page (R326). -/
  | remote
  /-- A flume request, by its endpoint and TAG (R78). -/
  | flume (src tag : Nat)
  /-- The management firmware. -/
  | firmware
  /-- The debug unit. -/
  | debug
  /-- A requester that is gone. -/
  | gone
deriving DecidableEq, Repr

/-- Through whom a unit reaches memory: the walker that translates for it (R224), the requester that waits for a read that leaves through a
port, and whether the access is data of an entry whose RO bit is 1 (R254). -/
structure Via where
  /-- Walker. -/
  wk : Nat
  /-- Requester. -/
  who : PReq
  /-- RO. -/
  ro : Bool
  /-- The turnout address that was translated for the access, if one was. -/
  ta : Option Nat
deriving DecidableEq, Repr

/-- A read that has to leave through a port (R252). -/
structure PortAsk where
  /-- Requester. -/
  who : PReq
  /-- Owner code. -/
  owner : Nat
  /-- Device physical address. -/
  addr : Nat
  /-- Bytes. -/
  len : Nat
  /-- RO. -/
  ro : Bool
  /-- Turnout address. -/
  ta : Option Nat
deriving DecidableEq, Repr

/-- An outstanding page request (R227–R229). -/
structure PageReq where
  /-- Slot 0–4095. -/
  slot : Nat
  /-- Generation of the slot. -/
  gen : Nat
  /-- Turnout. -/
  turnout : Nat
  /-- TA bits [47:12]. -/
  page : Nat
  /-- Write access. -/
  w : Bool
  /-- SOURCE code of the record. -/
  source : Nat
  /-- The record has been written to the PRQ ring. -/
  sent : Bool
  /-- The requesters that wait, with their deadlines. -/
  waiters : List (PReq × Nat)
deriving DecidableEq, Repr

/-- What a page request is for: the page and the access (R227). -/
def pageKey (p : Nat) (w : Bool) : Nat := 2 * p + b2n w

/-- A cached translation (R224). -/
structure TlbEntry where
  /-- Walker: 0–15 regions, 16 I/O die. -/
  wk : Nat
  /-- Turnout. -/
  t : Nat
  /-- First TA of the page. -/
  ta : Nat
  /-- Bytes of the page. -/
  size : Nat
  /-- Output address of the page. -/
  pa : Nat
  /-- Reads permitted. -/
  r : Bool
  /-- Writes permitted. -/
  w : Bool
deriving DecidableEq, Repr

/-- A miss that found every request slot taken (R227). -/
structure PageMiss where
  /-- Requester. -/
  who : PReq
  /-- Turnout. -/
  turnout : Nat
  /-- TA bits [47:12]. -/
  page : Nat
  /-- Write access. -/
  w : Bool
  /-- SOURCE code. -/
  source : Nat
  /-- Deadline. -/
  deadline : Nat
deriving DecidableEq, Repr

/-- Levees and paging (R222–R229). -/
structure Levee where
  /-- Cached translations of valid entries. -/
  tlb : List TlbEntry
  /-- Outstanding page requests. -/
  prq : List PageReq
  /-- Generations of the request slots. -/
  prqGen : SMap Nat
  /-- Misses that found every slot taken. -/
  prqWait : List PageMiss
deriving DecidableEq, Repr

/-- Levees after a CHIP reset. -/
def Levee.reset : Levee := ⟨[], [], [], []⟩

/-- A completion to be written (R235). -/
structure Cpl where
  /-- CID. -/
  cid : Nat
  /-- RESULT. -/
  result : Nat
  /-- HEAD. -/
  head : Nat
  /-- STATUS. -/
  status : Nat
  /-- The entry's IRQ bit. -/
  irq : Bool
  /-- Order of the entry's fetch, for the range lock that it holds until this is posted (R343). -/
  seq : Nat
deriving DecidableEq, Repr

/-- A furrow (R232–R237). -/
structure Furrow where
  /-- Owner code. -/
  owner : Nat
  /-- Class code. -/
  cls : Nat
  /-- SQBASE, bytes. -/
  sq : Nat
  /-- CQBASE, bytes. -/
  cq : Nat
  /-- LOG2DEPTH. -/
  log2 : Nat
  /-- VECTOR. -/
  vec : Nat
  /-- SLOT. -/
  slot : Nat
  /-- SCHED. -/
  sched : Nat
  /-- ENABLED; otherwise FROZEN. -/
  enabled : Bool
  /-- RING_FAULT. -/
  fault : Bool
  /-- PI. -/
  pi : Word
  /-- HEAD. -/
  head : Word
  /-- CQT. -/
  cqt : Word
  /-- CQH. -/
  cqh : Word
  /-- Completions held by R468, oldest first. -/
  held : List Cpl
  /-- A ring access waits on a page request (1), or walks again after a served one (2 + its `pageKey`). -/
  paging : Nat
  /-- PI values not yet fetched, in order, each with the port that rang: 0 a host, 1 + k the downstream link k (R190). -/
  rang : List (Nat × Nat)
  /-- Completions that wait on a page request of the completion ring, oldest first (R229). -/
  waitq : List Cpl
deriving DecidableEq, Repr

/-- Progress of a fetched entry. -/
inductive EPhase
  /-- Fetched, its work not yet done. -/
  | fetched
  /-- Waits on a page request of its data. -/
  | paging
  /-- Its work runs on: the class's engine will end it. -/
  | running
  /-- Ended: status and result word; the completion is to be written. -/
  | ended (status result : Nat)
deriving DecidableEq, Repr

/-- A fetched entry that has not completed (R235). -/
structure Entry where
  /-- Furrow. -/
  f : Nat
  /-- Index. -/
  i : Nat
  /-- The 64 bytes. -/
  b : List Byte
  /-- HEAD after the fetch. -/
  head : Nat
  /-- Instant of the fetch. -/
  at_ : Nat
  /-- Order of the fetch among all entries. -/
  seq : Nat
  /-- Progress. -/
  ph : EPhase
  /-- Numbers that the class bound to the entry at its fetch. -/
  snap : List Nat
  /-- Bytes that the class bound to the entry. -/
  data : List Byte
  /-- The context as it stood at the fetch of a Mimin call (R166, R173). -/
  ctx : Option Context
  /-- The page request of its data that was served last (`pageKey`): a further miss of that page is a refusal (R229). -/
  again : Option Nat
  /-- Downstream links it is bound to (R190, R270). -/
  links : List Nat
deriving DecidableEq, Repr

/-- The fault controller beyond its registers (R425–R427). -/
structure Faults where
  /-- Sources whose counting window is open, with 1 + the instant it opened. -/
  win : SMap Nat
  /-- 1 + the instant of the last repeat of a source (R426). -/
  rep : SMap Nat
  /-- Sources whose last condition persists, with code and detail: 1 + code × 2^24 + detail. -/
  cond : SMap Nat
  /-- NMI entries into the fault-handling firmware component not yet returned. -/
  nmi : Nat
  /-- Units under a reset raised by a fault reaction: cell n, 100h + block, 140h + region. -/
  rsts : NSet
  /-- 1 + the instant of the last recorded debug refusal (R434). -/
  dbgRef : Nat
  /-- The telemetry shadows: 0 read before DONE, 1 copied, 2 DONE has been set (R431). -/
  snap : Nat
  /-- 1 + the instant of the ditch rider's last poll (R432). -/
  polled : Nat
deriving DecidableEq, Repr

/-- The fault controller after a CHIP reset. -/
def Faults.reset : Faults := ⟨[], [], [], 0, [], 0, 0, 0⟩

/-- The flume, the merge units and the units in reset (R64, R74, R84). -/
structure Fabric where
  /-- Packets in flight, oldest first. -/
  net : List Packet
  /-- The next TAG. -/
  tag : Nat
  /-- Merge slots, block × 64 + slot. -/
  merge : SMap MergeSlot
  /-- Blocks in reset. -/
  blockRst : NSet
  /-- Regions in reset. -/
  regionRst : NSet
  /-- What falls due, with its instant. -/
  timers : List (Nat × Timer)
  /-- Credits of a router input's buffer that its sender does not hold, by `credKey`: flits that stand in the buffer, and freed
  ones whose credit has not returned (R74). -/
  held : SMap Nat
  /-- Sources whose next bulk transfer takes plane 1 (R75). -/
  alt : NSet
  /-- The requester of each router's local input whose turn is next: cells 0–3, the merge unit 4 (R63). -/
  rr : SMap Nat
  /-- 1 + the unit (cell n, 100h + block) whose reset a region's RGN_UNIT_RST requested last (R87). -/
  unit : SMap Nat
  /-- Next reservoir line of each region's patrol scrubber. -/
  patrol : SMap Nat
  /-- Region clock edges, in units of 1/32000 cycle. -/
  edges : SMap Nat
deriving DecidableEq, Repr

/-- The flume after a CHIP reset. -/
def Fabric.reset : Fabric := ⟨[], 1, [], [], [], [], [], [], [], [], [], []⟩

end Sys2Proof.Machine
end

