-- ==== Sys2Proof/Machine/OperandTypes.lean ====
section
/-! DEFINITION. Machine/OperandTypes.lean: the operand types of commands that are no plain numbers.
Choices beyond the words of the spec: log entries DESIGN CHOICE 9, 69, 73; PRESUMED 5. -/

namespace Sys2Proof

/-- Where a doorbell write lands (R234). -/
inductive DbLoc
  /-- VF BAR2 of turnout t. -/
  | vf (t : Fin 512) (slot : Fin 16384)
  /-- PF0 BAR2, slice of turnout t. -/
  | slice (t : Fin 512) (slot : Fin 16384)
  /-- PF0 BAR2, global view. -/
  | global (f : Fin 262144)
  /-- PF0 BAR2, reserved range. -/
  | reserved
deriving DecidableEq, Repr

/-- Who writes a register (R13, R244, R245, R252). -/
inductive RegSrc
  /-- PF0 BAR0 of the manager. -/
  | pf0
  /-- BAR0 of the companion PF0. -/
  | companion
  /-- VF BAR0 of turnout t. -/
  | vf (t : Fin 512)
  /-- The management firmware. -/
  | firmware
deriving DecidableEq, Repr

/-- A memory request. -/
inductive MemReq
  /-- A read of a number of bytes. -/
  | read (n : Fin 4097)
  /-- A write of bytes, at most 512 (R250). -/
  | write (data : List Byte)
deriving DecidableEq, Repr

/-- Where the address of a peer-to-peer request lies (R251). -/
inductive P2PDest
  /-- BAR0 of a function of the device. -/
  | bar0 (fn : RegSrc) (off : BitVec 26)
  /-- BAR4 of the manager PF0. -/
  | bar4 (off : BitVec 38)
  /-- The expansion ROM of the manager PF0. -/
  | rom (off : BitVec 24)
  /-- Memory behind a downstream link. -/
  | port (k : Fin 16)
  /-- An address of no function and no downstream link. -/
  | up
deriving DecidableEq, Repr

/-- The header of a peer-to-peer request (R250, R251). -/
structure P2PHead where
  /-- Where its address lies. -/
  dst : P2PDest
  /-- Requester ID. -/
  rid : BitVec 16
  /-- Address type: 0 untranslated, 1 translation request, 2 translated. -/
  at_ : Fin 3
deriving DecidableEq, Repr

/-- An edge of PERSTx_N: the port, and for how many ns the input has then stayed at its new level (R258, R406). -/
structure PerstEdge where
  /-- The upstream port. -/
  p : Fin 2
  /-- Nanoseconds at the level. -/
  width : Word
deriving DecidableEq, Repr

/-- The target of a configuration request as it arrives at an upstream port (R242). -/
structure CfgDst where
  /-- A Type 0 request, for the upstream switch port itself; otherwise Type 1. -/
  type0 : Bool
  /-- Bus number. -/
  bus : Byte
  /-- Device number [7:3] and function number [2:0]. -/
  devfn : Byte
deriving DecidableEq, Repr

/-- The configuration register that a request names. The placement of the registers in configuration space follows the PCIe base
specification and is not part of the model; the places of their bits are that specification's (PRESUMED, log entry 5). -/
inductive CfgReg
  /-- Vendor ID [15:0] and Device ID [31:16]. -/
  | ids
  /-- Class code [31:8], revision [7:0]. -/
  | cls
  /-- Subsystem vendor ID and subsystem ID. -/
  | subsys
  /-- Command [15:0], Status [31:16]. -/
  | command
  /-- A dword of the BARs. -/
  | bar (n : Fin 6)
  /-- The expansion ROM BAR. -/
  | rom
  /-- Interrupt Line [7:0], Interrupt Pin [15:8]. -/
  | intPin
  /-- Primary [7:0], Secondary [15:8] and Subordinate [23:16] Bus Number of a switch port. -/
  | busNums
  /-- PCI Express Capabilities: [3:0] version, [7:4] port type, [8] Slot Implemented. -/
  | pcieCap
  /-- Device Capabilities. -/
  | devCap
  /-- Device Control: [4] Enable Relaxed Ordering, [7:5] Max_Payload_Size, [14:12] Max_Read_Request_Size. -/
  | devCtl
  /-- Device Capabilities 2. -/
  | devCap2
  /-- Device Control 2: [3:0] Completion Timeout Value, [4] Completion Timeout Disable, [5] ARI Forwarding Enable. -/
  | devCtl2
  /-- Link Capabilities. -/
  | linkCap
  /-- Link Control: [1:0] ASPM Control. -/
  | linkCtl
  /-- Link Status: [13] Data Link Layer Link Active. -/
  | linkSta
  /-- Slot Capabilities. -/
  | slotCap
  /-- Slot Control: [14] In-Band PD Disable. Its other fields have the row SLOT_CONTROL_WRITE. -/
  | slotCtl
  /-- Slot Status. -/
  | slotSta
  /-- Slot Capabilities 2: [0] In-Band PD Disable Supported. -/
  | slotCap2
  /-- Power Management Capabilities [31:16]. -/
  | pmCap
  /-- PMCSR: [1:0] PowerState, [3] No_Soft_Reset, [8] PME_En, [15] PME_Status. -/
  | pmcsr
  /-- MSI-X Message Control: [15] Enable, [14] Function Mask, [10:0] table size less 1. -/
  | msixCtl
  /-- MSI-X Table Offset and BIR. -/
  | msixTable
  /-- MSI-X PBA Offset and BIR. -/
  | msixPba
  /-- SR-IOV Control: [0] VF Enable, [3] VF MSE, [4] ARI Capable Hierarchy. -/
  | sriovCtl
  /-- NumVFs [15:0], TotalVFs [31:16]. -/
  | numVfs
  /-- First VF Offset [15:0], VF Stride [31:16]. -/
  | vfOffset
  /-- VF Device ID [31:16]. -/
  | vfDevice
  /-- Supported Page Sizes. -/
  | supPages
  /-- System Page Size. -/
  | sysPage
  /-- A dword of the VF BARs. -/
  | vfBar (n : Fin 6)
  /-- Resizable BAR Capability. -/
  | rebarCap
  /-- Resizable BAR Control: [13:8] size of BAR4, 2^(20 + n) bytes. -/
  | rebar
  /-- ARI Capability: [15:8] Next Function Number. -/
  | ariCap
  /-- ACS Capability. -/
  | acsCap
  /-- ACS Control: [0] Source Validation, [1] Translation Blocking, [2] P2P Request Redirect, [3] P2P Completion Redirect, [4] Upstream
  Forwarding, [6] Direct Translated P2P. -/
  | acsCtl
  /-- AER: Uncorrectable Error Status, Mask, Severity, Correctable Error Status, Mask, as 0 to 4. -/
  | aer (n : Fin 5)
  /-- DPC Capability. -/
  | dpcCap
  /-- DPC Control: [1:0] Trigger Enable, [2] Completion Control. -/
  | dpcCtl
  /-- DPC Status: [0] Trigger Status. -/
  | dpcSta
  /-- The headers of the Skoger DVSEC: extended capability header, DVSEC headers 1 and 2. -/
  | dvsecHdr (n : Fin 3)
  /-- Skoger DVSEC offsets 0Ch, 10h, 14h, as 0, 1, 2. -/
  | dvsec (n : Fin 3)
deriving DecidableEq, Repr

/-- The header of a valid frame that arrives on a native link (R283), for frames whose payload is given by further operands. -/
structure RxNat where
  /-- The link. -/
  n : Fin 36
  /-- NAK. -/
  nak : Bool
  /-- ACK. -/
  ack : BitVec 12
  /-- CREDIT of each VC. -/
  credit : List Byte
deriving DecidableEq, Repr

/-- Where a DATA frame arrives: the link, and the partner's transmit slot, from an instant common to the members of a group, as the
deskew by marker count gives it (R287). -/
structure RxSlot where
  /-- The link. -/
  n : Fin 36
  /-- The transmit slot. -/
  slot : DWord
deriving DecidableEq, Repr

/-- What a training finds of an engine and its ports: the mapping (R278), and the ports whose 802.1Qbb the scheduler configuration enables
(R289). -/
structure LinkEnd where
  /-- REMAP. -/
  remap : BitVec 2
  /-- Bit k: port 8 n + k. -/
  pfc : Byte
deriving DecidableEq, Repr

/-- A flit error met on the way (R80): which flit of the packet, and whether it is uncorrectable. -/
structure FlitErr where
  /-- 0 none, 1 single-bit, 2 double-bit. -/
  kind : Fin 3
  /-- 0 the header or message flit, j the data flit j. -/
  flit : Fin 33
deriving DecidableEq, Repr

/-- The start of a DMA descriptor: the cell, and whether the response to one of its accesses does not come (R208;
DESIGN CHOICE, log entry 95). -/
structure DmaGo where
  /-- The cell. -/
  c : Fin 256
  /-- The response that does not come: none, or that after so many bytes moved. -/
  lost : Option (BitVec 25)
deriving DecidableEq, Repr

/-- How the two copies of a twin call end (R189): whether every bit of their outputs and flags is equal, and how the reads of pages of
each failed: 0 not at all, 1 poisoned data, 2 a failed read from the context store, 3 a storage timeout, 4 a corrected word. -/
structure TwinEnd where
  /-- Outputs and flags are equal. -/
  same : Bool
  /-- The first copy's reads. -/
  err1 : Fin 5
  /-- The second copy's reads. -/
  err2 : Fin 5
deriving DecidableEq, Repr

/-- What the check bits of the rule table entries that a command reads show (R304). -/
inductive TabErr
  /-- No error. -/
  | none
  /-- An error in an entry: table 0 ternary, 1 exact, 2 meters; corrected, or uncorrectable. -/
  | entry (table : Fin 3) (index : BitVec 18) (unc : Bool)
deriving DecidableEq, Repr

end Sys2Proof
end

