-- ==== Sys2Proof/Machine/NetState.lean ====
section
/-! DEFINITION. Machine/NetState.lean: the state of parsing, scheduling, policing and lateral transport beyond their registers
(R295–R332). -/

namespace Sys2Proof.Machine

/-! ### Parsing and delivery -/

/-- What a parse pipeline makes of a frame (R297, R301). -/
inductive Parsed
  /-- Dropped; a rule's meter, if any, meters it all the same. -/
  | drop (meter : Option Nat) (dei : Bool) (dscp : Nat)
  /-- A packet of lateral transport: its header and data. -/
  | lateral (l : List Byte)
  /-- Delivered: furrow, by exception, reason, meter if any, drop-eligible and DSCP for its colour. -/
  | deliver (f : Nat) (exc : Bool) (reason : Nat) (meter : Option Nat) (dei : Bool) (dscp : Nat)
deriving DecidableEq, Repr

/-- A frame in an ingress buffer (R299). -/
structure RxFrame where
  /-- Ingress port. -/
  port : Nat
  /-- Arrival, time-base ns. -/
  at_ : Nat
  /-- Order of arrival. -/
  seq : Nat
  /-- Priority: PCP of the outer tag. -/
  prio : Nat
  /-- From destination MAC to the last byte before the FCS. -/
  data : List Byte
  /-- Its parse result, once a pipeline has it. -/
  res : Option Parsed
  /-- Its colour, once metered. -/
  colour : Nat
deriving DecidableEq, Repr

/-- A ternary entry (R301). -/
structure Tern where
  /-- Valid. -/
  valid : Bool
  /-- KEY. -/
  key : Nat
  /-- MASK. -/
  mask : Nat
  /-- Result word. -/
  res : Nat
  /-- Hit count, 48 bits. -/
  hits : Nat
deriving DecidableEq, Repr

/-- An entry that nothing has written. -/
def Tern.none : Tern := ⟨false, 0, 0, 0, 0⟩

/-- A meter (R307). -/
structure Meter where
  /-- Valid. -/
  valid : Bool
  /-- The record of STG12. -/
  rec_ : Nat
  /-- CBS. -/
  cbs : Nat
  /-- EBS or PBS. -/
  ebs : Nat
  /-- First bucket, in 1/8000 byte. -/
  b1 : Nat
  /-- Second bucket. -/
  b2 : Nat
  /-- Time of its last frame or WRITE. -/
  at_ : Nat
  /-- Green, yellow and red frames. -/
  cnt : List Nat
deriving DecidableEq, Repr

/-- A meter that nothing has written. -/
def Meter.none : Meter := ⟨false, 0, 0, 0, 0, 0, 0, [0, 0, 0]⟩

/-- The parser's tables and buffers. -/
structure Par where
  /-- Ingress buffers of the links, oldest frame first. -/
  buf : SMap (List RxFrame)
  /-- Order of arrivals so far. -/
  seq : Nat
  /-- Ternary entries. -/
  tern : SMap Tern
  /-- Exact entries: bucket × 4 + slot; key and result. -/
  exact_ : SMap (Option (Nat × Nat))
  /-- Meters. -/
  meters : SMap Meter
  /-- Priorities of a port paused toward the partner: port × 8 + priority. -/
  paused : NSet
  /-- Frames with a bad FCS that a port's MAC has dropped (R297). -/
  badFcs : SMap Nat
deriving DecidableEq, Repr

/-- After a CHIP reset. -/
def Par.reset : Par := ⟨[], 0, [], [], [], [], []⟩

/-! ### Scheduling -/

/-- A frame in a class queue (R306, R309). -/
structure QItem where
  /-- Frame bytes: Ethernet from destination MAC on without FCS; native the DATA payload. -/
  data : List Byte
  /-- VC of a native frame. -/
  vc : Nat
  /-- The PKT_TX entry it belongs to: furrow and index. -/
  ent : Option (Nat × Nat)
  /-- Instant it was queued, time-base ns. -/
  at_ : Nat
  /-- Time-base instant from which it is not sent any more (R324); 0: none. -/
  until_ : Nat
deriving DecidableEq, Repr

/-- A gate list in force (R312). -/
structure GateList where
  /-- BASE. -/
  base : Nat
  /-- CYCLE, ns. -/
  cycle : Nat
  /-- Entries: gates and interval. -/
  ents : List (Nat × Nat)
deriving DecidableEq, Repr

/-- The scheduler. -/
structure Sched where
  /-- Class queues, 16 × port + class, head first. -/
  queues : SMap (List QItem)
  /-- DWRR deficits, 16 × port + class. -/
  deficit : SMap Int
  /-- DWRR pointers by port; 4 at reset. -/
  ptr : SMap Nat
  /-- CBS credits, in 1/1,600,000 bit. -/
  cbs : SMap Int
  /-- Tokens, in 1/8000 byte. -/
  tok : SMap Int
  /-- Instant up to which a port's credits and tokens are accounted. -/
  upTo : SMap Nat
  /-- Instant at which a port's current frame ends, in ps. -/
  busy : SMap Nat
  /-- Service in effect; 1 (RECOVERY) at reset. -/
  svc : SMap Nat
  /-- Gates in force, 16 bits; all open at reset. -/
  gates : SMap Nat
  /-- OPER lists. -/
  oper : SMap (Option GateList)
  /-- ADMIN entries: 256 × port + entry. -/
  admin : SMap DWord
  /-- Ports whose change is armed. -/
  armed : NSet
  /-- Histogram words: queue × 34 + word. -/
  hist : SMap Word
  /-- Histogram words of the last snapshot. -/
  shadow : SMap Word
  /-- Number of the last sampling instant of a port. -/
  sampled : SMap Nat
  /-- Time until which a priority of a port may not be sent: port × 8 + priority. -/
  pause : SMap Nat
  /-- Frames that left their queue in the ns `leftAt`: queue, bytes, instant queued (R314). -/
  left : List (Nat × Nat × Nat)
  /-- The ns of `left`. -/
  leftAt : Nat
deriving DecidableEq, Repr

/-- After a CHIP reset. -/
def Sched.reset : Sched := ⟨[], [], [], [], [], [], [], [], [], [], [], [], [], [], [], [], [], 0⟩

/-! ### Lateral transport -/

/-- A lateral window (R322). -/
structure Win where
  /-- Turnout. -/
  t : Nat
  /-- KEY. -/
  key : Nat
  /-- TA base. -/
  base : Nat
  /-- Length. -/
  len : Nat
  /-- [2] A, [1] W, [0] R. -/
  perm : Nat
deriving DecidableEq, Repr

/-- What a sender knows of one packet of a message (R324). -/
structure TxPkt where
  /-- Placed, or its response received. -/
  done : Bool
  /-- The latest answer: 0 none, 1 PAGE_WAIT, 2 BUSY. -/
  ans : Nat
  /-- Instant at which it is sent again. -/
  due : Nat
  /-- Unanswered transmissions so far. -/
  tries : Nat
  /-- The last wait after BUSY, µs. -/
  busy : Nat
  /-- Port that carried its last transmission. -/
  port : Nat
deriving DecidableEq, Repr

/-- A tracker entry (R323). -/
structure Msg where
  /-- Furrow. -/
  f : Nat
  /-- Index. -/
  i : Nat
  /-- MSGID. -/
  id : Nat
  /-- 1 + T0; 0 before the first transmission. -/
  t0 : Nat
  /-- Its packets. -/
  pkts : List TxPkt
  /-- Retransmission rounds. -/
  rounds : Nat
deriving DecidableEq, Repr

/-- A filter entry (R327). -/
structure Filt where
  /-- SRC_NODE. -/
  node : Nat
  /-- MSGID. -/
  id : Nat
  /-- Instant of its creation, time-base ns. -/
  at_ : Nat
  /-- Placed packets. -/
  placed : Nat
  /-- Packets of the message. -/
  npkt : Nat
  /-- The old value of an ATOMIC. -/
  old : Option Nat
  /-- Packets placed and not yet acknowledged. -/
  ack : Bool
  /-- Instant at which an ACK became due. -/
  ackAt : Nat
  /-- The header of its latest request, for the answer. -/
  hdr : List Byte
deriving DecidableEq, Repr

/-- A group (R330, R331). -/
structure Grp where
  /-- SRC_NODE. -/
  node : Nat
  /-- SRC_TRN. -/
  src : Nat
  /-- DST_TRN. -/
  dst : Nat
  /-- GROUP. -/
  g : Nat
  /-- Messages placed. -/
  placed : Nat
  /-- The held closing write: its packet. -/
  held : Option (List Byte)
  /-- Its target TA, as the window check gave it. -/
  heldTa : Nat
  /-- Instant of its last change. -/
  at_ : Nat
deriving DecidableEq, Repr

/-- Lateral transport. -/
structure Lat where
  /-- Windows of every turnout. -/
  wins : List Win
  /-- MSGID of the next message. -/
  msgid : Nat
  /-- Tracker. -/
  msgs : List Msg
  /-- Filter. -/
  filt : List Filt
  /-- Groups. -/
  grps : List Grp
  /-- Packets that have arrived and wait for the receiver. -/
  rx : List (List Byte)
  /-- Round-robin position of the spraying. -/
  rr : Nat
deriving DecidableEq, Repr

/-- After a CHIP reset. -/
def Lat.reset : Lat := ⟨[], 0, [], [], [], [], 0⟩

end Sys2Proof.Machine
end

