-- ==== Sys2Proof/Machine/SiphonState.lean ====
section
/-! DEFINITION. Machine/SiphonState.lean: the state of the siphon beyond its registers: store connections, commands in flight, the
turnout operation and the turnout images (R365–R381).
Choices beyond the words of the spec: log entries DESIGN CHOICE 52. -/

namespace Sys2Proof.Machine

/-- An open connection to a store target (R365). -/
structure Conn where
  /-- IP of the target, as IPv6. -/
  ip : Nat
  /-- TCP port. -/
  port : Nat
  /-- I/O queues. -/
  queues : Nat
  /-- Instant of the last Keep Alive. -/
  kaAt : Nat
deriving DecidableEq, Repr

/-- An NVMe command toward a store target (R367). -/
structure StoreCmd where
  /-- Target. -/
  target : Nat
  /-- Identifier. -/
  id : Nat
  /-- Furrow and index of its entry. -/
  f : Nat
  /-- Index. -/
  i : Nat
  /-- A Write with FUA; otherwise a Read. -/
  write : Bool
  /-- First block. -/
  lba : Nat
  /-- Blocks. -/
  blocks : Nat
  /-- Data of a Write. -/
  data : List Byte
  /-- Instant of submission. -/
  at_ : Nat
deriving DecidableEq, Repr

/-- A furrow in a turnout image (R380). -/
structure FurImg where
  /-- Class. -/
  cls : Nat
  /-- SLOT. -/
  slot : Nat
  /-- LOG2DEPTH. -/
  log2 : Nat
  /-- VECTOR. -/
  vec : Nat
  /-- SCHED. -/
  sched : Nat
  /-- SQBASE. -/
  sq : Nat
  /-- CQBASE. -/
  cq : Nat
  /-- PI. -/
  pi : Word
  /-- HEAD. -/
  head : Word
  /-- CQT. -/
  cqt : Word
  /-- CQH. -/
  cqh : Word
deriving DecidableEq, Repr

/-- A cell in a turnout image: its engines, its scratch and its instruction memory (R380). -/
structure CellImg where
  /-- The cell's registers, coprocessors, sluices, inbox and queues. -/
  cell : Cell
  /-- Scratch, by offset. -/
  scratch : SMap Byte
  /-- Instruction memory, by offset. -/
  imem : SMap Byte
deriving DecidableEq, Repr

/-- The content of a turnout image (R380). -/
structure TurnImage where
  /-- Source turnout. -/
  src : Nat
  /-- FWIF. -/
  fwif : Nat
  /-- Length in 4 KiB units. -/
  units : Nat
  /-- The digest of the header matches. -/
  digest : Bool
  /-- Furrow contexts. -/
  furs : List FurImg
  /-- Windows. -/
  wins : List Win
  /-- The directory slice. -/
  ctxs : List Context
  /-- Cells in ascending flat order. -/
  cells : List CellImg
  /-- Pages of the translation tables: device physical address and bytes. -/
  tables : List (Nat × List Byte)
deriving DecidableEq, Repr

/-- The TRN_SAVE or TRN_RESTORE in progress (R379, R381). -/
structure TurnOp where
  /-- Furrow of its entry. -/
  f : Nat
  /-- Index of its entry. -/
  i : Nat
  /-- Turnout. -/
  t : Nat
  /-- Instant of FREEZE. -/
  at_ : Nat
  /-- Furrows that were ENABLED. -/
  furs : List Nat
deriving DecidableEq, Repr

/-- The siphon. -/
structure Siphon where
  /-- Open connections by target. -/
  conns : SMap (Option Conn)
  /-- The member port of each I/O queue of a target, pinned at connect (R365). -/
  pins : SMap (List Nat)
  /-- Member ports given so far, for the round robin (R365). -/
  next : Nat
  /-- Commands in flight. -/
  cmds : List StoreCmd
  /-- The turnout operation. -/
  op : Option TurnOp
  /-- Turnout whose restored cells await GO. -/
  halted : Option Nat
  /-- Images that this device wrote, with their bytes. -/
  images : List (List Byte × TurnImage)
deriving DecidableEq, Repr

/-- After a CHIP reset. -/
def Siphon.reset : Siphon := ⟨[], [], 0, [], none, none, []⟩

end Sys2Proof.Machine
end

