-- ==== Sys2Proof/Syntax.lean ====
section
/-! DEFINITION. Syntax.lean: the commands of the SG3616, one constructor for each row of the command table, in its order. An operand
carries the range that the spec gives it; what a type cannot bound, WellFormed.lean bounds. Names: `c` a cell by flat number
(R25), `f` a furrow by ID and `i` the index of its entry (R236), `t` a turnout, `n` a link, `p` a port, `k` a key or unit. -/

namespace Sys2Proof
open Sys2Proof.Machine

/-- The commands. -/
inductive Instr
  /-- REGISTER_WRITE (R13). -/
  | registerWrite (src : RegSrc) (off : BitVec 26) (wide : Bool) (v : DWord)
  /-- BAR4_ACCESS (R248). -/
  | bar4Access (off : BitVec 38) (q : MemReq)
  /-- CONFIG_REQUEST (R258). -/
  | configRequest (p : Fin 2) (d : CfgDst) (r : CfgReg) (w : Option Word)
  /-- CELL_RESET (R62). -/
  | cellReset (c : Fin 256)
  /-- BLOCK_RESET (R65). -/
  | blockReset (k : Fin 64)
  /-- REGION_RESET (R67). -/
  | regionReset (r : Fin 16)
  /-- RGN_UNIT_RST_CELL (R87). -/
  | rgnUnitRstCell (r : Fin 16) (b : Fin 4) (c : Fin 4)
  /-- RGN_UNIT_RST_BLOCK (R87). -/
  | rgnUnitRstBlock (r : Fin 16) (b : Fin 4)
  /-- RGN_RSV_WEIGHT_WRITE (R88). -/
  | rgnRsvWeightWrite (r : Fin 16) (w : BitVec 20)
  /-- RESERVOIR_PATROL_SCRUB (R70). -/
  | reservoirPatrolScrub (r : Fin 16)
  /-- FLUME_MSG (R78). -/
  | flumeMsg (p : Packet) (err : FlitErr)
  /-- FLUME_RD_REQ (R78). -/
  | flumeRdReq (p : Packet) (err : FlitErr)
  /-- FLUME_WR (R78). -/
  | flumeWr (p : Packet) (err : FlitErr)
  /-- FLUME_RD_RSP (R95). -/
  | flumeRdRsp (p : Packet) (err : FlitErr)
  /-- FLUME_WR_ACK (R207). -/
  | flumeWrAck (p : Packet × FlitErr)
  /-- FLIT_CREDIT_RETURN (R74). -/
  | flitCreditReturn (router : Fin 64) (port : Fin 8) (plane : Fin 2) (vc : Fin 3)
  /-- MERGE_OPEN (R64). -/
  | mergeOpen (k : Fin 64) (i : Fin 64)
  /-- MERGE_ADD (R64). -/
  | mergeAdd (k : Fin 64) (i : Fin 64) (data : List Byte)
  /-- MERGE_CLOSE (R64). -/
  | mergeClose (k : Fin 64) (i : Fin 64)
  /-- ADD (R100). -/
  | add (c : Fin 256) (d : BitVec 5) (a : BitVec 5) (b : BitVec 5)
  /-- SUB (R100). -/
  | sub (c : Fin 256) (d : BitVec 5) (a : BitVec 5) (b : BitVec 5)
  /-- ADC (R100). -/
  | adc (c : Fin 256) (d : BitVec 5) (a : BitVec 5) (b : BitVec 5)
  /-- SBC (R100). -/
  | sbc (c : Fin 256) (d : BitVec 5) (a : BitVec 5) (b : BitVec 5)
  /-- CMP (R100). -/
  | cmp (c : Fin 256) (a : BitVec 5) (b : BitVec 5)
  /-- AND (R100). -/
  | and (c : Fin 256) (d : BitVec 5) (a : BitVec 5) (b : BitVec 5)
  /-- OR (R100). -/
  | or (c : Fin 256) (d : BitVec 5) (a : BitVec 5) (b : BitVec 5)
  /-- XOR (R100). -/
  | xor (c : Fin 256) (d : BitVec 5) (a : BitVec 5) (b : BitVec 5)
  /-- ANDN (R100). -/
  | andn (c : Fin 256) (d : BitVec 5) (a : BitVec 5) (b : BitVec 5)
  /-- SLL (R105). -/
  | sll (c : Fin 256) (d : BitVec 5) (a : BitVec 5) (b : BitVec 5)
  /-- SRL (R105). -/
  | srl (c : Fin 256) (d : BitVec 5) (a : BitVec 5) (b : BitVec 5)
  /-- SRA (R105). -/
  | sra (c : Fin 256) (d : BitVec 5) (a : BitVec 5) (b : BitVec 5)
  /-- ROR (R105). -/
  | ror (c : Fin 256) (d : BitVec 5) (a : BitVec 5) (b : BitVec 5)
  /-- MUL (R100). -/
  | mul (c : Fin 256) (d : BitVec 5) (a : BitVec 5) (b : BitVec 5)
  /-- MULH (R100). -/
  | mulh (c : Fin 256) (d : BitVec 5) (a : BitVec 5) (b : BitVec 5)
  /-- MULHU (R100). -/
  | mulhu (c : Fin 256) (d : BitVec 5) (a : BitVec 5) (b : BitVec 5)
  /-- DIV (R105). -/
  | div (c : Fin 256) (d : BitVec 5) (a : BitVec 5) (b : BitVec 5)
  /-- DIVU (R105). -/
  | divu (c : Fin 256) (d : BitVec 5) (a : BitVec 5) (b : BitVec 5)
  /-- REM (R105). -/
  | rem (c : Fin 256) (d : BitVec 5) (a : BitVec 5) (b : BitVec 5)
  /-- REMU (R105). -/
  | remu (c : Fin 256) (d : BitVec 5) (a : BitVec 5) (b : BitVec 5)
  /-- DIVIDE_COMPLETE (R128). -/
  | divideComplete (c : Fin 256)
  /-- CSEL (R100). -/
  | csel (c : Fin 256) (cond : BitVec 4) (d : BitVec 5) (a : BitVec 5) (b : BitVec 5)
  /-- ADDI (R99). -/
  | addi (c : Fin 256) (d : BitVec 5) (a : BitVec 5) (i : BitVec 16)
  /-- CMPI (R99). -/
  | cmpi (c : Fin 256) (a : BitVec 5) (i : BitVec 16)
  /-- ANDI (R99). -/
  | andi (c : Fin 256) (d : BitVec 5) (a : BitVec 5) (i : BitVec 16)
  /-- ORI (R99). -/
  | ori (c : Fin 256) (d : BitVec 5) (a : BitVec 5) (i : BitVec 16)
  /-- XORI (R99). -/
  | xori (c : Fin 256) (d : BitVec 5) (a : BitVec 5) (i : BitVec 16)
  /-- SHI_SLL (R99). -/
  | shiSll (c : Fin 256) (d : BitVec 5) (a : BitVec 5) (n : BitVec 5)
  /-- SHI_SRL (R99). -/
  | shiSrl (c : Fin 256) (d : BitVec 5) (a : BitVec 5) (n : BitVec 5)
  /-- SHI_SRA (R99). -/
  | shiSra (c : Fin 256) (d : BitVec 5) (a : BitVec 5) (n : BitVec 5)
  /-- SHI_ROR (R99). -/
  | shiRor (c : Fin 256) (d : BitVec 5) (a : BitVec 5) (n : BitVec 5)
  /-- LUI (R99). -/
  | lui (c : Fin 256) (d : BitVec 5) (i : BitVec 16)
  /-- LB (R99). -/
  | lb (c : Fin 256) (d : BitVec 5) (a : BitVec 5) (i : BitVec 16)
  /-- LBU (R99). -/
  | lbu (c : Fin 256) (d : BitVec 5) (a : BitVec 5) (i : BitVec 16)
  /-- LH (R99). -/
  | lh (c : Fin 256) (d : BitVec 5) (a : BitVec 5) (i : BitVec 16)
  /-- LHU (R99). -/
  | lhu (c : Fin 256) (d : BitVec 5) (a : BitVec 5) (i : BitVec 16)
  /-- LW (R99). -/
  | lw (c : Fin 256) (d : BitVec 5) (a : BitVec 5) (i : BitVec 16)
  /-- SB (R99). -/
  | sb (c : Fin 256) (b : BitVec 5) (a : BitVec 5) (i : BitVec 16)
  /-- SH (R99). -/
  | sh (c : Fin 256) (b : BitVec 5) (a : BitVec 5) (i : BitVec 16)
  /-- SW (R99). -/
  | sw (c : Fin 256) (b : BitVec 5) (a : BitVec 5) (i : BitVec 16)
  /-- BC (R110). -/
  | bc (c : Fin 256) (cond : BitVec 4) (off : BitVec 22)
  /-- J (R110). -/
  | j (c : Fin 256) (off : BitVec 26)
  /-- JAL (R99). -/
  | jal (c : Fin 256) (off : BitVec 26)
  /-- JALR (R106). -/
  | jalr (c : Fin 256) (d : BitVec 5) (a : BitVec 5) (i : BitVec 16)
  /-- LOOP (R107). -/
  | loop (c : Fin 256) (lvl : BitVec 2) (r : BitVec 5) (len : BitVec 12)
  /-- LOOPI (R107). -/
  | loopi (c : Fin 256) (lvl : BitVec 2) (n : BitVec 12) (len : BitVec 12)
  /-- MFC (R115). -/
  | mfc (c : Fin 256) (d : BitVec 5) (n : BitVec 12)
  /-- MTC (R114). -/
  | mtc (c : Fin 256) (r : BitVec 5) (n : BitVec 12)
  /-- SYSCALL (R121). -/
  | syscall (c : Fin 256) (code : BitVec 12)
  /-- ERET (R117). -/
  | eret (c : Fin 256)
  /-- BREAK (R121). -/
  | brk (c : Fin 256) (code : BitVec 12)
  /-- FENCE (R102). -/
  | fence (c : Fin 256) (cp : BitVec 1) (i : BitVec 1)
  /-- PARK (R213). -/
  | park (c : Fin 256)
  /-- INTERRUPT_ENTRY (R124). -/
  | interruptEntry (c : Fin 256)
  /-- TIMER_COMPARE_MATCH (R116). -/
  | timerCompareMatch (c : Fin 256)
  /-- WINDOW_RESPONSE (R95). -/
  | windowResponse (c : Fin 256)
  /-- BUS_TIMEOUT (R96). -/
  | busTimeout (c : Fin 256)
  /-- IMEM_PARITY_RELOAD (R61). -/
  | imemParityReload (c : Fin 256)
  /-- CELL_START (R127). -/
  | cellStart (c : Fin 256) (image : List Byte)
  /-- COPROC_ISSUE (R113). -/
  | coprocIssue (c : Fin 256) (w : Word)
  /-- TLD (R139). -/
  | tld (c : Fin 256)
  /-- TLDT (R139). -/
  | tldt (c : Fin 256)
  /-- TLDS (R139). -/
  | tlds (c : Fin 256)
  /-- TMMA (R140). -/
  | tmma (c : Fin 256)
  /-- TCLR (R141). -/
  | tclr (c : Fin 256)
  /-- TRND (R142). -/
  | trnd (c : Fin 256)
  /-- TXP (R144). -/
  | txp (c : Fin 256)
  /-- TIM (R144). -/
  | tim (c : Fin 256)
  /-- TMTC (R147). -/
  | tmtc (c : Fin 256)
  /-- TMFC (R132). -/
  | tmfc (c : Fin 256) (d : BitVec 5) (n : BitVec 7)
  /-- TSIG (R132). -/
  | tsig (c : Fin 256)
  /-- TWAIT (R132). -/
  | twait (c : Fin 256)
  /-- VLD (R152). -/
  | vld (c : Fin 256)
  /-- VST (R152). -/
  | vst (c : Fin 256)
  /-- VBC (R149). -/
  | vbc (c : Fin 256)
  /-- VADD (R149). -/
  | vadd (c : Fin 256)
  /-- VSUB (R149). -/
  | vsub (c : Fin 256)
  /-- VMUL (R149). -/
  | vmul (c : Fin 256)
  /-- VMAX (R149). -/
  | vmax (c : Fin 256)
  /-- VMIN (R149). -/
  | vmin (c : Fin 256)
  /-- VFMA (R149). -/
  | vfma (c : Fin 256)
  /-- VSEL (R149). -/
  | vsel (c : Fin 256)
  /-- VCMP (R149). -/
  | vcmp (c : Fin 256)
  /-- VHMAX (R149). -/
  | vhmax (c : Fin 256)
  /-- VCVT (R150). -/
  | vcvt (c : Fin 256)
  /-- VFN_EXP2 (R151). -/
  | vfnExp2 (c : Fin 256)
  /-- VFN_EXP (R151). -/
  | vfnExp (c : Fin 256)
  /-- VFN_LOG2 (R151). -/
  | vfnLog2 (c : Fin 256)
  /-- VFN_LOG (R151). -/
  | vfnLog (c : Fin 256)
  /-- VFN_RCP (R151). -/
  | vfnRcp (c : Fin 256)
  /-- VFN_RSQRT (R151). -/
  | vfnRsqrt (c : Fin 256)
  /-- VEXPD (R151). -/
  | vexpd (c : Fin 256)
  /-- VEXP2D (R151). -/
  | vexp2d (c : Fin 256)
  /-- VRED (R152). -/
  | vred (c : Fin 256)
  /-- VDOT (R152). -/
  | vdot (c : Fin 256)
  /-- VXCLR (R152). -/
  | vxclr (c : Fin 256)
  /-- VXRND (R152). -/
  | vxrnd (c : Fin 256)
  /-- VQUOT (R152). -/
  | vquot (c : Fin 256)
  /-- VXP (R152). -/
  | vxp (c : Fin 256)
  /-- VXIM (R152). -/
  | vxim (c : Fin 256)
  /-- VMTC (R156). -/
  | vmtc (c : Fin 256)
  /-- VMFC (R132). -/
  | vmfc (c : Fin 256) (d : BitVec 5) (n : BitVec 6)
  /-- VSIG (R132). -/
  | vsig (c : Fin 256)
  /-- VWAIT (R132). -/
  | vwait (c : Fin 256)
  /-- SINC (R196). -/
  | sinc (c : Fin 256) (r : BitVec 5) (sl : BitVec 5)
  /-- SWAIT (R199). -/
  | swait (c : Fin 256) (r : BitVec 5) (sl : BitVec 5)
  /-- STEST (R198). -/
  | stest (c : Fin 256) (d : BitVec 5) (sl : BitVec 5)
  /-- SSET (R196). -/
  | sset (c : Fin 256) (r : BitVec 5) (sl : BitVec 5)
  /-- SMTC (R204). -/
  | smtc (c : Fin 256) (r : BitVec 5) (n : BitVec 7)
  /-- SMFC (R200). -/
  | smfc (c : Fin 256) (d : BitVec 5) (n : BitVec 7)
  /-- SLUICE_WAIT_SATISFIED (R197). -/
  | sluiceWaitSatisfied (c : Fin 256) (e : Fin 4)
  /-- WAIT_WATCHDOG_TIMEOUT (R214). -/
  | waitWatchdogTimeout (c : Fin 256) (e : Fin 4)
  /-- INBOX_MESSAGE_ARRIVAL (R202). -/
  | inboxMessageArrival (c : Fin 256)
  /-- INBOX_DEPOSIT (R201). -/
  | inboxDeposit (c : Fin 256)
  /-- DQ (R206). -/
  | dq (c : Fin 256) (r : BitVec 5)
  /-- DMSG (R206). -/
  | dmsg (c : Fin 256) (r1 : BitVec 5) (r2 : BitVec 5) (ord : BitVec 1)
  /-- DMA_COPY (R207). -/
  | dmaCopy (d : DmaGo)
  /-- DMA_ZERO (R207). -/
  | dmaZero (d : DmaGo)
  /-- DMA_DESCRIPTOR_COMPLETE (R207). -/
  | dmaDescriptorComplete (c : Fin 256)
  /-- DMSG_SEND (R207). -/
  | dmsgSend (c : Fin 256)
  /-- SLU_UNPARK (R213). -/
  | sluUnpark (c : Fin 256)
  /-- BARRIER_ARRIVE (R211). -/
  | barrierArrive (c : Fin 256) (b : Fin 16) (gen : Byte)
  /-- BARRIER_ARRIVE_FRAME (R211). -/
  | barrierArriveFrame (link : RxNat) (b : Fin 16) (gen : Byte)
  /-- BARRIER_RELEASE_FRAME (R211). -/
  | barrierReleaseFrame (link : RxNat) (b : Fin 16) (gen : Byte) (status : Byte)
  /-- BARRIER_TIMEOUT (R212). -/
  | barrierTimeout (b : Fin 16)
  /-- BARRIER_DISABLE (R212). -/
  | barrierDisable (b : Fin 16)
  /-- SLU_DUMP_ARM (R215). -/
  | sluDumpArm
  /-- DUMP_CAPTURE (R215). -/
  | dumpCapture
  /-- DUMP_DONE (R215). -/
  | dumpDone
  /-- EXTENT_OWNER_WRITE (R221). -/
  | extentOwnerWrite (e : Fin 1024) (v : BitVec 10)
  /-- GRANULE_OWNER_WRITE (R221). -/
  | granuleOwnerWrite (g : Fin 4096) (v : BitVec 10)
  /-- EXTENT_SCRUB_DONE (R241). -/
  | extentScrubDone (e : Fin 1024)
  /-- GRANULE_SCRUB_DONE (R241). -/
  | granuleScrubDone (g : Fin 4096)
  /-- TRANSLATION_WALK (R223). -/
  | translationWalk (wk : Fin 17) (t : Fin 512) (ta : BitVec 48) (w : Bool) (who : PReq) (source : Fin 10)
  /-- PRQ_RECORD_WRITE (R228). -/
  | prqRecordWrite
  /-- PR_DONE (R229). -/
  | prDone
  /-- PAGE_REQUEST_DEADLINE (R229). -/
  | pageRequestDeadline (who : PReq)
  /-- TRN_INV (R224). -/
  | trnInv (scope : BitVec 4) (t : Fin 512)
  /-- TRN_INV_COMPLETE (R224). -/
  | trnInvComplete
  /-- DOORBELL_PI (R234). -/
  | doorbellPi (loc : DbLoc) (link : Option (Fin 16)) (form : Bool) (v : Word)
  /-- DOORBELL_CQH (R234). -/
  | doorbellCqh (loc : DbLoc) (link : Option (Fin 16)) (form : Bool) (v : Word)
  /-- FURROW_FETCH (R235). -/
  | furrowFetch (f : Fin 262144)
  /-- ENTRY_COMPLETION (R235). -/
  | entryCompletion (f : Fin 262144) (i : Fin 65536)
  /-- FURROW_CREATE (R237). -/
  | furrowCreate
  /-- FURROW_ENABLE (R237). -/
  | furrowEnable
  /-- FURROW_FREEZE (R237). -/
  | furrowFreeze
  /-- FURROW_RELEASE (R237). -/
  | furrowRelease
  /-- FURROW_READ (R237). -/
  | furrowRead
  /-- PCIE_COMPLETION (R253). -/
  | pcieCompletion (port : Fin 34) (tag : Fin 16384) (st : Fin 3) (poison : Bool) (data : List Byte)
  /-- PCIE_COMPLETION_TIMEOUT (R253). -/
  | pcieCompletionTimeout (port : Fin 34) (tag : Fin 16384)
  /-- P2P_REQUEST (R251). -/
  | p2pRequest (k : Fin 16) (d : P2PHead) (q : MemReq)
  /-- PERST_ASSERT (R258). -/
  | perstAssert (p : PerstEdge)
  /-- PERST_DEASSERT (R258). -/
  | perstDeassert (p : PerstEdge)
  /-- HOT_RESET (R258). -/
  | hotReset (p : Fin 2)
  /-- UP_LINK_DOWN (R258). -/
  | upLinkDown (p : Fin 2)
  /-- PORT_RESET (R259). -/
  | portReset (p : Fin 2)
  /-- FLR_INITIATE (R260). -/
  | flrInitiate (t : Fin 512)
  /-- FLR_TLP_CUTOFF (R260). -/
  | flrTlpCutoff (t : Fin 512)
  /-- FLR_COMPLETE (R260). -/
  | flrComplete (t : Fin 512)
  /-- PF_FLR (R262). -/
  | pfFlr (p : Fin 2)
  /-- VF_DISABLE (R262). -/
  | vfDisable (p : Fin 2) (n : Fin 257)
  /-- SLOT_CHAIN_SCAN (R264). -/
  | slotChainScan (di : BitVec 66)
  /-- SLOT_CONTROL_WRITE (R266). -/
  | slotControlWrite (n : Fin 8) (power : Bool) (pind : Fin 3) (aind : Fin 3) (hp : Bool)
  /-- SLOT_PERST_DEASSERT (R265). -/
  | slotPerstDeassert (n : Fin 8)
  /-- SURPRISE_DOWN (R270). -/
  | surpriseDown (k : Fin 16)
  /-- CONTAINMENT_END (R271). -/
  | containmentEnd (k : Fin 16)
  /-- POWER_STATE_WRITE (R272). -/
  | powerStateWrite (fn : Fin 514)
  /-- PME_TURN_OFF (R273). -/
  | pmeTurnOff (p : Fin 2)
  /-- WAKE (R274). -/
  | wake (reason : Fin 6) (slot : Fin 8) (fn : Fin 514)
  /-- HOST_RESUME (R275). -/
  | hostResume (fn : Fin 514)
  /-- ELS_LOSS (R277). -/
  | elsLoss (m : Fin 18)
  /-- ELS_RESTORE (R277). -/
  | elsRestore (m : Fin 18)
  /-- RETRAIN (R279). -/
  | retrain (n : Fin 36)
  /-- TRAINING_COMPLETE (R279). -/
  | trainingComplete (n : Fin 36) (remap : LinkEnd) (grp : Bool) (sg1204 : Bool) (node : BitVec 24) (credits : List (BitVec 16)) (rtt : BitVec 16) (off : BitVec 32)
  /-- TRAINING_FAIL (R278). -/
  | trainingFail (n : Fin 36)
  /-- LINK_DARK (R279). -/
  | linkDark (n : Fin 36) (dark : Bool)
  /-- ALIGNMENT_MARKER (R282). -/
  | alignmentMarker (n : Fin 36) (j : Fin 8) (pos : BitVec 64) (l : List Byte)
  /-- DATA_FRAME (R284). -/
  | dataFrame (n : RxSlot) (fr : List Byte)
  /-- CTRL_FRAME (R285). -/
  | ctrlFrame (n : Fin 36) (fr : List Byte)
  /-- IDLE_SLOT (R283). -/
  | idleSlot (n : Fin 36) (slot : List Byte)
  /-- REPLAY_TIMEOUT (R284). -/
  | replayTimeout (n : Fin 36)
  /-- KEEPALIVE_SEND (R285). -/
  | keepaliveSend (n : Fin 36)
  /-- KEEPALIVE_TIMEOUT (R285). -/
  | keepaliveTimeout (n : Fin 36)
  /-- SLEEP_ENTRY (R288). -/
  | sleepEntry (n : Fin 36)
  /-- SLEEP_FRAME (R288). -/
  | sleepFrame (n : Fin 36) (fr : List Byte)
  /-- SLEEP_EXIT (R294). -/
  | sleepExit (n : Fin 36)
  /-- TIME_EXCHANGE (R292). -/
  | timeExchange (n : Fin 36)
  /-- TIME_FRAME (R292). -/
  | timeFrame (n : RxNat) (t2 : Option DWord) (t3 : DWord)
  /-- PPS_IN_EDGE (R291). -/
  | ppsInEdge
  /-- PPS_OUT_PULSE (R290). -/
  | ppsOutPulse
  /-- TMB_SET (R290). -/
  | tmbSet (v : DWord)
  /-- TMB_RATE (R290). -/
  | tmbRate (v : Word)
  /-- TMB_CTL_WRITE (R291). -/
  | tmbCtlWrite (w : Word)
  /-- TMB_TIME_CAPTURE (R290). -/
  | tmbTimeCapture
  /-- ETH_FRAME_ARRIVAL (R299). -/
  | ethFrameArrival (p : Fin 288) (data : List Byte)
  /-- PFC_FRAME (R289). -/
  | pfcFrame (p : Fin 288) (en : BitVec 8) (times : List (BitVec 16))
  /-- FRAME_PARSE (R296); `err` is the error of an entry that the lookup reads (R304). -/
  | frameParse (n : Fin 36) (err : TabErr)
  /-- FRAME_RELEASE (R305). -/
  | frameRelease (n : Fin 36)
  /-- POST (R305). -/
  | post (f : Fin 262144) (i : Fin 65536)
  /-- SEND (R306). -/
  | send (f : Fin 262144) (i : Fin 65536)
  /-- FRAME_SELECT (R309). -/
  | frameSelect (p : Fin 288)
  /-- RULE_WRITE (R303). -/
  | ruleWrite (table : BitVec 2) (index : BitVec 14)
  /-- RULE_DELETE (R303). -/
  | ruleDelete (table : BitVec 2) (index : BitVec 14)
  /-- RULE_READ (R303); the entry read shows no error (0), a corrected one (1) or an uncorrectable one (2) (R304). -/
  | ruleRead (table : BitVec 2) (index : BitVec 14) (err : Fin 3)
  /-- SERVICE_WRITE (R311). -/
  | serviceWrite (p : Fin 288) (v : BitVec 2)
  /-- GATE_ENTRY_BOUNDARY (R312). -/
  | gateEntryBoundary (p : Fin 288)
  /-- GATE_LIST_CHANGE (R312). -/
  | gateListChange (p : Fin 288)
  /-- QUEUE_HISTOGRAM_SAMPLE (R314). -/
  | queueHistogramSample (p : Fin 288)
  /-- HISTOGRAM_CLEAR (R314). -/
  | histogramClear (q : BitVec 13) (shadow : Bool)
  /-- LATERAL_WRITE (R321). -/
  | lateralWrite (f : Fin 262144) (i : Fin 65536)
  /-- LATERAL_READ (R321). -/
  | lateralRead (f : Fin 262144) (i : Fin 65536)
  /-- ATOMIC_FADD (R321). -/
  | atomicFadd (f : Fin 262144) (i : Fin 65536)
  /-- ATOMIC_SWAP (R321). -/
  | atomicSwap (f : Fin 262144) (i : Fin 65536)
  /-- ATOMIC_CSWAP (R321). -/
  | atomicCswap (f : Fin 262144) (i : Fin 65536)
  /-- WIN_REG (R322). -/
  | winReg (f : Fin 262144) (i : Fin 65536)
  /-- WIN_DEREG (R322). -/
  | winDereg (f : Fin 262144) (i : Fin 65536)
  /-- FIRST_TRANSMISSION (R323). -/
  | firstTransmission (f : Fin 262144) (i : Fin 65536)
  /-- PACKET_RETRANSMIT (R324). -/
  | packetRetransmit (f : Fin 262144) (i : Fin 65536) (k : Fin 128)
  /-- MESSAGE_DEADLINE (R325). -/
  | messageDeadline (f : Fin 262144) (i : Fin 65536)
  /-- WRITE_PACKET (R326). -/
  | writePacket
  /-- READ_REQ_PACKET (R326). -/
  | readReqPacket
  /-- ATOMIC_PACKET (R326). -/
  | atomicPacket
  /-- ACK_PACKET (R325). -/
  | ackPacket
  /-- READ_RSP_PACKET (R332). -/
  | readRspPacket
  /-- ATOMIC_RSP_PACKET (R332). -/
  | atomicRspPacket
  /-- ACK_SEND (R326). -/
  | ackSend (node : BitVec 24) (id : Word)
  /-- FILTER_ENTRY_EXPIRY (R327). -/
  | filterEntryExpiry (node : BitVec 24) (id : Word)
  /-- CLOSING_WRITE_RELEASE (R330). -/
  | closingWriteRelease (node : BitVec 24) (src : Fin 512) (dst : Fin 512) (g : BitVec 16)
  /-- CLOSING_WRITE_DISCARD (R330). -/
  | closingWriteDiscard (node : BitVec 24) (src : Fin 512) (dst : Fin 512) (g : BitVec 16)
  /-- GROUP_ENTRY_EXPIRY (R331). -/
  | groupEntryExpiry (node : BitVec 24) (src : Fin 512) (dst : Fin 512) (g : BitVec 16)
  /-- READ (R339). -/
  | read (f : Fin 262144) (i : Fin 65536)
  /-- WRITE (R351). -/
  | write (f : Fin 262144) (i : Fin 65536)
  /-- FLUSH (R341). -/
  | flush (f : Fin 262144) (i : Fin 65536)
  /-- WRITE_ZEROES (R339). -/
  | writeZeroes (f : Fin 262144) (i : Fin 65536)
  /-- TRIM (R336). -/
  | trim (f : Fin 262144) (i : Fin 65536)
  /-- CTX_PUT (R353). -/
  | ctxPut (f : Fin 262144) (i : Fin 65536)
  /-- CTX_GET (R353). -/
  | ctxGet (f : Fin 262144) (i : Fin 65536)
  /-- NS_CREATE (R338). -/
  | nsCreate (f : Fin 262144) (i : Fin 65536)
  /-- NS_DELETE (R338). -/
  | nsDelete (f : Fin 262144) (i : Fin 65536)
  /-- GET_LOG (R344). -/
  | getLog (f : Fin 262144) (i : Fin 65536)
  /-- RESTART_QUEUE_RESUME (R345). -/
  | restartQueueResume (f : Fin 262144) (i : Fin 65536)
  /-- RESTART_QUEUE_DISCARD (R345). -/
  | restartQueueDiscard (f : Fin 262144) (i : Fin 65536)
  /-- RECOVER (R354). -/
  | recover (f : Fin 262144) (i : Fin 65536)
  /-- RANGE_LOCK_GRANT (R343). -/
  | rangeLockGrant (f : Fin 262144) (i : Fin 65536)
  /-- NVME_COMPLETION (R340). -/
  | nvmeCompletion (d : Fin 16) (id : Fin 16384) (st : BitVec 15)
  /-- NVME_TIMEOUT (R346). -/
  | nvmeTimeout (d : Fin 16) (id : Fin 16384)
  /-- DRIVE_CONTROLLER_RESET (R346). -/
  | driveControllerReset (d : Fin 16)
  /-- SMART_POLL (R334). -/
  | smartPoll (d : Fin 16) (warn : BitVec 8)
  /-- DRIVE_ACTIVATION_DONE (R350). -/
  | driveActivationDone (d : Fin 16)
  /-- STORAGE_POWER_REQUEST (R347). -/
  | storagePowerRequest (req : Fin 4)
  /-- STORAGE_POWER_TRANSITION (R347). -/
  | storagePowerTransition
  /-- SEGMENT_COMPACTION (R352). -/
  | segmentCompaction (n : Fin 8193) (u : Fin 67108864)
  /-- GCM_ENC (R355). -/
  | gcmEnc (f : Fin 262144) (i : Fin 65536)
  /-- GCM_DEC (R362). -/
  | gcmDec (f : Fin 262144) (i : Fin 65536)
  /-- TAG_VERDICT (R362). -/
  | tagVerdict (f : Fin 262144) (i : Fin 65536)
  /-- XTS_ENC (R355). -/
  | xtsEnc (f : Fin 262144) (i : Fin 65536)
  /-- XTS_DEC (R355). -/
  | xtsDec (f : Fin 262144) (i : Fin 65536)
  /-- SHA256 (R357). -/
  | sha256 (f : Fin 262144) (i : Fin 65536)
  /-- SHA384 (R357). -/
  | sha384 (f : Fin 262144) (i : Fin 65536)
  /-- SAVE (R374). -/
  | save (f : Fin 262144) (i : Fin 65536)
  /-- LOAD (R375). -/
  | load (f : Fin 262144) (i : Fin 65536)
  /-- MAN_WRITE (R377). -/
  | manWrite (f : Fin 262144) (i : Fin 65536)
  /-- MAN_READ (R378). -/
  | manRead (f : Fin 262144) (i : Fin 65536)
  /-- TRN_SAVE (R379). -/
  | trnSave (f : Fin 262144) (i : Fin 65536)
  /-- DRAIN_DEADLINE (R379). -/
  | drainDeadline
  /-- TRN_RESTORE (R381). -/
  | trnRestore (f : Fin 262144) (i : Fin 65536) (content : TurnImage)
  /-- TURNOUT_GO (R381). -/
  | turnoutGo
  /-- SIPHON_ENABLE (R365). -/
  | siphonEnable
  /-- STORE_CONNECTION_LOSS (R367). -/
  | storeConnectionLoss (k : Fin 16)
  /-- STORE_COMMAND_TIMEOUT (R367). -/
  | storeCommandTimeout (k : Fin 16) (id : BitVec 16)
  /-- KEEP_ALIVE (R366). -/
  | keepAlive
  /-- ATTEND (R177). -/
  | attend (f : Fin 262144) (i : Fin 65536) (perr : Fin 5)
  /-- APPEND (R182). -/
  | append (f : Fin 262144) (i : Fin 65536)
  /-- SCAN (R181). -/
  | scan (f : Fin 262144) (i : Fin 65536) (perr : Fin 5)
  /-- MERGE_LAX (R184). -/
  | mergeLax (f : Fin 262144) (i : Fin 65536)
  /-- MERGE_FINALISE (R184). -/
  | mergeFinalise (f : Fin 262144) (i : Fin 65536)
  /-- MERGE_ROUND (R184). -/
  | mergeRound (f : Fin 262144) (i : Fin 65536)
  /-- SAMPLE (R185). -/
  | sample (f : Fin 262144) (i : Fin 65536)
  /-- GATHER (R186). -/
  | gather (f : Fin 262144) (i : Fin 65536) (perr : Fin 5)
  /-- RUN (R187). -/
  | run (f : Fin 262144) (i : Fin 65536)
  /-- RUN_TIMEOUT (R187). -/
  | runTimeout (f : Fin 262144) (i : Fin 65536)
  /-- MIMIN_CREATE (R188). -/
  | miminCreate (f : Fin 262144) (i : Fin 65536)
  /-- MIMIN_DESTROY (R188). -/
  | miminDestroy (f : Fin 262144) (i : Fin 65536)
  /-- PIN (R168). -/
  | pin (f : Fin 262144) (i : Fin 65536)
  /-- UNPIN (R168). -/
  | unpin (f : Fin 262144) (i : Fin 65536)
  /-- TRUNCATE (R183). -/
  | truncate (f : Fin 262144) (i : Fin 65536)
  /-- TWIN_COMPARE (R189). -/
  | twinCompare (f : Fin 262144) (i : Fin 65536) (r : TwinEnd)
  /-- TURNOUT_CREATE (R387). -/
  | turnoutCreate
  /-- TURNOUT_DESTROY (R390). -/
  | turnoutDestroy
  /-- TURNOUT_RESET (R389). -/
  | turnoutReset
  /-- KEY_LOAD (R388). -/
  | keyLoad
  /-- KEY_FREE (R388). -/
  | keyFree
  /-- TURNOUT_COMMAND_BUSY (R385). -/
  | turnoutCommandBusy
  /-- CHANNEL_UP_PI (R393). -/
  | channelUpPi (t : Fin 512) (v : BitVec 16)
  /-- CHANNEL_UP_CI (R393). -/
  | channelUpCi (t : Fin 512) (v : BitVec 16)
  /-- CHANNEL_DN_PI (R393). -/
  | channelDnPi (t : Fin 512) (v : BitVec 16)
  /-- CHANNEL_DN_CI (R393). -/
  | channelDnCi (t : Fin 512) (v : BitVec 16)
  /-- POWER_ON (R440). -/
  | powerOn
  /-- POWER_ON_RELEASE (R397). -/
  | powerOnRelease (straps : BitVec 3) (locked : BitVec 16)
  /-- FUSE_SENSE_DONE (R397). -/
  | fuseSenseDone (reach : DWord) (k0 : FuseKey) (k1 : FuseKey) (k2 : FuseKey) (k3 : FuseKey) (rollback : Fin 64) (test : Bool) (avs : List (BitVec 16)) (factory : List Word)
  /-- OPTION_FETCH_DONE (R399). -/
  | optionFetchDone (nor : Bool) (a : List Byte) (b : List Byte)
  /-- IMAGE_APPLY_DONE (R402). -/
  | imageApplyDone (data : List Byte)
  /-- SELF_TEST_DONE (R411). -/
  | selfTestDone (recs : List BistRec)
  /-- SELF_TEST_ABORT (R410). -/
  | selfTestAbort
  /-- FIRMWARE_LOAD (R413). -/
  | firmwareLoad (err : Bool) (runtime : List Byte)
  /-- FIRMWARE_ACTIVATE (R418). -/
  | firmwareActivate (err : Bool) (runtime : List Byte)
  /-- SVN_COMMIT (R414). -/
  | svnCommit
  /-- FIRMWARE_READY (R398). -/
  | firmwareReady
  /-- BOOT_TIMEOUT (R413). -/
  | bootTimeout
  /-- COMPONENT_CRASH (R417). -/
  | componentCrash (k : Fin 8)
  /-- COMPONENT_HEARTBEAT_MISS (R417). -/
  | componentHeartbeatMiss (k : Fin 8)
  /-- MANAGEMENT_WATCHDOG (R404). -/
  | managementWatchdog
  /-- SYS_RST (R406). -/
  | sysRst (width : DWord)
  /-- RST_SW (R403). -/
  | rstSw (key : Byte)
  /-- CHIP_RESET (R408). -/
  | chipReset (i : Fin 16)
  /-- FULL_RESET (R408). -/
  | fullReset (i : Fin 16)
  /-- RESET_RELEASE (R405). -/
  | resetRelease (locked : BitVec 16)
  /-- THERMAL_TRIP (R448). -/
  | thermalTrip (k : Fin 24)
  /-- SUPPLY_FAULT (R441). -/
  | supplyFault (rail : Fin 9)
  /-- FAULT_WINDOW_CLOSE (R425). -/
  | faultWindowClose (src : Fin 512)
  /-- FAULT_CLEAR_ACTIVE (R426). -/
  | faultClearActive (src : Fin 512)
  /-- FAULT_CLEAR_LASTING (R426). -/
  | faultClearLasting (src : Fin 512)
  /-- RECOVERY_END (R427). -/
  | recoveryEnd
  /-- FAULT_INJECT (R429). -/
  | faultInject (cls : Fin 4) (src : BitVec 9) (code : Byte) (detail : BitVec 24)
  /-- TEL_SNAP_ARM (R431). -/
  | telSnapArm
  /-- SNAPSHOT_COPY (R431). -/
  | snapshotCopy
  /-- DITCH_RIDER_POLL (R432). -/
  | ditchRiderPoll
  /-- EXTEST (R433). -/
  | extest
  /-- SAMPLE_PRELOAD (R433). -/
  | samplePreload (data : List Byte)
  /-- BYPASS (R433). -/
  | bypass (code : Byte)
  /-- DSEL (R433). -/
  | dsel (c : Fin 256)
  /-- DDATA (R433). -/
  | ddata (w : DWord)
  /-- DEBUG_STATUS (R435). -/
  | debugStatus
  /-- CLAIM (R434). -/
  | claim
  /-- DEBUG_RELEASE (R433). -/
  | debugRelease
  /-- HALT (R435). -/
  | halt
  /-- RESUME (R435). -/
  | resume
  /-- STEP (R435). -/
  | step
  /-- RD_REG (R434). -/
  | rdReg (arg : Word)
  /-- WR_REG (R434). -/
  | wrReg (arg : Word)
  /-- RD_MEM (R434). -/
  | rdMem (a : Word)
  /-- WR_MEM (R434). -/
  | wrMem (a : Word)
  /-- DEBUG_RESET (R434). -/
  | debugReset
  /-- BREAKPOINT_HIT (R435). -/
  | breakpointHit (c : Fin 256)
  /-- DEBUG_NONCE_REQUEST (R436). -/
  | debugNonceRequest
  /-- DEBUG_VERIFY (R436). -/
  | debugVerify
  /-- DEBUG_LOCK (R436). -/
  | debugLock
  /-- DEBUG_UNLOCK_EXPIRY (R436). -/
  | debugUnlockExpiry
  /-- NONCE_VOID (R436). -/
  | nonceVoid
  /-- POWER_MEASUREMENT (R445). -/
  | powerMeasurement (l : List (Fin 11 × BitVec 16))
  /-- PROCHOT_ASSERT (R446). -/
  | prochotAssert
  /-- THERMAL_SENSOR_READ (R447). -/
  | thermalSensorRead (t : List Byte)
  /-- DROOP_TRIP (R443). -/
  | droopTrip (r : Fin 16)
  /-- DROOP_HOLD_END (R443). -/
  | droopHoldEnd (r : Fin 16)
  /-- REGULATOR_TIMEOUT (R456). -/
  | regulatorTimeout (rail : Fin 11)
  /-- SMBUS_REQUEST (R451). -/
  | smbusRequest (r : SideReq)
  /-- SET_TOD (R452). -/
  | setTod (v : DWord)
  /-- I2C_TRANSACTION (R453). -/
  | i2cTransaction (outcome : Fin 3)
  /-- I2C_BUS_CLEAR (R455). -/
  | i2cBusClear (bus : Fin 2) (pulses : Fin 10) (found : Fin 3)
  /-- HEALTH_TOGGLE (R457). -/
  | healthToggle
  /-- PULLUP_TEST (R459). -/
  | pullupTest (pin : Fin 48) (fell : Bool)
  /-- PAD_SHORT_DETECT (R458). -/
  | padShortDetect (pin : Fin 48)
  /-- ILLEGAL_INSTRUCTION (R126). -/
  | illegalInstruction (c : Fin 256) (w : Word)
  /-- TIME_SOURCE_LOST (R293). -/
  | timeSourceLost
  /-- STORE_TARGET_COMPLETION (R367). -/
  | storeTargetCompletion (k : Fin 16) (id : BitVec 16) (st : Fin 3) (data : List Byte)
  /-- STORE_CONNECTION_OPEN (R365). -/
  | storeConnectionOpen (k : Fin 16) (queues : Fin 9) (lbaOk : Bool)
  /-- DP_LINK_UP (R263). -/
  | dpLinkUp (k : Fin 16)
  /-- AUX_POWER_ON (R442). -/
  | auxPowerOn
  /-- REFCLK_25M_LOSS (R459). -/
  | refclk25mLoss
  /-- PROCHOT_RELEASE (R446). -/
  | prochotRelease
  /-- PCS_LOCK_LOSS (R279). -/
  | pcsLockLoss (n : Fin 36)
  /-- ACTIVATION_COMPLETE (R418). -/
  | activationComplete
  /-- DRIVE_CONTROLLER_START (R333). -/
  | driveControllerStart (d : Fin 16) (ok : Bool) (worn : Bool) (slabs : BitVec 24)
deriving DecidableEq, Repr

end Sys2Proof
end

