-- ==== Sys2Proof/Decode.lean ====
section
/-! DEFINITION. Decode.lean: the command a word of the table spells. The table gives no row any bits: the block is not driven by
encoded words. (The Kiben instruction words that cells hold are decoded in Machine/KDecode.lean.)
Choices beyond the words of the spec: log entries DESIGN CHOICE 11. -/

namespace Sys2Proof

/-- No row of the command table has bits, so no word spells a command. -/
def decodeTableWord (nbits w : Nat) : Option Instr :=
  match nbits, w with
  | _, _ => none

end Sys2Proof
end

