-- ==== Sys2Proof/Machine/Crypto.lean ====
section
/-! DEFINITION. Machine/Crypto.lean: the public algorithms that the spec names and does not write out: SHA-256 and
SHA-384, AES with GCM and XTS, the CRCs and ECDSA P-384 verification. Taken from their standards (PRESUMED, log entry 7).
Choices beyond the words of the spec: log entries PRESUMED 7. -/

namespace Sys2Proof.Machine

/-- The round constants of SHA-256 (FIPS 180-4). -/
def sha256K : List Nat :=
  [0x428a2f98, 0x71374491, 0xb5c0fbcf, 0xe9b5dba5, 0x3956c25b, 0x59f111f1, 0x923f82a4, 0xab1c5ed5] ++
  [0xd807aa98, 0x12835b01, 0x243185be, 0x550c7dc3, 0x72be5d74, 0x80deb1fe, 0x9bdc06a7, 0xc19bf174] ++
  [0xe49b69c1, 0xefbe4786, 0x0fc19dc6, 0x240ca1cc, 0x2de92c6f, 0x4a7484aa, 0x5cb0a9dc, 0x76f988da] ++
  [0x983e5152, 0xa831c66d, 0xb00327c8, 0xbf597fc7, 0xc6e00bf3, 0xd5a79147, 0x06ca6351, 0x14292967] ++
  [0x27b70a85, 0x2e1b2138, 0x4d2c6dfc, 0x53380d13, 0x650a7354, 0x766a0abb, 0x81c2c92e, 0x92722c85] ++
  [0xa2bfe8a1, 0xa81a664b, 0xc24b8b70, 0xc76c51a3, 0xd192e819, 0xd6990624, 0xf40e3585, 0x106aa070] ++
  [0x19a4c116, 0x1e376c08, 0x2748774c, 0x34b0bcb5, 0x391c0cb3, 0x4ed8aa4a, 0x5b9cca4f, 0x682e6ff3] ++
  [0x748f82ee, 0x78a5636f, 0x84c87814, 0x8cc70208, 0x90befffa, 0xa4506ceb, 0xbef9a3f7, 0xc67178f2]

/-- The round constants of SHA-384 (FIPS 180-4). -/
def sha512K : List Nat :=
  [0x428a2f98d728ae22, 0x7137449123ef65cd, 0xb5c0fbcfec4d3b2f, 0xe9b5dba58189dbbc] ++
  [0x3956c25bf348b538, 0x59f111f1b605d019, 0x923f82a4af194f9b, 0xab1c5ed5da6d8118] ++
  [0xd807aa98a3030242, 0x12835b0145706fbe, 0x243185be4ee4b28c, 0x550c7dc3d5ffb4e2] ++
  [0x72be5d74f27b896f, 0x80deb1fe3b1696b1, 0x9bdc06a725c71235, 0xc19bf174cf692694] ++
  [0xe49b69c19ef14ad2, 0xefbe4786384f25e3, 0x0fc19dc68b8cd5b5, 0x240ca1cc77ac9c65] ++
  [0x2de92c6f592b0275, 0x4a7484aa6ea6e483, 0x5cb0a9dcbd41fbd4, 0x76f988da831153b5] ++
  [0x983e5152ee66dfab, 0xa831c66d2db43210, 0xb00327c898fb213f, 0xbf597fc7beef0ee4] ++
  [0xc6e00bf33da88fc2, 0xd5a79147930aa725, 0x06ca6351e003826f, 0x142929670a0e6e70] ++
  [0x27b70a8546d22ffc, 0x2e1b21385c26c926, 0x4d2c6dfc5ac42aed, 0x53380d139d95b3df] ++
  [0x650a73548baf63de, 0x766a0abb3c77b2a8, 0x81c2c92e47edaee6, 0x92722c851482353b] ++
  [0xa2bfe8a14cf10364, 0xa81a664bbc423001, 0xc24b8b70d0f89791, 0xc76c51a30654be30] ++
  [0xd192e819d6ef5218, 0xd69906245565a910, 0xf40e35855771202a, 0x106aa07032bbd1b8] ++
  [0x19a4c116b8d2d0c8, 0x1e376c085141ab53, 0x2748774cdf8eeb99, 0x34b0bcb5e19b48a8] ++
  [0x391c0cb3c5c95a63, 0x4ed8aa4ae3418acb, 0x5b9cca4f7763e373, 0x682e6ff3d6b2b8a3] ++
  [0x748f82ee5defb2fc, 0x78a5636f43172f60, 0x84c87814a1f0ab72, 0x8cc702081a6439ec] ++
  [0x90befffa23631e28, 0xa4506cebde82bde9, 0xbef9a3f7b2c67915, 0xc67178f2e372532b] ++
  [0xca273eceea26619c, 0xd186b8c721c0c207, 0xeada7dd6cde0eb1e, 0xf57d4f7fee6ed178] ++
  [0x06f067aa72176fba, 0x0a637dc5a2c898a6, 0x113f9804bef90dae, 0x1b710b35131c471b] ++
  [0x28db77f523047d84, 0x32caab7b40c72493, 0x3c9ebe0a15c9bebc, 0x431d67c49c100d4c] ++
  [0x4cc5d4becb3e42b6, 0x597f299cfc657e2a, 0x5fcb6fab3ad6faec, 0x6c44198c4a475817]

/-- The initial hash value of SHA-256. -/
def sha256H : List Nat :=
  [0x6a09e667, 0xbb67ae85, 0x3c6ef372, 0xa54ff53a, 0x510e527f, 0x9b05688c, 0x1f83d9ab, 0x5be0cd19]

/-- The initial hash value of SHA-384. -/
def sha384H : List Nat :=
  [0xcbbb9d5dc1059ed8, 0x629a292a367cd507, 0x9159015a3070dd17, 0x152fecd8f70e5939] ++
  [0x67332667ffc00b31, 0x8eb44a8768581511, 0xdb0c2e0d64f98fa7, 0x47b5481dbefa4fa4]

/-- The AES S-box (FIPS 197). -/
def aesSbox : List Nat :=
  [0x63, 0x7c, 0x77, 0x7b, 0xf2, 0x6b, 0x6f, 0xc5, 0x30, 0x01, 0x67, 0x2b, 0xfe, 0xd7, 0xab, 0x76] ++
  [0xca, 0x82, 0xc9, 0x7d, 0xfa, 0x59, 0x47, 0xf0, 0xad, 0xd4, 0xa2, 0xaf, 0x9c, 0xa4, 0x72, 0xc0] ++
  [0xb7, 0xfd, 0x93, 0x26, 0x36, 0x3f, 0xf7, 0xcc, 0x34, 0xa5, 0xe5, 0xf1, 0x71, 0xd8, 0x31, 0x15] ++
  [0x04, 0xc7, 0x23, 0xc3, 0x18, 0x96, 0x05, 0x9a, 0x07, 0x12, 0x80, 0xe2, 0xeb, 0x27, 0xb2, 0x75] ++
  [0x09, 0x83, 0x2c, 0x1a, 0x1b, 0x6e, 0x5a, 0xa0, 0x52, 0x3b, 0xd6, 0xb3, 0x29, 0xe3, 0x2f, 0x84] ++
  [0x53, 0xd1, 0x00, 0xed, 0x20, 0xfc, 0xb1, 0x5b, 0x6a, 0xcb, 0xbe, 0x39, 0x4a, 0x4c, 0x58, 0xcf] ++
  [0xd0, 0xef, 0xaa, 0xfb, 0x43, 0x4d, 0x33, 0x85, 0x45, 0xf9, 0x02, 0x7f, 0x50, 0x3c, 0x9f, 0xa8] ++
  [0x51, 0xa3, 0x40, 0x8f, 0x92, 0x9d, 0x38, 0xf5, 0xbc, 0xb6, 0xda, 0x21, 0x10, 0xff, 0xf3, 0xd2] ++
  [0xcd, 0x0c, 0x13, 0xec, 0x5f, 0x97, 0x44, 0x17, 0xc4, 0xa7, 0x7e, 0x3d, 0x64, 0x5d, 0x19, 0x73] ++
  [0x60, 0x81, 0x4f, 0xdc, 0x22, 0x2a, 0x90, 0x88, 0x46, 0xee, 0xb8, 0x14, 0xde, 0x5e, 0x0b, 0xdb] ++
  [0xe0, 0x32, 0x3a, 0x0a, 0x49, 0x06, 0x24, 0x5c, 0xc2, 0xd3, 0xac, 0x62, 0x91, 0x95, 0xe4, 0x79] ++
  [0xe7, 0xc8, 0x37, 0x6d, 0x8d, 0xd5, 0x4e, 0xa9, 0x6c, 0x56, 0xf4, 0xea, 0x65, 0x7a, 0xae, 0x08] ++
  [0xba, 0x78, 0x25, 0x2e, 0x1c, 0xa6, 0xb4, 0xc6, 0xe8, 0xdd, 0x74, 0x1f, 0x4b, 0xbd, 0x8b, 0x8a] ++
  [0x70, 0x3e, 0xb5, 0x66, 0x48, 0x03, 0xf6, 0x0e, 0x61, 0x35, 0x57, 0xb9, 0x86, 0xc1, 0x1d, 0x9e] ++
  [0xe1, 0xf8, 0x98, 0x11, 0x69, 0xd9, 0x8e, 0x94, 0x9b, 0x1e, 0x87, 0xe9, 0xce, 0x55, 0x28, 0xdf] ++
  [0x8c, 0xa1, 0x89, 0x0d, 0xbf, 0xe6, 0x42, 0x68, 0x41, 0x99, 0x2d, 0x0f, 0xb0, 0x54, 0xbb, 0x16]


/-! ### SHA-2 -/

/-- One SHA-256 schedule word from the sixteen before it (newest first). -/
def sha256Next (w : List Word) : Word :=
  let g (i : Nat) : Word := w.getD i 0
  let s0 := let x := g 14; (x.rotateRight 7) ^^^ (x.rotateRight 18) ^^^ (x >>> 3)
  let s1 := let x := g 1; (x.rotateRight 17) ^^^ (x.rotateRight 19) ^^^ (x >>> 10)
  g 15 + s0 + g 6 + s1

/-- The SHA-256 message schedule, newest word first. -/
def sha256Sched : Nat → List Word → List Word
  | 0, w => w
  | n + 1, w => sha256Sched n (sha256Next w :: w)

/-- One SHA-256 round on the eight working variables. -/
def sha256Round (v : List Word) (kw : Word) : List Word :=
  match v with
  | [a, b, c, d, e, f, g, h] =>
    let t1 := h + ((e.rotateRight 6) ^^^ (e.rotateRight 11) ^^^ (e.rotateRight 25)) +
      ((e &&& f) ^^^ (~~~e &&& g)) + kw
    let t2 := ((a.rotateRight 2) ^^^ (a.rotateRight 13) ^^^ (a.rotateRight 22)) +
      ((a &&& b) ^^^ (a &&& c) ^^^ (b &&& c))
    [t1 + t2, a, b, c, d + t1, e, f, g]
  | v => v

/-- The SHA-256 compression of one 64-byte block into a chaining value. -/
def sha256Block (h : List Word) (blk : List Byte) : List Word :=
  let w0 := (chunks 4 16 blk).map (fun b => BitVec.ofNat 32 (beNat b))
  let w := (sha256Sched 48 w0.reverse).reverse
  let v := (w.zip (sha256K.map (BitVec.ofNat 32))).foldl (fun v p => sha256Round v (p.1 + p.2)) h
  List.zipWith (fun a b => a + b) h v

/-- One SHA-512 schedule word from the sixteen before it (newest first). -/
def sha512Next (w : List DWord) : DWord :=
  let g (i : Nat) : DWord := w.getD i 0
  let s0 := let x := g 14; (x.rotateRight 1) ^^^ (x.rotateRight 8) ^^^ (x >>> 7)
  let s1 := let x := g 1; (x.rotateRight 19) ^^^ (x.rotateRight 61) ^^^ (x >>> 6)
  g 15 + s0 + g 6 + s1

/-- The SHA-512 message schedule, newest word first. -/
def sha512Sched : Nat → List DWord → List DWord
  | 0, w => w
  | n + 1, w => sha512Sched n (sha512Next w :: w)

/-- One SHA-512 round on the eight working variables. -/
def sha512Round (v : List DWord) (kw : DWord) : List DWord :=
  match v with
  | [a, b, c, d, e, f, g, h] =>
    let t1 := h + ((e.rotateRight 14) ^^^ (e.rotateRight 18) ^^^ (e.rotateRight 41)) +
      ((e &&& f) ^^^ (~~~e &&& g)) + kw
    let t2 := ((a.rotateRight 28) ^^^ (a.rotateRight 34) ^^^ (a.rotateRight 39)) +
      ((a &&& b) ^^^ (a &&& c) ^^^ (b &&& c))
    [t1 + t2, a, b, c, d + t1, e, f, g]
  | v => v

/-- The SHA-384 compression of one 128-byte block into a chaining value. -/
def sha512Block (h : List DWord) (blk : List Byte) : List DWord :=
  let w0 := (chunks 8 16 blk).map (fun b => BitVec.ofNat 64 (beNat b))
  let w := (sha512Sched 64 w0.reverse).reverse
  let v := (w.zip (sha512K.map (BitVec.ofNat 64))).foldl (fun v p => sha512Round v (p.1 + p.2)) h
  List.zipWith (fun a b => a + b) h v

/-- The padding of a message of `total` bytes: 80h, zeros, and the bit length in `lenBytes` big-endian bytes. -/
def shaPad (blk lenBytes total : Nat) : List Byte :=
  let z := (2 * blk - 1 - lenBytes - total % blk) % blk
  0x80 :: (List.replicate z 0 ++ natBE lenBytes (8 * total))

/-- Absorbs whole SHA-256 blocks. -/
def sha256Absorb (h : List Word) (data : List Byte) : List Word :=
  (chunks 64 (data.length / 64 + 1) data).foldl sha256Block h

/-- Absorbs whole SHA-384 blocks. -/
def sha384Absorb (h : List DWord) (data : List Byte) : List DWord :=
  (chunks 128 (data.length / 128 + 1) data).foldl sha512Block h

/-- SHA-256 of a message. -/
def sha256 (data : List Byte) : List Byte :=
  (sha256Absorb (sha256H.map (BitVec.ofNat 32)) (data ++ shaPad 64 8 data.length)).flatMap
    (fun w => natBE 4 w.toNat)

/-- SHA-384 of a message. -/
def sha384 (data : List Byte) : List Byte :=
  ((sha384Absorb (sha384H.map (BitVec.ofNat 64)) (data ++ shaPad 128 16 data.length)).take 6).flatMap
    (fun w => natBE 8 w.toNat)

/-! ### AES (FIPS 197) -/

/-- Multiplication by x in the AES field. -/
def xtime (a : Nat) : Nat := if a ≥ 128 then ((2 * a) ^^^ 0x11b) % 256 else 2 * a

/-- Multiplication in the AES field: fuel, factors, sum. -/
def gmulGo : Nat → Nat → Nat → Nat → Nat
  | 0, _, _, r => r
  | f + 1, a, b, r => gmulGo f (xtime a) (b / 2) (if b % 2 = 1 then r ^^^ a else r)

/-- Multiplication in the AES field. -/
def gmul (a b : Nat) : Nat := gmulGo 8 a b 0

/-- The S-box. -/
def sbox (x : Nat) : Nat := aesSbox.getD x 0

/-- The inverse S-box. -/
def invSbox (x : Nat) : Nat := aesSbox.idxOf x

/-- Key expansion on words of four bytes, newest first: fuel, words in the key, index, round constant. -/
def aesExpand (nk : Nat) : Nat → Nat → Nat → List (List Nat) → List (List Nat)
  | 0, _, _, ws => ws
  | f + 1, i, rc, ws =>
    let prev := ws.getD 0 []
    let t := if i % nk = 0 then
        let r := (prev.drop 1 ++ prev.take 1).map sbox
        (r.take 1).map (fun x => x ^^^ rc) ++ r.drop 1
      else if nk > 6 && i % nk = 4 then prev.map sbox
      else prev
    let w := List.zipWith (fun a b => a ^^^ b) (ws.getD (nk - 1) []) t
    aesExpand nk f (i + 1) (if i % nk = 0 then xtime rc else rc) (w :: ws)

/-- The round keys of a 16- or 32-byte key, 16 bytes each. -/
def aesKeys (key : List Byte) : List (List Nat) :=
  let nk := key.length / 4
  let ws := (chunks 4 nk (key.map BitVec.toNat)).reverse
  let all := (aesExpand nk (4 * (nk + 7) - nk) nk 1 ws).reverse
  (chunks 4 (nk + 7) all).map List.flatten

/-- XOR of two lists of numbers. -/
def xorN (a b : List Nat) : List Nat := List.zipWith (fun x y => x ^^^ y) a b

/-- ShiftRows, bytes in column order. -/
def shiftRows (s : List Nat) : List Nat :=
  (List.range 16).map (fun i => s.getD ((i + 4 * (i % 4)) % 16) 0)

/-- The inverse of ShiftRows. -/
def invShiftRows (s : List Nat) : List Nat :=
  (List.range 16).map (fun i => s.getD ((i + 16 - 4 * (i % 4)) % 16) 0)

/-- MixColumns with the four coefficients of its first row. -/
def mixCols (c : List Nat) (s : List Nat) : List Nat :=
  (List.range 16).map (fun i =>
    (List.range 4).foldl (fun x j => x ^^^ gmul (c.getD ((j + 4 - i % 4) % 4) 0) (s.getD (i / 4 * 4 + j) 0)) 0)

/-- The middle rounds of encryption. -/
def aesRounds (s : List Nat) : List (List Nat) → List Nat
  | [] => s
  | [k] => xorN (shiftRows (s.map sbox)) k
  | k :: ks => aesRounds (xorN (mixCols [2, 3, 1, 1] (shiftRows (s.map sbox))) k) ks

/-- AES encryption of one 16-byte block. -/
def aesEnc (key : List Byte) (blk : List Byte) : List Byte :=
  match aesKeys key with
  | k :: ks => (aesRounds (xorN (blk.map BitVec.toNat) k) ks).map (BitVec.ofNat 8)
  | [] => blk

/-- The rounds of decryption, over the round keys in reverse order after the first. -/
def aesInvRounds (s : List Nat) : List (List Nat) → List Nat
  | [] => s
  | [k] => xorN ((invShiftRows s).map invSbox) k
  | k :: ks => aesInvRounds (mixCols [14, 11, 13, 9] (xorN ((invShiftRows s).map invSbox) k)) ks

/-- AES decryption of one 16-byte block. -/
def aesDec (key : List Byte) (blk : List Byte) : List Byte :=
  match (aesKeys key).reverse with
  | k :: ks => (aesInvRounds (xorN (blk.map BitVec.toNat) k) ks).map (BitVec.ofNat 8)
  | [] => blk

/-- XOR of two byte lists, to the shorter length. -/
def xorB (a b : List Byte) : List Byte := List.zipWith (fun x y => x ^^^ y) a b

/-! ### GCM (SP 800-38D) -/

/-- Multiplication in the GHASH field on big-endian 128-bit numbers: fuel, multiplier, power, product. -/
def ghGo : Nat → Nat → Nat → Nat → Nat
  | 0, _, _, z => z
  | i + 1, x, v, z =>
    ghGo i x (if v % 2 = 1 then (v / 2) ^^^ (0xe1 <<< 120) else v / 2) (if x.testBit i then z ^^^ v else z)

/-- GHASH over zero-padded 16-byte blocks. -/
def ghash (h : Nat) (data : List Byte) : Nat :=
  (chunks 16 (data.length / 16 + 1) data).foldl
    (fun y b => ghGo 128 (y ^^^ beNat (padTo 16 b)) h 0) 0

/-- The counter-mode key stream from counter block `j` (12-byte IV and 32-bit counter) on. -/
def ctrStream (key iv : List Byte) (ctr : Nat) : Nat → List Byte
  | 0 => []
  | n + 1 => aesEnc key (iv ++ natBE 4 (ctr % 2 ^ 32)) ++ ctrStream key iv (ctr + 1) n

/-- Zero padding to a multiple of 16. -/
def pad16 (l : List Byte) : List Byte := l ++ List.replicate (alignUp l.length 16 - l.length) 0

/-- The GCM tag over additional data and ciphertext, for a 12-byte IV. -/
def gcmTag (key iv aad ct : List Byte) : List Byte :=
  let h := beNat (aesEnc key (List.replicate 16 0))
  let s := ghash h (pad16 aad ++ pad16 ct ++ natBE 8 (8 * aad.length) ++ natBE 8 (8 * ct.length))
  xorB (natBE 16 s) (ctrStream key iv 1 1)

/-- GCM counter-mode encryption (and decryption) of the text. -/
def gcmCrypt (key iv data : List Byte) : List Byte :=
  xorB data (ctrStream key iv 2 ((data.length + 15) / 16))

/-! ### XTS (IEEE 1619) -/

/-- Doubling of the tweak: little-endian, polynomial x^128 + x^7 + x^2 + x + 1. -/
def xtsDouble (t : Nat) : Nat := if t ≥ 2 ^ 127 then ((2 * t) ^^^ 0x87) % 2 ^ 128 else 2 * t

/-- XTS over whole 16-byte blocks: block cipher, tweak, blocks. -/
def xtsGo (f : List Byte → List Byte) : Nat → List (List Byte) → List Byte
  | _, [] => []
  | t, b :: r => xorB (f (xorB b (natLE 16 t))) (natLE 16 t) ++ xtsGo f (xtsDouble t) r

/-- XTS-AES on one data unit of whole blocks: data key, tweak key, 16-byte tweak value. -/
def xtsCrypt (enc : Bool) (k1 k2 tweak data : List Byte) : List Byte :=
  xtsGo (fun b => if enc then aesEnc k1 b else aesDec k1 b) (leNat (aesEnc k2 tweak))
    (chunks 16 (data.length / 16 + 1) data)

/-- XTS-AES on one data unit of 16 bytes or more, with ciphertext stealing for a last partial block. -/
def xtsUnit (enc : Bool) (k1 k2 tweak data : List Byte) : List Byte :=
  let r := data.length % 16
  if r = 0 then xtsCrypt enc k1 k2 tweak data
  else
    let n := data.length / 16
    let t0 := leNat (aesEnc k2 tweak)
    let tw (i : Nat) : Nat := (List.range i).foldl (fun t _ => xtsDouble t) t0
    let f (t : Nat) (b : List Byte) : List Byte :=
      xorB ((if enc then aesEnc k1 else aesDec k1) (xorB b (natLE 16 t))) (natLE 16 t)
    let head := xtsCrypt enc k1 k2 tweak (data.take (16 * (n - 1)))
    let last := (data.drop (16 * (n - 1))).take 16
    let tail := data.drop (16 * n)
    let c1 := f (tw (if enc then n - 1 else n)) last
    let c2 := f (tw (if enc then n else n - 1)) (tail ++ c1.drop r)
    head ++ c2 ++ c1.take r

/-! ### CRCs (reflected, all-ones start and final inversion) -/

/-- One byte through a reflected CRC-32 of the given polynomial. -/
def crcByte (poly : Nat) : Nat → Nat → Nat
  | 0, c => c
  | n + 1, c => crcByte poly n (if c % 2 = 1 then (c / 2) ^^^ poly else c / 2)

/-- A reflected CRC-32. -/
def crcOf (poly : Nat) (l : List Byte) : Nat :=
  (l.foldl (fun c b => crcByte poly 8 (c ^^^ b.toNat)) 0xFFFFFFFF) ^^^ 0xFFFFFFFF

/-- CRC-32 of IEEE 802.3. -/
def crc32 (l : List Byte) : Nat := crcOf 0xEDB88320 l

/-- CRC-32C (Castagnoli). -/
def crc32c (l : List Byte) : Nat := crcOf 0x82F63B78 l

/-! ### ECDSA P-384 (FIPS 186) -/

/-- The field prime of P-384. -/
def p384P : Nat := 2 ^ 384 - 2 ^ 128 - 2 ^ 96 + 2 ^ 32 - 1
/-- The coefficient b. -/
def p384B : Nat := 0xb3312fa7e23ee7e4988e056be3f82d19181d9c6efe8141120314088f5013875ac656398d8a2ed19d2a85c8edd3ec2aef
/-- The base point's x. -/
def p384Gx : Nat := 0xaa87ca22be8b05378eb1c71ef320ad746e1d3b628ba79b9859f741e082542a385502f25dbf55296c3a545e3872760ab7
/-- The base point's y. -/
def p384Gy : Nat := 0x3617de4a96262c6f5d9e98bf9292dc29f8f41dbd289a147ce9da3113b5f0b8c00a60b1ce1d7e819d7a431d7c90ea0e5f
/-- The order of the base point. -/
def p384N : Nat := 0xffffffffffffffffffffffffffffffffffffffffffffffffc7634d81f4372ddf581a0db248b0a77aecec196accc52973

/-- Modular power, over the exponent's hexadecimal digits from the top. -/
def powMod (m b : Nat) : Nat → Nat → Nat → Nat
  | 0, _, r => r
  | i + 1, e, r => powMod m b i e (r ^ 16 * b ^ (e >>> (4 * i) % 16) % m)

/-- The inverse modulo a prime, by Fermat. -/
def invMod (m a : Nat) : Nat := powMod m (a % m) 96 (m - 2) 1

/-- Addition of affine points of P-384, none being the point at infinity. -/
def ecAdd (a b : Option (Nat × Nat)) : Option (Nat × Nat) :=
  match a, b with
  | none, b => b
  | a, none => a
  | some (x1, y1), some (x2, y2) =>
    let p := p384P
    if x1 = x2 && (y1 + y2) % p = 0 then none
    else
      let l := if x1 = x2 then (3 * x1 * x1 + (p - 3)) * invMod p (2 * y1) % p
        else (y2 + p - y1) * invMod p (x2 + p - x1) % p
      let x := (l * l + 2 * p - x1 - x2) % p
      some (x, (l * (x1 + p - x) + p - y1) % p)

/-- Scalar multiplication over the scalar's bits from the top. -/
def ecMul (k : Nat) (g : Option (Nat × Nat)) : Nat → Option (Nat × Nat) → Option (Nat × Nat)
  | 0, r => r
  | i + 1, r => ecMul k g i (let d := ecAdd r r; if k.testBit i then ecAdd d g else d)

/-- ECDSA P-384 verification of a 48-byte digest, a public key (x, y) and a signature (r, s), 48 big-endian
bytes each. -/
def ecdsaVerify (digest pub sig : List Byte) : Bool :=
  let x := beNat (pub.take 48)
  let y := beNat ((pub.drop 48).take 48)
  let r := beNat (sig.take 48)
  let s := beNat ((sig.drop 48).take 48)
  let p := p384P
  let n := p384N
  if r = 0 || r ≥ n || s = 0 || s ≥ n || x ≥ p || y ≥ p then false
  else if y * y % p ≠ (x * x % p * x + (p - 3) * x + p384B) % p then false
  else
    let w := invMod n s
    let u1 := beNat digest * w % n
    let u2 := r * w % n
    match ecAdd (ecMul u1 (some (p384Gx, p384Gy)) 384 none) (ecMul u2 (some (x, y)) 384 none) with
    | none => false
    | some (px, _) => px % n = r

end Sys2Proof.Machine
end

