-- ==== Sys2Proof/Machine/Flags.lean ====
section
/-! DEFINITION. Machine/Flags.lean: FLAGS, the arithmetic that sets it, and the conditions (R92, R100, R103–R105). FLAGS holds
N in bit 3, Z in bit 2, C in bit 1 and V in bit 0. -/

namespace Sys2Proof.Machine

/-- FLAGS from its four bits. -/
def mkFlags (n z c v : Bool) : BitVec 4 := BitVec.ofNat 4 (8 * b2n n + 4 * b2n z + 2 * b2n c + b2n v)

/-- N. -/
def flagN (f : BitVec 4) : Bool := f.getLsbD 3
/-- Z. -/
def flagZ (f : BitVec 4) : Bool := f.getLsbD 2
/-- C. -/
def flagC (f : BitVec 4) : Bool := f.getLsbD 1
/-- V. -/
def flagV (f : BitVec 4) : Bool := f.getLsbD 0

/-- a + b + carry: the wrapped sum and its four flags (R103). C is the carry out of bit 31. -/
def addFlags (a b : Word) (cin : Bool) : Word × BitVec 4 :=
  let u := a.toNat + b.toNat + b2n cin
  let r : Word := BitVec.ofNat 32 u
  let i := a.toInt + b.toInt + b2n cin
  (r, mkFlags r.msb (r == 0) (decide (2 ^ 32 ≤ u)) (decide (r.toInt ≠ i)))

/-- a − b − (1 − notBorrow): the wrapped difference and its flags (R103). C is 1 when no borrow occurs. -/
def subFlags (a b : Word) (notBorrow : Bool) : Word × BitVec 4 :=
  let k := 1 - b2n notBorrow
  let r : Word := a - b - BitVec.ofNat 32 k
  let i := a.toInt - b.toInt - k
  (r, mkFlags r.msb (r == 0) (decide (b.toNat + k ≤ a.toNat)) (decide (r.toInt ≠ i)))

/-- N and Z from a result, C and V kept (MUL, MULH, MULHU, R103). -/
def mulFlags (f : BitVec 4) (r : Word) : BitVec 4 := mkFlags r.msb (r == 0) (flagC f) (flagV f)

/-- A condition code on FLAGS (R104); the reserved codes Eh and Fh never reach it. -/
def condHolds (c : BitVec 4) (f : BitVec 4) : Bool :=
  let n := flagN f
  let z := flagZ f
  let cc := flagC f
  let v := flagV f
  match c.toNat with
  | 0 => z | 1 => !z
  | 2 => n != v | 3 => n == v
  | 4 => z || n != v | 5 => !z && n == v
  | 6 => !cc | 7 => cc
  | 8 => !cc || z | 9 => cc && !z
  | 10 => n | 11 => !n
  | 12 => v | 13 => !v
  | _ => false

/-- Signed quotient rounding toward zero, with the results of R105 for a zero divisor and for overflow. -/
def divS (a b : Word) : Word := if b = 0 then 0xFFFFFFFF#32 else BitVec.ofInt 32 (a.toInt.tdiv b.toInt)
/-- Unsigned quotient (R105). -/
def divU (a b : Word) : Word := if b = 0 then 0xFFFFFFFF#32 else BitVec.ofNat 32 (a.toNat / b.toNat)
/-- Signed remainder, with the sign of the dividend (R105). -/
def remS (a b : Word) : Word := if b = 0 then a else BitVec.ofInt 32 (a.toInt.tmod b.toInt)
/-- Unsigned remainder (R105). -/
def remU (a b : Word) : Word := if b = 0 then a else BitVec.ofNat 32 (a.toNat % b.toNat)

/-- The result of an ALU instruction and FLAGS after it (R100, R103, R105). -/
def aluResult (op : AluOp) (a b : Word) (f : BitVec 4) : Word × BitVec 4 :=
  match op with
  | .add => addFlags a b false
  | .sub => subFlags a b true
  | .adc => addFlags a b (flagC f)
  | .sbc => subFlags a b (flagC f)
  | .and => (a &&& b, f)
  | .or => (a ||| b, f)
  | .xor => (a ^^^ b, f)
  | .andn => (a &&& ~~~b, f)
  | .sll => (a <<< (b.toNat % 32), f)
  | .srl => (a >>> (b.toNat % 32), f)
  | .sra => (a.sshiftRight (b.toNat % 32), f)
  | .ror => (a.rotateRight (b.toNat % 32), f)
  | .mul => let r := a * b; (r, mulFlags f r)
  | .mulh => let r := BitVec.ofInt 32 (a.toInt * b.toInt / 2 ^ 32); (r, mulFlags f r)
  | .mulhu => let r := BitVec.ofNat 32 (a.toNat * b.toNat / 2 ^ 32); (r, mulFlags f r)
  | .div => (divS a b, f)
  | .divu => (divU a b, f)
  | .rem => (remS a b, f)
  | .remu => (remU a b, f)

/-- Is it one of the four divisions, which take 34 cycles (R128). -/
def isDiv : AluOp → Bool
  | .div | .divu | .rem | .remu => true
  | _ => false

/-- SHI's shift types (R99): 0 SLL, 1 SRL, 2 SRA, 3 ROR. -/
def shiOp (ty : BitVec 2) : AluOp :=
  match ty.toNat with
  | 0 => .sll | 1 => .srl | 2 => .sra | _ => .ror

end Sys2Proof.Machine
end

