-- ==== Sys2Proof/Machine/Counters.lean ====
section
/-! DEFINITION. Machine/Counters.lean: the TEL catalogue: every counter register of PF0 BAR0, by ascending offset of its first
instance (R430).
Choices beyond the words of the spec: log entries DESIGN CHOICE 15, 60. -/

namespace Sys2Proof.Machine

/-- Counter registers: offset of the first instance, stride, count, bytes. -/
def counterRows : List (Nat × Nat × Nat × Nat) := [
  (0x400018, 0x0, 1, 4),
  (0x404000, 0x8, 512, 8),
  (0x708018, 0x0, 1, 4),
  (0x708020, 0x0, 1, 4),
  (0x800020, 0x0, 1, 4),
  (0x800030, 0x0, 1, 4),
  (0x900010, 0x0, 1, 4),
  (0xA00010, 0x100, 36, 4),
  (0xA00014, 0x100, 36, 4),
  (0xA00018, 0x100, 36, 4),
  (0xA0001C, 0x100, 36, 4),
  (0xA00020, 0x100, 36, 4),
  (0xB00400, 0x4, 11, 4),
  (0xB00440, 0x0, 1, 4),
  (0xB00800, 0x4, 36, 4),
  (0xD00100, 0x0, 1, 4),
  (0xD00104, 0x0, 1, 4),
  (0xD00108, 0x0, 1, 4),
  (0xD0010C, 0x0, 1, 4),
  (0xD00110, 0x0, 1, 4),
  (0xD00114, 0x0, 1, 4),
  (0xD00118, 0x0, 1, 4),
  (0xD0011C, 0x0, 1, 4),
  (0xE00200, 0x0, 1, 4),
  (0xE00204, 0x0, 1, 4),
  (0xE00208, 0x0, 1, 4),
  (0xE0020C, 0x0, 1, 4),
  (0xE00210, 0x0, 1, 4),
  (0xF00100, 0x0, 1, 4),
  (0xF00104, 0x0, 1, 4),
  (0xF00108, 0x0, 1, 4),
  (0x1000100, 0x0, 1, 4),
  (0x1000104, 0x0, 1, 4),
  (0x1000108, 0x0, 1, 4),
  (0x100010C, 0x0, 1, 4),
  (0x1100010, 0x0, 1, 4),
  (0x1100018, 0x0, 1, 4),
  (0x1100020, 0x0, 1, 4),
  (0x1200118, 0x20, 16, 4),
  (0x2000018, 0x100000, 16, 4),
  (0x2000030, 0x100000, 16, 4)]

/-- One entry of the catalogue: offset and bytes of the register. -/
def catalogue : List (Nat × Nat) := counterRows.flatMap (fun (b, st, n, w) => (List.range n).map (fun i => (b + st * i, w)))

/-- The word of TEL_CAT entry `i`: VALID, WIDE, offset / 4; 0 beyond the catalogue (R430). -/
def catWord (i : Nat) : Nat :=
  match catalogue[i]? with
  | some (off, w) => 2 ^ 31 + (if w = 8 then 2 ^ 30 else 0) + off / 4
  | none => 0

/-- The region whose clock a counter register runs on, if any. -/
def counterRegion (off : Nat) : Option Nat :=
  if 0x2000000 ≤ off ∧ off < 0x3000000 then some ((off - 0x2000000) / 0x100000) else none

end Sys2Proof.Machine
end

