-- ==== Sys2Proof/Machine/CipherState.lean ====
section
/-! DEFINITION. Machine/CipherState.lean: the key slots of the cipher engine (R360, R361). -/

namespace Sys2Proof.Machine

/-- A key slot (R360). -/
structure KeySlot where
  /-- TYPE: 0 none, so not valid; 1 AES-128; 2 AES-256; 3 XTS-256. -/
  ty : Nat
  /-- Key bytes, no more than 64; a released slot holds none, which reads as zero. -/
  key : List Byte
  /-- Owner code. -/
  owner : Nat
  /-- Generation, modulo 2^16. -/
  gen : Nat
deriving DecidableEq, Repr

/-- A slot after a CHIP reset (R361). -/
def KeySlot.reset : KeySlot := ⟨0, [], 0x200, 0⟩

/-- The cipher engine beyond its registers and the entries it holds. -/
structure Cipher where
  /-- Key slots 0–8191. -/
  slots : SMap KeySlot
  /-- The CIPHER furrow served last (R358). -/
  last : Nat
deriving DecidableEq, Repr

/-- After a CHIP reset. -/
def Cipher.reset : Cipher := ⟨[], 262143⟩

end Sys2Proof.Machine
end

