-- ==== Sys2Proof/Machine/LinkState.lean ====
section
/-! DEFINITION. Machine/LinkState.lean: the state of the optical links and of the time base beyond their registers
(R276–R294).
Choices beyond the words of the spec: log entries DESIGN CHOICE 41, 98. -/

namespace Sys2Proof.Machine

/-- A candidate of the marker search (R282). -/
structure Cand where
  /-- Bit position of its next expected marker. -/
  next : Nat
  /-- Count of its last match. -/
  cnt : Nat
  /-- Matches so far. -/
  hits : Nat
deriving DecidableEq, Repr

/-- A receive lane (R281, R282). -/
structure Lane where
  /-- Locked. -/
  locked : Bool
  /-- Expected position of the next marker, when locked. -/
  next : Nat
  /-- Count of the last expected marker, when locked. -/
  cnt : Nat
  /-- Consecutive misses. -/
  misses : Nat
  /-- Candidates, at most 32. -/
  cands : List Cand
deriving DecidableEq, Repr

/-- A lane that is searching. -/
def Lane.search : Lane := ⟨false, 0, 0, 0, []⟩

/-- A DATA frame in the replay buffer (R284). -/
structure TxFrame where
  /-- SEQ. -/
  seq : Nat
  /-- VC. -/
  vc : Nat
  /-- Payload. -/
  data : List Byte
deriving DecidableEq, Repr

/-- A DATA frame that a group's receiver holds until its members are deskewed (R287). -/
structure Skew where
  /-- The partner's transmit slot. -/
  slot : Nat
  /-- Instant of arrival. -/
  at_ : Nat
  /-- Payload. -/
  data : List Byte
deriving DecidableEq, Repr

/-- A link (R279–R294). -/
structure Link where
  /-- MODE in effect: as taken at the last training. -/
  mode : Nat
  /-- Its eight receive lanes. -/
  lanes : SMap Lane
  /-- EXP. -/
  exp : Nat
  /-- A NAK has been sent and no frame with d = 0 has arrived since. -/
  nakOut : Bool
  /-- The next frame sent carries NAK = 1. -/
  nakDue : Bool
  /-- The next frame sent must carry ACK = EXP − 1 again. -/
  ackDue : Bool
  /-- SEQ of the next DATA frame. -/
  seq : Nat
  /-- Unacknowledged DATA frames. -/
  replay : List TxFrame
  /-- Instant of the last ACK progress or replay. -/
  ackAt : Nat
  /-- Replays in a row without ACK progress. -/
  replays : Nat
  /-- Round trip measured at training, ns. -/
  rtt : Nat
  /-- Instant of the last received frame that passed its CRC. -/
  rxAt : Nat
  /-- Instant of the last frame sent. -/
  txAt : Nat
  /-- Instant of the last DATA frame in either direction. -/
  dataAt : Nat
  /-- Credits of each VC toward the partner, 64-byte units. -/
  credit : SMap Nat
  /-- Credits of each VC as trained. -/
  trained : SMap Nat
  /-- Credits of each VC to return to the partner. -/
  back : SMap Nat
  /-- A SLEEP frame 01h has been sent and not answered. -/
  sleepReq : Bool
  /-- 1 + the instant at which a failed attempt is followed by another; 0: none. -/
  retryAt : Nat
  /-- t1: departure of this side's TIME frame. -/
  t1 : Option Nat
  /-- t2, t3, t4: as the partner's TIME frame and its arrival gave them. -/
  t234 : Option (Nat × Nat × Nat)
  /-- Arrival of the partner's last TIME frame, which the next one sent returns as t2. -/
  rxTime : Option Nat
  /-- Delay of the last exchange, ns (R292). -/
  delay : Int
  /-- Instant of the last TIME exchange. -/
  timeAt : Nat
  /-- Time-gated classes: 0 free; 1 closed until resynchronisation; 2 closed until an offset within the freeboard; 3 open at
  the next entry boundary (R294); 4 closed until the first exchange after SLEEP. -/
  hold : Nat
  /-- Light has been lost with its ELS below threshold. -/
  els : Bool
  /-- The ports of the link on which 802.1Qbb is on (R289): bit k for member k. -/
  pfc : Nat
  /-- LNK_GRP as the last training took it (R287): 0 ungrouped, 1 two pairs, 2 one group of 4. -/
  grp : Nat
  /-- The link joins its running group at the next marker. -/
  join : Bool
  /-- DATA frames that the group's receiver holds, by transmit slot, under the group's first link. -/
  skew : List Skew
  /-- BARRIER frames that wait for the end of SLEEP. -/
  held : List (List Byte)
deriving DecidableEq, Repr

/-- A link after a CHIP reset. -/
def Link.reset : Link :=
  ⟨0, [], 0, false, false, false, 0, [], 0, 0, 0, 0, 0, 0, [], [], [], false, 0, none, none, none, 0, 0, 0, false, 0, 0, false, [], []⟩

/-- The time base beyond its registers (R290–R293). -/
structure Tb where
  /-- Count, TAI ns. -/
  ns : DWord
  /-- Fraction of a ns. -/
  frac : Word
  /-- Target that the next tick applies (R290). -/
  set : Option Nat
  /-- Ticks still to advance at half rate. -/
  slew : Nat
  /-- Rate correction of the hardware servo, parts per 10^9. -/
  servo : Int
  /-- 1 + the time that the last PPS edge represented; 0: none. -/
  edge : Nat
  /-- TMB_TOD_NEXT has been written since. -/
  tod : Bool
  /-- Consecutive exchanges or edges within SYNC_TOL. -/
  good : Nat
  /-- Whole seconds at the last PPS_OUT pulse. -/
  sec : Nat
  /-- PPS_OUT is high. -/
  ppsOut : Bool
  /-- Instant at which PPS_OUT falls. -/
  ppsFall : Nat
deriving DecidableEq, Repr

/-- The time base after a CHIP reset. -/
def Tb.reset : Tb := ⟨0, 0, none, 0, 0, 0, false, 0, 0, false, 0⟩

end Sys2Proof.Machine
end

