-- ==== Sys2Proof/Machine/PcieState.lean ====
section
/-! DEFINITION. Machine/PcieState.lean: the state of the host ports, the switch, the functions and the slots
(R242–R275).
Choices beyond the words of the spec: log entries PRESUMED 5. -/

namespace Sys2Proof.Machine

/-- A slot of the slot chain: the slot of DP n (R263–R267). -/
structure Slot where
  /-- Power Controller Control: on. -/
  power : Bool
  /-- Power indicator: 1 on, 2 blink, 3 off. -/
  pind : Nat
  /-- Attention indicator. -/
  aind : Nat
  /-- Outputs as the last SLC_LD latched them: PWR_EN. -/
  pwrEn : Bool
  /-- The slot's PERST_N output. -/
  perstN : Bool
  /-- PRSNT after debounce. -/
  prsnt : Bool
  /-- Consecutive scans whose PRSNT differs from it. -/
  prsntN : Nat
  /-- ATTN_BTN after debounce. -/
  attn : Bool
  /-- Consecutive scans whose ATTN_BTN differs from it. -/
  attnN : Nat
  /-- PWR_GOOD of the last good scan. -/
  good : Bool
  /-- 1 + the instant of the first scan with PWR_GOOD = 1 after PWR_EN = 1; 0: none. -/
  goodAt : Nat
  /-- In-band presence. -/
  inBand : Bool
  /-- In-Band PD Disable. -/
  ibDis : Bool
  /-- Hot-Plug Interrupt Enable. -/
  hpIrq : Bool
  /-- Slot Status: Attention Button Pressed. -/
  sAttn : Bool
  /-- Slot Status: Power Fault Detected. -/
  sFault : Bool
  /-- Slot Status: Presence Detect Changed. -/
  sPres : Bool
  /-- Slot Status: Command Completed. -/
  sCmd : Bool
  /-- A Slot Control write waits: 1 for its shift, 2 for the SLC_LD that latches it. -/
  cmdPend : Nat
  /-- PWR_EN as shifted out in the last scan. -/
  shPwr : Bool
  /-- Hot-Plug Interrupt Enable was set when the port's functions entered D3hot (R274). -/
  hpWake : Bool
  /-- Slot events whose wake has been decided, by reason (R275): bit 2 presence change, 3 attention button, 4 power fault. -/
  woke : Nat
deriving DecidableEq, Repr

/-- A slot after a reset that reaches it: powered, indicators off, nothing present. -/
def Slot.reset : Slot :=
  ⟨true, 3, 3, false, false, false, 0, false, 0, false, 0, false, false, false, false, false, false, false, 0, true, false, 0⟩

/-- A downstream link: DP n first half under n, second half under 8 + n. -/
structure DpLink where
  /-- DL_Active. -/
  active : Bool
  /-- DPC Control: [1:0] Trigger Enable, [2] Completion Control. -/
  dpcCtl : Nat
  /-- DPC Trigger Status. -/
  dpcTrig : Bool
  /-- The device contains its traffic toward the port (R270). -/
  contained : Bool
  /-- Slot Status: Data Link Layer State Changed (R263). -/
  dllsc : Bool
deriving DecidableEq, Repr

/-- A link that is not up. -/
def DpLink.reset : DpLink := ⟨false, 0, false, false, false⟩

/-- An upstream port (R242–R246, R258, R273). -/
structure UpPort where
  /-- PERSTx_N is asserted. -/
  perst : Bool
  /-- 1 + the instant of the last deassertion of PERSTx_N. -/
  perstAt : Nat
  /-- The instant until which an asserted PERSTx_N holds at least (R406). -/
  perstHold : Nat
  /-- The link is up. -/
  link : Bool
  /-- Instant from which the functions behind the internal downstream port answer configuration requests. -/
  readyAt : Nat
  /-- The link is in L2. -/
  l2 : Bool
  /-- A PME_Turn_Off has not been answered yet (R273). -/
  turnOff : Bool
  /-- VF Enable. -/
  vfEn : Bool
  /-- NumVFs. -/
  numVfs : Nat
deriving DecidableEq, Repr

/-- An upstream port after a reset. -/
def UpPort.reset : UpPort := ⟨true, 0, 0, false, 0, false, false, false, 0⟩

/-- The configuration state of a function or of a switch port: manager PF0 (512), companion PF0 (513), the VF of turnout t (t), the upstream
switch port of UPp (1024 + p), the internal downstream port (1026 + p), the downstream switch port of link k (1032 + k). -/
structure PFun where
  /-- PowerState is D3hot. -/
  d3 : Bool
  /-- PME_En. -/
  pmeEn : Bool
  /-- PME_Status. -/
  pmeSt : Bool
  /-- MSI-X Enable. -/
  msixEn : Bool
  /-- MSI-X Function Mask. -/
  fnMask : Bool
  /-- Memory Space Enable, Bus Master Enable and further command bits, as written. -/
  cmd : Nat
  /-- Device Control: [4] Enable Relaxed Ordering, [7:5] Max_Payload_Size, [14:12] Max_Read_Request_Size. -/
  devCtl : Nat
  /-- Device Control 2: [3:0] Completion Timeout Value, [4] Completion Timeout Disable, [5] ARI Forwarding Enable. -/
  devCtl2 : Nat
  /-- Link Control: [1:0] ASPM Control. -/
  linkCtl : Nat
  /-- Primary [7:0], Secondary [15:8] and Subordinate [23:16] Bus Number of a switch port (R242). -/
  bus : Nat
  /-- ACS Control of a downstream switch port (R250). -/
  acs : Nat
  /-- AER: Uncorrectable Error Status, Mask and Severity, Correctable Error Status and Mask (R250). -/
  aerUnc : Nat
  /-- Uncorrectable Error Mask. -/
  aerUncMask : Nat
  /-- Uncorrectable Error Severity. -/
  aerUncSev : Nat
  /-- Correctable Error Status. -/
  aerCor : Nat
  /-- Correctable Error Mask. -/
  aerCorMask : Nat
  /-- SR-IOV Control beyond VF Enable: [3] VF MSE, [4] ARI Capable Hierarchy. -/
  sriov : Nat
  /-- System Page Size (R247). -/
  sysPage : Nat
  /-- BARs as written, by dword: 0–5 the BARs, 6 the expansion ROM, 8–13 the VF BARs of the SR-IOV capability, 16 the Resizable BAR size. -/
  bars : SMap DWord
deriving DecidableEq, Repr

/-- A function at its reset values. -/
def PFun.reset : PFun :=
  ⟨false, false, false, false, false, 0, 0x2810, 0, 0, 0, 0, 0, 0x400000, 0x462030, 0, 0xE000, 0, 1, []⟩

/-- A wake that is pending (R274, R275). -/
structure Wake where
  /-- REASON. -/
  reason : Nat
  /-- Upstream port. -/
  port : Nat
  /-- SLOT. -/
  slot : Nat
  /-- Function for reason 1h. -/
  fn : Nat
  /-- Signalled by WAKE_N, otherwise by a PME message. -/
  waken : Bool
deriving DecidableEq, Repr

/-- A non-posted request that has left through a port (R252, R253). -/
structure NpReq where
  /-- Tag on the port. -/
  tag : Nat
  /-- Port code. -/
  port : Nat
  /-- Device physical address. -/
  addr : Nat
  /-- Bytes. -/
  len : Nat
  /-- Owner. -/
  owner : Nat
  /-- Requester. -/
  who : PReq
  /-- Turnout address that was translated for it, if one was. -/
  ta : Option Nat
  /-- Instant of issue. -/
  at_ : Nat
deriving DecidableEq, Repr

/-- The end of a non-posted request, kept for the unit that asked (R253). -/
structure PAns where
  /-- Requester. -/
  who : PReq
  /-- Device physical address. -/
  addr : Nat
  /-- STATUS: 0 data, 1 poisoned data, 3 none. -/
  st : Nat
  /-- Data. -/
  data : List Byte
  /-- Bytes asked for. -/
  len : Nat
deriving DecidableEq, Repr

/-- Progress of an FLR (R260). -/
structure Flr where
  /-- Instant at which it was accepted. -/
  at_ : Nat
  /-- The 2 µs have passed: no TLP of the VF leaves. -/
  cut : Bool
  /-- The instant from which the turnout's furrows fetch no more. -/
  stop : Nat
deriving DecidableEq, Repr

/-- Host ports, switch, functions and slots. -/
structure Pcie where
  /-- Unmasked MSI-X vectors, function × 4096 + vector. -/
  msixOn : NSet
  /-- Address and data dwords of the MSI-X tables, (function × 4096 + vector) × 4 + dword. -/
  msixTab : SMap Word
  /-- Pending MSI-X vectors. -/
  pba : NSet
  /-- Functions: manager PF0, companion PF0, VFs. -/
  fns : SMap PFun
  /-- UP0 and UP1. -/
  ups : SMap UpPort
  /-- Slots 0–7. -/
  slots : SMap Slot
  /-- Downstream links. -/
  dps : SMap DpLink
  /-- Outstanding non-posted requests. -/
  reqs : List NpReq
  /-- Ended requests whose requester has not used the answer yet. -/
  got : List PAns
  /-- FLRs in progress, by turnout. -/
  flr : SMap (Option Flr)
  /-- Pending wakes. -/
  wakes : List Wake
  /-- Bad slot frames in a row. -/
  slcBad : Nat
  /-- Good scans in a row while the chain is in fault. -/
  slcGood : Nat
  /-- WAKE_N is asserted. -/
  waken : Bool
  /-- The device is in D3cold: the main supplies were removed with every enabled upstream port in L2 (R273). -/
  cold : Bool
deriving DecidableEq, Repr

/-- After a CHIP reset. -/
def Pcie.reset : Pcie := ⟨[], [], [], [], [], [], [], [], [], [], [], 0, 0, false, false⟩

end Sys2Proof.Machine
end

