-- ==== Sys2Proof/Machine/StorageState.lean ====
section
/-! DEFINITION. Machine/StorageState.lean: the state of the storage engine and of the drives' medium (R333–R354).
Choices beyond the words of the spec: log entries DESIGN CHOICE 47, 72. -/

namespace Sys2Proof.Machine

/-- An index entry of a CONTEXT namespace (R352, R353). -/
structure CtxRec where
  /-- TURNOUT. -/
  t : Nat
  /-- CONTEXT. -/
  ctx : Nat
  /-- PAGEID. -/
  page : Nat
  /-- SEQ. -/
  seq : Nat
  /-- Byte offset in the namespace. -/
  off : Nat
  /-- LEN, payload bytes. -/
  len : Nat
  /-- TYPE is TOMBSTONE. -/
  tomb : Bool
  /-- PFMT. -/
  pfmt : Nat
deriving DecidableEq, Repr

/-- A namespace (R335–R338, R351, R352). -/
structure Ns where
  /-- Owning turnout. -/
  owner : Nat
  /-- Kind: CONTEXT. -/
  ctx : Bool
  /-- NSZE, blocks. -/
  nsze : Nat
  /-- READ_ONLY. -/
  ro : Bool
  /-- Slabs by unit: drive × 2^24 + slab. -/
  units : SMap (Option Nat)
  /-- Blocks written since their slab was allocated. -/
  written : NSet
  /-- SEQ of the next record. -/
  seq : Nat
  /-- Byte offset of the log head; 0: no segment yet. -/
  head : Nat
  /-- The index is complete: set by creation and by RECOVER, cleared by a CHIP or FULL reset (R353). -/
  indexed : Bool
  /-- The index. -/
  index : List CtxRec
  /-- An NS_DELETE of it has been fetched (R338). -/
  gone : Bool
deriving DecidableEq, Repr

/-- A change of the medium that no FLUSH has covered yet (R341). -/
structure Undo where
  /-- Fetches before the change. -/
  stamp : Nat
  /-- Drive. -/
  drive : Nat
  /-- Namespace. -/
  ns : Nat
  /-- Byte offset of the block. -/
  off : Nat
  /-- The block as it was. -/
  old : List Byte
deriving DecidableEq, Repr

/-- What an NVMe command does. -/
inductive NvKind
  | read | write | flush | zero | dealloc
deriving DecidableEq, Repr

/-- An NVMe I/O command that a drive has not ended (R333, R346). -/
structure Nvme where
  /-- Drive. -/
  drive : Nat
  /-- Command identifier. -/
  id : Nat
  /-- Furrow and index of its entry. -/
  f : Nat
  /-- Index. -/
  i : Nat
  /-- Kind. -/
  kind : NvKind
  /-- Namespace. -/
  ns : Nat
  /-- Byte offset in the namespace. -/
  off : Nat
  /-- Bytes. -/
  len : Nat
  /-- Data of a write. -/
  data : List Byte
  /-- Index entry that a CTX_PUT adds. -/
  entry : Option CtxRec
  /-- Instant of submission; deadlines suspended while the drive activates move it on (R350). -/
  at_ : Nat
  /-- Its deadline passed and an NVMe Abort was sent. -/
  aborted : Bool
deriving DecidableEq, Repr

/-- A range lock (R343). -/
structure RLock where
  /-- Furrow. -/
  f : Nat
  /-- Index. -/
  i : Nat
  /-- Order of its fetch. -/
  seq : Nat
  /-- Namespace. -/
  ns : Nat
  /-- First block. -/
  lo : Nat
  /-- Blocks. -/
  n : Nat
  /-- A READ. -/
  rd : Bool
deriving DecidableEq, Repr

/-- The storage engine. Namespaces, medium, undo list and slabs in use lie on the drives and outlive every reset. -/
structure Storage where
  /-- Namespaces by number. -/
  ns : SMap (Option Ns)
  /-- Medium: drive × 2^50 + slab × 2^26 + byte. -/
  disk : SMap Byte
  /-- Changes that no FLUSH has covered. -/
  undo : List Undo
  /-- Slabs in use, drive × 2^24 + slab. -/
  used : NSet
  /-- NVMe commands not ended. -/
  cmds : List Nvme
  /-- Range locks. -/
  locks : List RLock
  /-- Error logs by turnout, newest first, each entry 48 bytes. -/
  logs : SMap (List (List Byte))
  /-- Errors so far by turnout. -/
  errno : SMap Nat
  /-- The state that a power transition in progress leads to (R347). -/
  psTo : Nat
deriving DecidableEq, Repr

/-- After the first power-on: empty drives. -/
def Storage.reset : Storage := ⟨[], [], [], [], [], [], [], [], 0⟩

/-- What a CHIP or FULL reset leaves: the drives' contents; the index is lost (R353). -/
def Storage.chip (x : Storage) : Storage :=
  { Storage.reset with
    ns := x.ns.map (fun p => (p.1, p.2.map (fun n => { n with indexed := !n.ctx, index := [] })))
    disk := x.disk
    undo := x.undo
    used := x.used }

end Sys2Proof.Machine
end

