-- ==== Sys2Proof/Machine/SyncState.lean ====
section
/-! DEFINITION. Machine/SyncState.lean: the state of the inter-chip barriers and of the synchronisation dump beyond their
registers (R210–R212, R215, R216). -/

namespace Sys2Proof.Machine

/-- A barrier beyond SLU_BARn_CFG, LINKS and STAT. -/
structure Barrier where
  /-- Cells that have arrived in this generation. -/
  cells : NSet
  /-- Links whose ARRIVE is in, bit k for Lk. -/
  links : Nat
  /-- 1 + the instant of the first arrival's TMO expiry on the model's clock; 0: no timer. -/
  due : Nat
deriving DecidableEq, Repr

/-- No arrival. -/
def Barrier.empty : Barrier := ⟨[], 0, 0⟩

/-- Barriers and dump. -/
structure Sync where
  /-- Barriers 0–15. -/
  bars : SMap Barrier
  /-- The captured dump image, from capture until its last write is acknowledged. -/
  image : List Byte
deriving DecidableEq, Repr

/-- After a CHIP reset. -/
def Sync.reset : Sync := ⟨[], []⟩

end Sys2Proof.Machine
end

