-- ==== Sys2Proof/Machine/TurnState.lean ====
section
/-! DEFINITION. Machine/TurnState.lean: the state of turnouts beyond their registers (R382–R393). -/

namespace Sys2Proof.Machine

/-- What CREATE gave a turnout (R382, R383). -/
structure Quota where
  /-- FURROWS. -/
  furrows : Nat
  /-- MSLOTS. -/
  mslots : Nat
  /-- CONTEXTS. -/
  contexts : Nat
  /-- WINDOWS. -/
  windows : Nat
  /-- NAMESPACES. -/
  namespaces : Nat
  /-- KEYSLOTS. -/
  keyslots : Nat
  /-- TRACKER. -/
  tracker : Nat
  /-- BLOCKS. -/
  blocks : Nat
  /-- Attention cells. -/
  attn : NSet
  /-- CHANADDR. -/
  chan : Nat
deriving DecidableEq, Repr

/-- A turnout that holds nothing. -/
def Quota.none : Quota := ⟨0, 0, 0, 0, 0, 0, 0, 0, [], 0⟩

/-- A turnout command that waits or runs (R385, R390). -/
structure TCmd where
  /-- OP: 1 CREATE … 5 KEY_FREE. -/
  op : Nat
  /-- Turnout it names. -/
  t : Nat
  /-- Step reached: 0 not started, 1 waiting for entries to end, 2 its block is being read through a port. -/
  step : Nat
  /-- Instant from which its 10 ms count. -/
  at_ : Nat
deriving DecidableEq, Repr

/-- Turnouts. -/
structure Turns where
  /-- Quotas by turnout. -/
  q : SMap Quota
  /-- Mailbox instances: instance × 8192 + offset. -/
  mbox : SMap Byte
  /-- The command in progress. -/
  cmd : Option TCmd
  /-- TRN_CMD_CTL.OP as last taken, which a write of a reserved OP leaves (R9); 0: none since the reset. -/
  op : Nat
deriving DecidableEq, Repr

/-- After a CHIP reset. -/
def Turns.reset : Turns := ⟨[], [], Option.none, 0⟩

end Sys2Proof.Machine
end

