-- ==== Sys2Proof/Machine/State.lean ====
section
/-! DEFINITION. Machine/State.lean: the state of the SG3616, its reset value, and the reasons a command can stop.
Choices beyond the words of the spec: log entries DESIGN CHOICE 1, 2, 4, 16, 54. -/

namespace Sys2Proof.Machine

/-- Reasons the machine stops. -/
inductive Fault
  /-- No meaning raises it: the spec gives every command of the table an effect. Safe. -/
  | none
deriving DecidableEq, Repr

/-- Reasons a command is refused. -/
inductive Refusal
  /-- A command of the table without a meaning yet, raised by Dispatch alone; no arm raises it now. Safe. -/
  | notModelled (mnemonic : String)
deriving DecidableEq, Repr

/-- The state. -/
structure State where
  /-- Elapsed time, ns: the model's own clock, against which deadlines are taken (DESIGN CHOICE, log entry 2). -/
  clk : Nat
  /-- The model's own counter of free values drawn (DESIGN CHOICE, log entry 1). -/
  free : Nat
  /-- The model's own counter of fetches, which orders entries. -/
  seq : Nat
  /-- The PF0 BAR0 registers by offset; an unlisted register holds its reset value. -/
  regs : SMap DWord
  /-- The time base (R290). -/
  tb : Tb
  /-- Memories. -/
  m : Mems
  /-- Cells by flat number. -/
  cells : SMap Cell
  /-- Flume, merge units, units in reset, timers. -/
  fab : Fabric
  /-- Levees and page requests. -/
  lev : Levee
  /-- Furrows by ID. -/
  fur : SMap (Option Furrow)
  /-- Fetched entries not completed. -/
  infl : List Entry
  /-- Mimin. -/
  mim : Mim
  /-- Barrier units and sluice dumps. -/
  sync : Sync
  /-- Fault controller. -/
  flt : Faults
  /-- Host ports, switch, functions, slots. -/
  pcie : Pcie
  /-- Turnouts. -/
  trn : Turns
  /-- Storage. -/
  sto : Storage
  /-- Cipher key slots. -/
  cip : Cipher
  /-- Optical links. -/
  lnk : SMap Link
  /-- Parser. -/
  par : Par
  /-- Scheduler. -/
  sch : Sched
  /-- Lateral transport. -/
  lat : Lat
  /-- Siphon. -/
  sip : Siphon
  /-- Start-up, resets, firmware. -/
  boot : Boot
  /-- Board power. -/
  pwr : Pwr
  /-- Debug port. -/
  dbg : Dbg
  /-- Sideband. -/
  side : Side
  /-- What has left the device, oldest first: the model's own record. -/
  out : List Out
  /-- Commands that wait, first in, first out. -/
  pending : List Instr
deriving DecidableEq, Repr

/-- The machine right after power-on reset: released at step 2 of the bring-up, GEN_STATE FETCH, RST_CAUSE written for source 0
at level FULL (R397, R407), everything else at its reset value. -/
def State.reset : State where
  clk := 0
  free := 0
  seq := 0
  regs := [(0x100008, 0x10007)]
  tb := Tb.reset
  m := Mems.reset
  cells := []
  fab := Fabric.reset
  lev := Levee.reset
  fur := []
  infl := []
  mim := Mim.reset
  sync := Sync.reset
  flt := Faults.reset
  pcie := Pcie.reset
  trn := Turns.reset
  sto := Storage.reset
  cip := Cipher.reset
  lnk := []
  par := Par.reset
  sch := Sched.reset
  lat := Lat.reset
  sip := Siphon.reset
  boot := Boot.reset
  pwr := Pwr.reset
  dbg := Dbg.reset
  side := Side.reset
  out := []
  pending := []

end Sys2Proof.Machine
end

