-- ==== Sys2Proof/Machine/Ops.lean ====
section
/-! DEFINITION. Machine/Ops.lean: the shared operations over State: register fields, free values, fault events and their
reactions, unit resets, owner checks, memory with its check bits, translation and page requests.
Choices beyond the words of the spec: log entries DESIGN CHOICE 1, 3, 16, 25, 30, 33, 59, 60, 67, 71, 72, 73, 81, 82, 87, 96, 97; DEDUCED 8, 13, 32, 62. -/

namespace Sys2Proof.Machine

/-! ### Completion statuses (R17) -/

/-- SUCCESS. -/
def stOk : Nat := 0x00
/-- INVALID_FIELD. -/
def stField : Nat := 0x01
/-- INVALID_OPCODE. -/
def stOpcode : Nat := 0x02
/-- NO_RESOURCE. -/
def stNoRes : Nat := 0x03
/-- BUSY. -/
def stBusy : Nat := 0x04
/-- ABORTED. -/
def stAborted : Nat := 0x05
/-- AUTH_FAIL. -/
def stAuth : Nat := 0x06
/-- ACCESS_DENIED. -/
def stDenied : Nat := 0x07
/-- PAGE_WAIT_TIMEOUT. -/
def stPage : Nat := 0x08
/-- UNCERTAIN. -/
def stUncertain : Nat := 0x09
/-- NO_SPACE. -/
def stNoSpace : Nat := 0x0A
/-- READ_ONLY. -/
def stReadOnly : Nat := 0x0B
/-- MEDIA_ERROR. -/
def stMedia : Nat := 0x0C
/-- NUMERIC_FLAG. -/
def stNumeric : Nat := 0x0D
/-- FROZEN. -/
def stFrozen : Nat := 0x0E
/-- DEVICE_FAULT. -/
def stFault : Nat := 0x0F
/-- TIMEOUT. -/
def stTimeout : Nat := 0x10

/-! ### Registers -/

/-- The value of a register. -/
def regv (s : State) (off : Nat) : DWord := sget (regReset off) s.regs off

/-- Replaces a register's value. -/
def setReg (s : State) (off : Nat) (v : DWord) : State :=
  { s with regs := sput (regReset off) s.regs off v }

/-- Reads a field. -/
def rd (s : State) (f : Fld) : Nat := bits (regv s f.key).toNat f.hi f.lo

/-- Writes a field. -/
def wr (s : State) (f : Fld) (v : Nat) : State :=
  setReg s f.key (BitVec.ofNat 64 (setBits (regv s f.key).toNat f.hi f.lo v))

/-- Adds to a counter field, saturating at its maximum (R465). -/
def incF (s : State) (f : Fld) (n : Nat) : State := wr s f (min (rd s f + n) (2 ^ (f.hi + 1 - f.lo) - 1))

/-- A peak field holds the larger of its value and the occupancy (R465). -/
def peakF (s : State) (f : Fld) (v : Nat) : State := if rd s f < v then wr s f v else s

/-- Is an event that arrives now in time for a deadline: in the instant of the deadline the event wins (R12). -/
def inTime (s : State) (dl : Nat) : Bool := decide (s.clk ≤ dl)

/-- Has a deadline passed with no event: the instant of the deadline itself still belongs to the event (R12; DESIGN CHOICE, log
entry 81). -/
def overdue (s : State) (dl : Nat) : Bool := decide (dl < s.clk)

/-- Sets GEN_ERR.WRITE_IGNORED (R9). -/
def writeIgnored (s : State) : State := wr s f_GEN_ERR_WRITE_IGNORED 1

/-- The driver has loaded firmware: BOOT, OPERATIONAL or DEGRADED (R397). -/
def fwLoaded (s : State) : Bool :=
  let st := rd s f_GEN_STATE_STATE
  decide (4 ≤ st) && decide (st ≤ 6)

/-! ### Free values -/

/-- A fresh free value (DESIGN CHOICE, log entry 1). -/
def freshV (s : State) : Nat × State := ((Config.freeValue s.free).toNat, { s with free := s.free + 1 })

/-- A fresh free value below a bound. -/
def freshBelow (s : State) (n : Nat) : Nat × State := ((Config.freeValue s.free).toNat % n, { s with free := s.free + 1 })

/-- Fresh free bytes. -/
def freshBytes (s : State) : Nat → List Byte × State
  | 0 => ([], s)
  | n + 1 =>
    let (v, s) := freshV s
    let (l, s) := freshBytes s n
    (BitVec.ofNat 8 v :: l, s)

/-! ### Outputs -/

/-- Emits an output. -/
def emit (s : State) (o : Out) : State := { s with out := s.out ++ [o] }

/-- The function number of the manager PF0 in `Out.msix`. -/
def fnPF0 : Nat := 512

/-- A function's configuration state. -/
def fnOf (s : State) (fn : Nat) : PFun := sget PFun.reset s.pcie.fns fn

/-- Do the PF0 BAR0 registers beyond GEN, RST, CFG and BST answer: firmware loaded, the manager PF0 not in D3hot (R272, R397). -/
def barOpen (s : State) : Bool := fwLoaded s && !(fnOf s fnPF0).d3

/-- An upstream port. -/
def upOf (s : State) (p : Nat) : UpPort := sget UpPort.reset s.pcie.ups p

/-- A downstream link. -/
def dpOf (s : State) (k : Nat) : DpLink := sget DpLink.reset s.pcie.dps k

/-- Does the VF of a turnout exist (R245). -/
def vfExists (s : State) (t : Nat) : Bool :=
  let u := upOf s (t / 256)
  u.link && u.vfEn && decide (t % 256 < u.numVfs)

/-- The PF0 of an upstream port: the manager on MGR_UP, the companion on the other (R244). -/
def pf0Of (s : State) (p : Nat) : Nat := if rd s f_HEP_TOPO_MGR_UP = p then 512 else 513

/-- The upstream port to which DP n is assigned, if any (R243). -/
def dpUp (s : State) (n : Nat) : Option Nat :=
  match bits (rd s f_HEP_TOPO_ASSIGN) (2 * n + 1) (2 * n) with
  | 1 => some 0
  | 2 => some 1
  | _ => none

/-- The upstream port of a function. -/
def upOfFn (s : State) (fn : Nat) : Nat :=
  if fn < 512 then fn / 256 else if pf0Of s 0 = fn then 0 else 1

/-- The switch port that stands at a port code (see `PFun`). -/
def portFn (p : Nat) : Nat := if p < 2 then 1024 + p else 1030 + p

/-- The internal downstream port of an upstream port. -/
def intFn (p : Nat) : Nat := 1026 + p

/-- The hierarchy that a port code belongs to; an SP port's requests are the manager's (R218). -/
def portUp (s : State) (p : Nat) : Nat :=
  if p < 2 then p else if p < 0x12 then (dpUp s ((p - 2) % 8)).getD (rd s f_HEP_TOPO_MGR_UP) else rd s f_HEP_TOPO_MGR_UP

/-- The function in whose name a request for an owner leaves through a port (R218): the VF of a turnout, otherwise the PF0 of the port's
hierarchy (DESIGN CHOICE, log entry 96). -/
def issuer (s : State) (p owner : Nat) : Nat := if owner < 512 then owner else pf0Of s (portUp s p)

/-- The secondary bus number of a switch port. -/
def secBus (s : State) (fn : Nat) : Nat := bits (fnOf s fn).bus 15 8

/-- The routing ID of a function (R242, R245): PF0 at function 0 of bus S, VF n at PF0 + n. -/
def routingId (s : State) (fn : Nat) : Nat :=
  secBus s (intFn (upOfFn s fn)) * 256 + (if fn < 512 then fn % 256 + 1 else 0)

/-- Bytes that a TLP of a function carries at most: reads Max_Read_Request_Size, writes Max_Payload_Size (R250, R252). -/
def tlpMax (s : State) (fn : Nat) (w : Bool) : Nat :=
  if w then min 512 (128 * 2 ^ bits (fnOf s fn).devCtl 7 5) else min 4096 (128 * 2 ^ bits (fnOf s fn).devCtl 14 12)

/-- Pieces of a range of at most `m` bytes that cross no 4 KiB boundary: fuel, address, length. -/
def tlpPieces (m : Nat) : Nat → Nat → Nat → List (Nat × Nat)
  | 0, _, _ => []
  | f + 1, a, n =>
    if n = 0 then []
    else
      let k := min n (min m (4096 - a % 4096))
      (a, k) :: tlpPieces m f (a + k) (n - k)

/-- Non-posted tags of a port (R250). -/
def portTags (p : Nat) : Nat := if p < 0x12 then 4096 else 1024

/-- The lowest free tag of a port (R252). -/
def freeTag (s : State) (p : Nat) : Option Nat :=
  findBelow (fun k => s.pcie.reqs.all (fun q => !(q.port == p && q.tag == k))) (portTags p)

/-- The kept answer to a read of a requester. -/
def portAns (s : State) (who : PReq) (a n : Nat) : Option PAns :=
  s.pcie.got.find? (fun g => decide (g.who = who) && g.addr == a && g.len == n)

/-- A requester is gone, or has used its answers: what is still outstanding for it finds nobody. -/
def dropAsks (s : State) (p : PReq → Bool) : State :=
  { s with pcie := { s.pcie with
    reqs := s.pcie.reqs.map (fun r => if p r.who then { r with who := .gone } else r)
    got := s.pcie.got.filter (fun g => !p g.who) } }

/-- Is an FLR of a turnout's VF in progress (R260). -/
def inFlr (s : State) (t : Nat) : Bool := (sget none s.pcie.flr t).isSome

/-- Have the 2 µs of an FLR passed, so that no TLP of the VF leaves (R260 step 3). -/
def flrCut (s : State) (t : Nat) : Bool :=
  match sget none s.pcie.flr t with
  | some f => f.cut || decide (s.clk > f.at_ + 2000)
  | none => false

/-- Has an FLR stopped the fetches of an owner's furrows (R260 step 2). -/
def flrStops (s : State) (owner : Nat) : Bool :=
  decide (owner < 512) && (match sget none s.pcie.flr owner with
    | some f => decide (f.stop ≤ s.clk)
    | none => false)

/-- Can a vector's message leave now: unmasked, enabled, its function in D0 (R249, R272). -/
def msixOpen (s : State) (fn vec : Nat) : Bool :=
  let f := fnOf s fn
  nin s.pcie.msixOn (fn * 4096 + vec) && f.msixEn && !f.fnMask && !f.d3

/-- Signals an MSI-X vector: a vector that is masked, or whose function is in D3hot, sets its pending bit (R249, R272);
the message of a VF whose FLR has passed its 2 µs is discarded and counted (R260 step 3). -/
def msix (s : State) (fn vec : Nat) : State :=
  if fn < 512 ∧ vfExists s fn = false then s
  else if msixOpen s fn vec then
    if fn < 512 ∧ flrCut s fn = true then incF s f_HEP_FLR_DROP_COUNT 1 else emit s (.msix fn vec)
  else { s with pcie := { s.pcie with pba := nadd s.pcie.pba (fn * 4096 + vec) } }

/-- Gives a packet to the flume at its source: messages take plane 0, and a source alternates planes between its other transfers
(R75; DESIGN CHOICE, log entry 82). -/
def send (s : State) (p : Packet) : State :=
  let alt := nin s.fab.alt p.src
  { s with fab := { s.fab with
    net := s.fab.net ++ [{ p with plane := if p.ty = 0 then 0 else b2n alt, hop := 0 }]
    alt := if p.ty = 0 then s.fab.alt else if alt then ndel s.fab.alt p.src else nadd s.fab.alt p.src } }

/-- A fresh TAG of 16 bits (R78); 0 marks a request that is not sent. -/
def freshTag (s : State) : Nat × State := (s.fab.tag, { s with fab := { s.fab with tag := s.fab.tag % 65535 + 1 } })

/-- The time base in ns. -/
def now (s : State) : Nat := s.tb.ns.toNat

/-! ### Links -/

/-- A link. -/
def lnkOf (s : State) (n : Nat) : Link := sget Link.reset s.lnk n

/-- Updates a link. -/
def modLnk (s : State) (n : Nat) (g : Link → Link) : State := { s with lnk := sput Link.reset s.lnk n (g (lnkOf s n)) }

/-- A frame of a link has passed its CRC: its keepalive timer restarts (R285). -/
def linkSeen (s : State) (n : Nat) : State := modLnk s n (fun l => { l with rxAt := s.clk })

/-! ### Cells -/

/-- A cell. -/
def cellOf (s : State) (c : Nat) : Cell := sget Cell.reset s.cells c

/-- Replaces a cell. -/
def setCell (s : State) (c : Nat) (x : Cell) : State := { s with cells := sput Cell.reset s.cells c x }

/-- Updates a cell. -/
def modCell (s : State) (c : Nat) (f : Cell → Cell) : State := setCell s c (f (cellOf s c))

/-- The block of a flat cell number (R56). -/
def blockOf (c : Nat) : Nat := c / 4
/-- The region of a flat cell number (R56). -/
def regionOf (c : Nat) : Nat := c / 16

/-- Is a cell held in reset, by its own reset or by one that contains it (R84, R85). -/
def cellInReset (s : State) (c : Nat) : Bool :=
  (cellOf s c).inReset || nin s.fab.blockRst (blockOf c) || nin s.fab.regionRst (regionOf c)

/-- The router index of a block (R72). -/
def routerOf (k : Nat) : Nat :=
  let r := k / 4
  let b := k % 4
  8 * (2 * (r / 4) + b / 2) + (2 * (r % 4) + b % 2)

/-- The endpoint of a cell (R79). -/
def endpointOf (c : Nat) : Nat := 64 * routerOf (blockOf c) + 8 * (c % 4)

/-- The block whose router has an index. -/
def blockAtRouter (i : Nat) : Nat :=
  let y := i / 8
  let x := i % 8
  4 * (4 * (y / 2) + x / 2) + (2 * (y % 2) + x % 2)

/-- The cell an endpoint names, if its local port is 0–3. -/
def cellAtEndpoint (e : Nat) : Option Nat :=
  let p := bits e 5 3
  if p < 4 then some (4 * blockAtRouter (bits e 11 6) + p) else none

/-! ### Fault history and counting (R421–R428) -/

/-- One history entry (R428): 16 bytes at its slot, then HEAD increments. -/
def history (s : State) (src cls code detail flags react : Nat) : State :=
  let n := rd s f_FLT_HIST_HEAD_HEAD
  let b := natLE 8 (now s) ++ natLE 3 detail ++ natLE 1 code ++ natLE 2 (cls * 2 ^ 14 + src) ++
    natLE 1 (flags * 32 + react) ++ natLE 1 n
  let s := (List.range 4).foldl
    (fun s i => wr s (f_FLT_HIST_V (4 * (n % 32) + i)) (le b (4 * i) 4)) s
  wr s f_FLT_HIST_HEAD_HEAD (n + 1)

/-- ERR_N follows ACTIVE together with PINNED of any source (R424). -/
def errPin (s : State) : State :=
  let on := s.regs.any (fun p => decide (0x404000 ≤ p.1) && decide (p.1 < 0x405000) && p.2.getLsbD 63 && p.2.getLsbD 60)
  wr s f_FLT_PIN_ERR (b2n on)

/-- An INFO event: counted, and recorded unless its code is 17h (R421, R424). -/
def infoEvent (s : State) (src code detail flags : Nat) : State :=
  let s := incF s (f_FLT_STAT_INFO_COUNT src) 1
  if code = 0x17 then s else history s src 3 code detail flags 0

/-- Counts discarded flits under a source, INFO code 17h (R84, R421). -/
def discard (s : State) (src n : Nat) : State := incF s (f_FLT_STAT_INFO_COUNT src) n

/-! ### Resets of cells, blocks and regions (R62, R65, R67, R85) -/

/-- A timer. -/
def addTimer (s : State) (dt : Nat) (t : Timer) : State :=
  { s with fab := { s.fab with timers := s.fab.timers ++ [(s.clk + dt, t)] } }

/-- The device physical address of a cell's scratch. -/
def scratchPA (c : Nat) : Nat := 0x0200_0000_0000 + c * 0x10_0000
/-- The device physical address of a cell's instruction memory. -/
def imemPA (c : Nat) : Nat := 0x0280_0000_0000 + c * 0x8000

/-- The live count of a region's clock edges. -/
def regionCycles (s : State) (r : Nat) : DWord := BitVec.ofNat 64 (sget 0 s.fab.edges r / 32000)

/-- The mark of an ended entry whose result word the spec does not state: a free value takes its place in the completion. -/
def noResult : Nat := 2 ^ 32

/-- What one reset of cells does to the Mimin calls that run on them (R192): a call whose turnout has an attention cell among them has
its share run again once; a second reset ends the call with DEVICE_FAULT. A RUN notes the shares that are to run again. -/
def mimCellsReset (s : State) (cs : List Nat) : State :=
  let hit (e : Entry) : Bool := decide (e.ph = .running) && (match sget none s.fur e.f with
    | some x => x.cls == 0 && cs.any (fun c => (cellOf s c).turnout.toNat == x.owner && nin (sget Quota.none s.trn.q x.owner).attn c &&
        (match s.mim.runs.find? (fun r => r.f == e.f && r.i == e.i) with
          | some r => r.holds c
          | none => true))
    | none => false)
  let s := { s with mim := { s.mim with runs := s.mim.runs.map (fun (r : RunRec) =>
    { r with lost := r.lost ++ (cs.filter r.holds).map r.cells.idxOf }) } }
  let s := { s with infl := s.infl.map (fun (e : Entry) =>
    if hit e then (if e.snap.getD 0 0 = 0 then { e with snap := 1 :: e.snap.drop 1 } else { e with ph := .ended stFault noResult }) else e) }
  { s with mim := { s.mim with runs := s.mim.runs.filter (fun (r : RunRec) => s.infl.any (fun e => e.f == r.f && e.i == r.i && decide (e.ph = EPhase.running))) } }

/-- The state a CELL reset leaves (R62, R127, R136): engines, queues, inbox and sluices at their reset values, scratch
and instruction memory zeroed with valid check bits, window segments disabled (R239), CR_TURNOUT kept. CR_CYCLE counts from the
assertion of the reset (R114; DESIGN CHOICE, log entry 87). -/
def cellScrub (s : State) (c : Nat) : State :=
  let old := cellOf s c
  let s := setCell s c { Cell.reset with
    turnout := old.turnout
    dbg := { CellDbg.reset with claimed := old.dbg.claimed, bp := old.dbg.bp, wp := old.dbg.wp }
    k := { KCore.reset with cycBase := regionCycles s (regionOf c) } }
  let m := s.m
  let s := { s with m := { m with
    sram := sclear (sclear m.sram (scratchPA c) 0x10_0000) (imemPA c) 0x8000
    ecc := sclear (sclear m.ecc (scratchPA c / 8) 0x2_0000) (imemPA c / 8) 0x1000
    par := sclear m.par (imemPA c / 4) 0x2000 } }
  (List.range 8).foldl (fun s i => setReg s (f_RGN_WIN_EN (regionOf c) (c % 16) i).key 0) s

/-! ### Page requests (R227–R229) -/

/-- The lowest free request slot. -/
def freeSlot (l : List PageReq) : Option Nat := findBelow (fun k => l.all (fun q => q.slot != k)) 4096

/-- Is a request for the page and the access of a miss. -/
def PageReq.serves (q : PageReq) (m : PageMiss) : Bool := q.turnout == m.turnout && q.page == m.page && q.w == m.w

/-- A miss joins the request for its page or takes a free slot; with all 4,096 taken it waits without one (R227). -/
def placeMiss (s : State) (m : PageMiss) : State :=
  if s.lev.prq.any (fun q => q.serves m) then
    { s with lev := { s.lev with prq := s.lev.prq.map (fun q =>
      if q.serves m && !q.waiters.any (fun x => decide (x.1 = m.who)) then { q with waiters := q.waiters ++ [(m.who, m.deadline)] } else q) } }
  else match freeSlot s.lev.prq with
    | some k =>
      { s with lev := { s.lev with prq := s.lev.prq ++
        [⟨k, sget 0 s.lev.prqGen k, m.turnout, m.page, m.w, m.source, false, [(m.who, m.deadline)]⟩] } }
    | none => { s with lev := { s.lev with prqWait := s.lev.prqWait ++ [m] } }

/-- Raises a page request or joins one; the deadline runs from the miss (R227). -/
def raisePage (s : State) (who : PReq) (source t p : Nat) (w : Bool) : State :=
  placeMiss s ⟨who, t, p, w, source, s.clk + 1000 * rd s (f_TRN_PARAM_PRQ_TMO t)⟩

/-- Frees the slots of requests: their generations increment, and the misses without a slot take their turn, oldest first (R227, R229). -/
def freeReqs (s : State) (p : PageReq → Bool) : State :=
  let l := s.lev
  l.prqWait.foldl placeMiss { s with lev := { l with
    prq := l.prq.filter (fun q => !p q)
    prqGen := (l.prq.filter p).foldl (fun g q => sput 0 g q.slot ((sget 0 g q.slot + 1) % 2 ^ 20)) l.prqGen
    prqWait := [] } }

/-- Requesters stop waiting ahead of any answer, by a reset or an abort; a request that nobody waits on any more frees its slot (R227; DEDUCED,
log entry 32). -/
def dropWaiters (s : State) (p : PReq → Bool) : State :=
  let s := dropAsks s p
  let s := { s with lev := { s.lev with
    prq := s.lev.prq.map (fun q => { q with waiters := q.waiters.filter (fun w => !p w.1) })
    prqWait := s.lev.prqWait.filter (fun w => !p w.who) } }
  freeReqs s (fun q => q.waiters.isEmpty)

/-- Is a requester an engine of the cell. -/
def ofCell (c : Nat) : PReq → Bool
  | .core d | .dma d _ => c == d
  | _ => false

/-- A CELL reset is asserted. Its length is a free value within 2 µs (R62). -/
def cellReset (s : State) (c : Nat) : State :=
  let s := dropWaiters (cellScrub (mimCellsReset s [c]) c) (ofCell c)
  let s := modCell s c (fun x => { x with inReset := true })
  let (d, s) := freshBelow s 2001
  addTimer s d (.cellUp c)

/-- A BLOCK reset is asserted: its cells, its ports and its merge slots (R64, R65). -/
def blockReset (s : State) (k : Nat) : State :=
  let s := (List.range 4).foldl (fun s i => dropWaiters (cellScrub s (4 * k + i)) (ofCell (4 * k + i)))
    (mimCellsReset s ((List.range 4).map (fun i => 4 * k + i)))
  let s := { s with fab := { s.fab with
    merge := sclear s.fab.merge (64 * k) 64
    blockRst := nadd s.fab.blockRst k } }
  let (d, s) := freshBelow s 10001
  addTimer s d (.blockUp k)

/-- A REGION reset is asserted: its cells and blocks, its arbiters; the reservoir stays (R67). -/
def regionReset (s : State) (r : Nat) : State :=
  let s := (List.range 16).foldl (fun s i => dropWaiters (cellScrub s (16 * r + i)) (ofCell (16 * r + i)))
    (mimCellsReset s ((List.range 16).map (fun i => 16 * r + i)))
  let s := { s with fab := { s.fab with
    merge := sclear s.fab.merge (256 * r) 256
    regionRst := nadd s.fab.regionRst r } }
  let s := wr (wr s (f_RGN_CLK_STAT_STRETCHED r) 0) (f_RGN_UNIT_RST_BUSY r) 0
  let (d, s) := freshBelow s 50001
  addTimer s d (.regionUp r)

/-- The detail of code 07h: level requested, and 8 when absorbed (R421). -/
def rstDetail (lvl : Nat) (absorbed : Bool) : Nat := lvl + 8 * b2n absorbed

/-- The history flag of an absorbed or overtaking reset (R428): ABSORBED is bit 6, ESCALATED bit 5, of the flag
byte divided by 32. -/
def rstFlag (absorbed : Bool) : Nat := if absorbed then 2 else 1

/-- Does a cell that BOOT has not yet brought up absorb unit resets (R408). -/
def beforeBoot (s : State) : Bool := decide (rd s f_GEN_STATE_STATE < 4)

/-- A request for a CELL reset, demanded by source `src` (R85, R407, R408). -/
def reqCellReset (s : State) (src c : Nat) : State :=
  if beforeBoot s || cellInReset s c then infoEvent s src 0x07 (rstDetail 2 true) (rstFlag true)
  else cellReset s c

/-- A request for a BLOCK reset (R85). -/
def reqBlockReset (s : State) (src k : Nat) : State :=
  if beforeBoot s || nin s.fab.blockRst k || nin s.fab.regionRst (k / 4) then
    infoEvent s src 0x07 (rstDetail 3 true) (rstFlag true)
  else
    let below := (List.range 4).any (fun i => (cellOf s (4 * k + i)).inReset)
    let s := blockReset s k
    if below then infoEvent s src 0x07 (rstDetail 3 false) (rstFlag false) else s

/-- A request for a REGION reset (R85). -/
def reqRegionReset (s : State) (src r : Nat) : State :=
  if beforeBoot s || nin s.fab.regionRst r then infoEvent s src 0x07 (rstDetail 4 true) (rstFlag true)
  else
    let below := (List.range 16).any (fun i => (cellOf s (16 * r + i)).inReset) ||
      (List.range 4).any (fun i => nin s.fab.blockRst (4 * r + i))
    let s := regionReset s r
    if below then infoEvent s src 0x07 (rstDetail 4 false) (rstFlag false) else s

/-! ### CHIP and FULL resets (R14, R405–R408, R231, R466, R469) -/

/-- Registers whose fields a CHIP reset leaves alone: those of reach FULL (R14). -/
def keepFull (off : Nat) (v : DWord) : DWord :=
  match regAt off with
  | none => regReset off
  | some r =>
    let d := regReset off
    BitVec.ofNat 64 (r.fields.foldl (fun a f =>
      if f.reach = .full then setBits a f.hi f.lo (bits v.toNat f.hi f.lo) else a) d.toNat)

/-- The level of a reset source (R403). -/
def sourceLevel (s : State) (i : Nat) : Nat := bits (regv s f_RST_REACH_LEVEL.key).toNat (4 * i + 3) (4 * i)

/-- What a register holds after a CHIP or FULL reset (R14, R442): CHIP keeps the fields of reach FULL; FULL keeps what the fuses
give, and the auxiliary domain's registers unless VDD_AUX has risen. -/
def keptReg (s : State) (lvl off : Nat) (v : DWord) : DWord :=
  if lvl = 6 then keepFull off v
  else if off = f_RST_REACH_LEVEL.key then v
  else if off = f_FLT_INJ_AVAIL.key then BitVec.ofNat 64 (setBits 0 62 62 (bits v.toNat 62 62))
  else if (off = f_PWR_AUXLOG_VALID.key ∨ off = f_HEP_WAKE_VALID.key) ∧ s.boot.auxRose = false then v
  else if off = f_HEP_TOPO_ASSIGN.key ∧ s.pcie.cold = true then v
  else regReset off

/-- The host ports after a CHIP or FULL reset: the PERST inputs stay; in D3cold the auxiliary domain keeps the slot chain, the wakes, the ports'
L2 and the functions' PME context (R272–R275, R442; DESIGN CHOICE, log entry 97). -/
def pcieKept (p : Pcie) : Pcie :=
  let up (u : UpPort) : UpPort :=
    { UpPort.reset with perst := u.perst, perstAt := u.perstAt, perstHold := u.perstHold, l2 := p.cold && u.l2 }
  let r := { Pcie.reset with ups := p.ups.foldl (fun m q => sput UpPort.reset m q.1 (up q.2)) [] }
  if p.cold then
    { r with
      cold := true
      slots := p.slots
      wakes := p.wakes
      waken := p.waken
      slcBad := p.slcBad
      slcGood := p.slcGood
      fns := p.fns.foldl (fun m q => sput PFun.reset m q.1 { PFun.reset with pmeEn := q.2.pmeEn, pmeSt := q.2.pmeSt }) [] }
  else r

/-- Has BOOT ended, so that a CHIP reset keeps the fuse state (R408). -/
def afterBoot (s : State) : Bool := rd s f_GEN_STATE_STATE == 5 || rd s f_GEN_STATE_STATE == 6

/-- Can the firmware serve turnout commands: it runs and no activation is in progress (R418). -/
def fwServes (s : State) : Bool := afterBoot s && !s.boot.activating

/-- Is a firmware component stopped (R417). -/
def compStopped (s : State) (k : Nat) : Bool := (sget Comp.reset s.boot.comps k).stopped

/-- Where the sequence restarts (R408). -/
def restartStage (s : State) (lvl : Nat) : Stage := if lvl = 6 ∧ afterBoot s = true then .option else .fuse

/-- The bring-up state that a CHIP or FULL reset leaves: fuses, straps, rails and latches stay. -/
def bootReset (s : State) (i lvl : Nat) : Boot :=
  let b := s.boot
  { Boot.reset with
    powered := b.powered
    auxRose := b.auxRose && decide (lvl = 6)
    hold := b.hold
    refLost := b.refLost
    trip := b.trip
    goodAt := b.goodAt
    inRst := true
    rstSrc := i
    rstLvl := lvl
    rstUntil := s.clk
    stage := restartStage s lvl
    keys := b.keys
    rollback := b.rollback
    avs := b.avs
    factory := b.factory
    softRep := if lvl = 6 then b.softRep else [] }

/-- The state after a CHIP (6) or FULL (7) reset raised by source `i`, asserted: everything but what reach FULL, the auxiliary
domain, the outside world and the model's own fields keep (R14, R231, R405, R408, R442, R460, R466, R469). -/
def chipResetTo (s : State) (i lvl : Nat) : State :=
  let r := State.reset
  let s' := { r with
    clk := s.clk
    free := s.free
    seq := s.seq
    regs := s.regs.foldl (fun m p => sput (regReset p.1) m p.1 (keptReg s lvl p.1 p.2)) []
    m := { Mems.reset with ext := s.m.ext, epoch := s.m.epoch + 1 }
    pcie := pcieKept s.pcie
    sto := s.sto.chip
    boot := bootReset s i lvl
    pwr := { Pwr.reset with setp := s.pwr.setp, quiet := s.pwr.quiet, pin := s.pwr.pin }
    side := { Side.reset with addr := s.side.addr }
    out := s.out
    pending := s.pending }
  -- R407: every source that acts sets SEEN; LAST and LEVEL are written as the reset releases
  let s' := wr s' f_RST_CAUSE_SEEN (rd s' f_RST_CAUSE_SEEN ||| 2 ^ i)
  -- held in reset before fuse sense, the device is OFF
  wr s' f_GEN_STATE_STATE (if restartStage s lvl = .fuse then 0 else 1)

/-- Source `i` raises a CHIP or FULL reset (R407): absorbed when one of the same or a larger level is in progress. -/
def raiseChip (s : State) (i lvl : Nat) : State :=
  if s.boot.inRst && decide (lvl ≤ s.boot.rstLvl) then
    wr s f_RST_CAUSE_SEEN (rd s f_RST_CAUSE_SEEN ||| 2 ^ i)
  else chipResetTo s i lvl

/-! ### Events and reactions (R422–R427) -/

/-- The owning unit of a source, as a reset request at the level that source 12 caps (R403, R420). -/
def brst (s : State) (src : Nat) : State :=
  let cap := sourceLevel s 12
  let s := wr s f_RST_CAUSE_SEEN (rd s f_RST_CAUSE_SEEN ||| 2 ^ 12)
  if src < 0x100 then
    { reqCellReset s src src with flt := { (reqCellReset s src src).flt with rsts := nadd s.flt.rsts src } }
  else if src < 0x140 then
    let k := src - 0x100
    let s := if cap = 2 then (List.range 4).foldl (fun s i => reqCellReset s src (4 * k + i)) s
      else reqBlockReset s src k
    { s with flt := { s.flt with rsts := nadd s.flt.rsts src } }
  else if src < 0x150 then
    let r := src - 0x140
    let s := if cap = 2 then (List.range 16).foldl (fun s i => reqCellReset s src (16 * r + i)) s
      else if cap = 3 then (List.range 4).foldl (fun s i => reqBlockReset s src (4 * r + i)) s
      else reqRegionReset s src r
    { s with flt := { s.flt with rsts := nadd s.flt.rsts src } }
  else s

/-- Is a source's own unit held in reset: it raises no events (R427). -/
def srcInReset (s : State) (src : Nat) : Bool :=
  if src < 0x100 then cellInReset s src
  else if src < 0x140 then nin s.fab.blockRst (src - 0x100) || nin s.fab.regionRst ((src - 0x100) / 4)
  else if src < 0x150 then nin s.fab.regionRst (src - 0x140)
  else false

/-- The mask applied after merging, as a history entry holds it (R427, R428): a BRST that is absorbed is not applied. -/
def applied (s : State) (src mask : Nat) : Nat :=
  if bit mask 2 && (beforeBoot s || srcInReset s src) then setBits mask 2 2 0 else mask

/-- Applies a reaction mask (R422): INT, NMI, PIN, BRST, CRST. INT also asserts SMB_ALERT_N (R451). -/
def react (s : State) (src mask : Nat) : State :=
  let s := if bit mask 0 then
      let s := { s with side := { s.side with alert := true } }
      msix s fnPF0 (rd s f_FLT_CFG_VEC)
    else s
  let s := if bit mask 1 then { s with flt := { s.flt with nmi := s.flt.nmi + 1 } } else s
  let s := if bit mask 4 then errPin (wr s (f_FLT_STAT_PINNED src) 1) else s
  let s := if bit mask 1 || bit mask 2 || bit mask 3 then wr s f_FLT_PIN_RECOVERY 1 else s
  let s := if bit mask 2 then brst s src else s
  if bit mask 3 then
    let s := wr s f_FLT_PIN_FATAL 1
    raiseChip s 11 (sourceLevel s 11)
  else s

/-- Marks a condition event's condition as present (R421). -/
def setPresent (s : State) (src code detail : Nat) : State :=
  let s := wr s (f_FLT_STAT_PRESENT src) 1
  { s with flt := { s.flt with cond := sput 0 s.flt.cond src (1 + code * 2 ^ 24 + detail) } }

/-- The condition of a source's last condition event has ended. -/
def clearPresent (s : State) (src : Nat) : State :=
  let s := wr s (f_FLT_STAT_PRESENT src) 0
  { s with flt := { s.flt with cond := sput 0 s.flt.cond src 0 } }

/-- An OPERATIONAL device enters DEGRADED (R425). -/
def degrade (s : State) : State :=
  if rd s f_GEN_STATE_STATE = 5 then wr s f_GEN_STATE_STATE 6 else s

/-- A fault of a link's source brings its ports into RECOVERY (R311): from the next frame boundary on. -/
def linkFault (s : State) (src : Nat) : State :=
  if 0x154 ≤ src ∧ src < 0x178 then (List.range 8).foldl (fun s k => wr s (f_SCH_SVC_SERVICE (8 * (src - 0x154) + k)) 1) s else s

/-- An UNCORR event (R424); `rep` marks a repeat of R426, `flags` the history flags beyond. -/
def uncorr (s : State) (src code detail flags : Nat) (rep : Bool) : State :=
  let s := if rep then s else incF s (f_FLT_STAT_UE_COUNT src) 1
  let s := wr s (f_FLT_STAT_ACTIVE src) 1
  let m := rd s (f_FLT_REACT_UE src)
  react (history (linkFault s src) src 1 code detail (flags + 4 * b2n rep) (applied s src m)) src m

/-- A PROMOTED event (R424, R425). -/
def promoted (s : State) (src code detail flags : Nat) : State :=
  let s := wr (wr s (f_FLT_STAT_ACTIVE src) 1) (f_FLT_STAT_LASTING src) 1
  let m := rd s (f_FLT_REACT_LAST src)
  react (history (degrade s) src 2 code detail flags (applied s src m)) src m

/-- Closes a source's counting window (R425, R426). -/
def closeWindow (s : State) (src : Nat) : State :=
  wr { s with flt := { s.flt with win := sput 0 s.flt.win src 0 } } (f_FLT_STAT_WIN_COUNT src) 0

/-- Has a source's window of FLT_CFG.WIN ms ended: an event in the instant in which it closes still counts in it (R12, R425). -/
def windowOver (s : State) (src : Nat) : Bool :=
  let w := sget 0 s.flt.win src
  decide (w ≠ 0) && overdue s (w - 1 + 1_000_000 * rd s f_FLT_CFG_WIN)

/-- A CORR event (R424, R425). A window that has ended counts no more. -/
def corr (s : State) (src code detail flags : Nat) : State :=
  let s := incF s (f_FLT_STAT_CE_COUNT src) 1
  let lasting := rd s (f_FLT_STAT_LASTING src) = 1
  let s := if windowOver s src then closeWindow s src else s
  let open_ := sget 0 s.flt.win src ≠ 0
  let s := if lasting then s
    else
      let s := if open_ then s else { s with flt := { s.flt with win := sput 0 s.flt.win src (1 + s.clk) } }
      wr s (f_FLT_STAT_WIN_COUNT src) (min (rd s (f_FLT_STAT_WIN_COUNT src) + 1) 255)
  let m := rd s (f_FLT_REACT_CE src)
  let s := if m ≠ 0 then react (history (wr s (f_FLT_STAT_ACTIVE src) 1) src 0 code detail flags (applied s src m)) src m else s
  if !lasting && rd s (f_FLT_STAT_WIN_COUNT src) ≥ rd s f_FLT_CFG_THR then promoted s src code detail flags else s

/-- An event of a source (R420): class 0 CORR, 1 UNCORR, 2 PROMOTED, 3 INFO. Sources above 19Fh raise none. -/
def event (s : State) (src cls code detail : Nat) : State :=
  if src > 0x19F || srcInReset s src then s
  else match cls with
    | 0 => corr s src code detail 0
    | 1 => uncorr s src code detail 0 false
    | 2 => promoted s src code detail 0
    | _ => infoEvent s src code detail 0

/-- A condition event: UNCORR, with PRESENT held while the condition lasts (R421). -/
def condEvent (s : State) (src code detail : Nat) : State := event (setPresent s src code detail) src 1 code detail

/-! ### Owner checks (R217–R221) -/

/-- Where a device physical address lies. -/
inductive Area
  | hbm (ext : Nat)
  | rsv (gran : Nat)
  | scratch (c : Nat)
  | imem (c : Nat)
  | regs (off : Nat)
  | port (p : Nat) (a : Nat)
  | none
deriving DecidableEq, Repr

/-- The device physical map (R217, R218). -/
def areaOf (a : Nat) : Area :=
  if a < 0x40_0000_0000 then .hbm (a / 0x1000_0000)
  else if 0x100_0000_0000 ≤ a ∧ a < 0x101_0000_0000 then .rsv ((a - 0x100_0000_0000) / 0x10_0000)
  else if 0x200_0000_0000 ≤ a ∧ a < 0x200_1000_0000 then .scratch ((a - 0x200_0000_0000) / 0x10_0000)
  else if 0x280_0000_0000 ≤ a ∧ a < 0x280_0080_0000 then .imem ((a - 0x280_0000_0000) / 0x8000)
  else if 0x300_0000_0000 ≤ a ∧ a < 0x300_0400_0000 then .regs (a - 0x300_0000_0000)
  else if 0x8_0000_0000_0000 ≤ a ∧ a < 0x10_0000_0000_0000 then
    let p := bits a 50 45
    if p < 0x22 then .port p (bits a 44 0) else .none
  else .none

/-- The owner of an HBM extent or of a reservoir granule: 200h while it is scrubbed (R221, R241). -/
def ownerOfArea (s : State) : Area → Nat
  | .hbm e => if rd s (f_TRN_EXT_SCRUB e) = 1 then 0x200 else rd s (f_TRN_EXT_OWNER e)
  | .rsv g => if rd s (f_TRN_GRAN_SCRUB g) = 1 then 0x200 else rd s (f_TRN_GRAN_OWNER g)
  | .scratch c => (cellOf s c).turnout.toNat
  | _ => 0x200

/-- Does turnout `t` reach port `p`: its mask (R218), and of the upstream ports its own (R246). -/
def portOk (s : State) (t p : Nat) : Bool :=
  let m := rd s (f_TRN_PARAM_PORTS t)
  if !vfExists s t then false
  else if p < 2 then bit m p && decide (t / 256 = p)
  else if p < 0x0A then bit m p
  else if p < 0x12 then bit m (p - 8)
  else false

/-- The owner check (R220). -/
def ownerOk (s : State) (owner a : Nat) : Bool :=
  let ar := areaOf a
  if owner = 0x201 || owner = 0x202 then
    match ar with
    | .none => false
    | .rsv g => decide (rd s (f_TRN_GRAN_OWNER g) ≠ 0x203)
    | _ => true
  else if owner < 0x200 then
    match ar with
    | .hbm _ | .rsv _ | .scratch _ => decide (ownerOfArea s ar = owner)
    | .port p _ => portOk s owner p
    | _ => false
  else false

/-- The owner check over a range, at its ends and at every 64 KiB between. -/
def rangeOk (s : State) (owner a n : Nat) : Bool :=
  ownerOk s owner a && (n == 0 || (ownerOk s owner (a + n - 1) &&
    (List.range (n / 0x1_0000)).all (fun i => ownerOk s owner (a + 0x1_0000 * (i + 1)) || decide (a + n ≤ a + 0x1_0000 * (i + 1)))))

/-! ### Memory -/

/-- The key of a byte behind port `p`: the port and the bus address that HEP_WIN_HI and the window address give (R252). -/
def portKey (s : State) (p a : Nat) : Nat := p * 2 ^ 64 + rd s (f_HEP_WIN_HI_HI p) * 2 ^ 45 + a

/-- The number of the key selected for an extent now (R230, R231). -/
def keyNum (s : State) (owner : Nat) : Nat :=
  (s.m.epoch * 2 ^ 32 + sget 0 s.m.keyGen owner) * 2 ^ 10 + owner

/-- The owner whose key serves an extent: the code held in OWNER; 200h while it is scrubbed. -/
def extKey (s : State) (e : Nat) : Nat := keyNum s (ownerOfArea s (.hbm e))

/-- Seconds of the debug unlock that are left, a started second counted whole (R436). -/
def dbgRemain (s : State) : Nat :=
  if rd s f_DBG_CTL_STATE = 2 then (s.dbg.until_ - s.clk + 999_999_999) / 1_000_000_000 else 0

/-- CIP_SLOT_INFO of the selected slot (R360). -/
def slotInfo (s : State) : Nat :=
  let k := sget KeySlot.reset s.cip.slots (rd s f_CIP_SLOT_SEL_SLOT)
  b2n (decide (k.ty ≠ 0)) * 2 ^ 31 + k.ty * 2 ^ 28 + k.owner * 2 ^ 16 + k.gen % 2 ^ 16

/-- FLT_SUMn: ACTIVE of sources 32n to 32n + 31. -/
def fltSum (s : State) (n : Nat) : Nat :=
  (List.range 32).foldl (fun a i => a + 2 ^ i * rd s (f_FLT_STAT_ACTIVE (32 * n + i))) 0

/-- DSP_FSTAT of the selected furrow. -/
def furStat (s : State) : Nat :=
  match sget none s.fur (rd s f_DSP_FSEL_FURROW) with
  | none => 0
  | some x => (if x.enabled then 1 else 2) * 2 ^ 30 + b2n x.fault * 2 ^ 29

/-- SCH_GCL_DATA: the entry of the gate list that SCH_GCL_SEL names (R312): gates [63:48], interval [31:0]. -/
def gclData (s : State) : DWord :=
  let p := rd s f_SCH_GCL_SEL_PORT
  let i := rd s f_SCH_GCL_SEL_ENTRY
  if rd s f_SCH_GCL_SEL_LIST = 0 then sget 0 s.sch.admin (256 * p + i)
  else match sget none s.sch.oper p with
    | some g => let e := g.ents.getD i (0, 0); BitVec.ofNat 64 (e.1 * 2 ^ 48 + e.2)
    | none => 0

/-- What a read of a register returns: the stored value, or what a view register shows. -/
def regView (s : State) (off : Nat) : DWord :=
  if 0x400020 ≤ off ∧ off < 0x400060 then BitVec.ofNat 64 (fltSum s ((off - 0x400020) / 4))
  else if 0x680000 ≤ off ∧ off < 0x6F8000 ∧ s.flt.snap ≠ 2 then Config.earlyShadow s.clk off
  else if 0x610000 ≤ off ∧ off < 0x64C000 then BitVec.ofNat 64 (catWord ((off - 0x610000) / 4))
  else if off = f_DSP_FSTAT_STATE.key then BitVec.ofNat 64 (furStat s)
  else if off = f_SCH_GCL_DATA_V.key then gclData s
  else if off = f_CIP_SLOT_INFO_VALID.key then BitVec.ofNat 64 (slotInfo s)
  else if off = f_TMB_TIME_LO_V.key then BitVec.ofNat 64 (now s % 2 ^ 32)
  else if off = f_DBG_CTL_REMAIN.key then BitVec.ofNat 64 (setBits (regv s off).toNat 16 0 (dbgRemain s))
  else regv s off

/-- Is there an 8-byte register at an offset. -/
def wideReg (off : Nat) : Bool :=
  match regAt off with
  | some r => r.bytes == 8
  | none => false

/-- A byte of the register space: the low or the high word of an 8-byte register, or a 4-byte register. -/
def regByte (s : State) (off : Nat) : Byte :=
  let a := off / 4 * 4
  if a % 8 = 4 ∧ wideReg (a - 4) = true then BitVec.ofNat 8 ((regView s (a - 4)).toNat >>> (8 * (off % 8)))
  else BitVec.ofNat 8 ((regView s a).toNat >>> (8 * (off % 4)))

/-- One byte of memory, whatever its check bits say. -/
def memByte (s : State) (a : Nat) : Byte :=
  match areaOf a with
  | .hbm e =>
    let k := extKey s e
    match sget none s.m.hbm a with
    | some (b, k') => if k' = k then b else Config.hbmByte k a
    | none => if sget 0 s.m.zeroed e = k + 1 then 0 else Config.hbmByte k a
  | .rsv _ | .scratch _ | .imem _ => sget 0 s.m.sram a
  | .port p o => (sget none s.m.ext (portKey s p o)).getD (Config.portByte (portKey s p o))
  | .regs off => regByte s off
  | .none => 0

/-- Writes one byte of memory. -/
def setMemByte (s : State) (a : Nat) (b : Byte) : State :=
  match areaOf a with
  | .hbm e => { s with m := { s.m with hbm := sput none s.m.hbm a (some (b, extKey s e)) } }
  | .rsv _ | .scratch _ | .imem _ => { s with m := { s.m with sram := sput 0 s.m.sram a b } }
  | .port p o => { s with m := { s.m with ext := sput none s.m.ext (portKey s p o) (some b) } }
  | .regs _ | .none => s

/-- `n` bytes from `a` on. -/
def memBytes (s : State) (a : Nat) : Nat → List Byte
  | 0 => []
  | n + 1 => memByte s a :: memBytes s (a + 1) n

/-- Writes bytes from `a` on. -/
def setMemBytes (s : State) (a : Nat) : List Byte → State
  | [] => s
  | b :: r => setMemBytes (setMemByte s a b) (a + 1) r

/-- The fault source and the array offset of an address (R56, R420). -/
def memSource (a : Nat) : Nat × Nat :=
  match areaOf a with
  | .hbm _ => (0x150 + bits a 37 36, a % 2 ^ 36 / 8)
  | .rsv g => (0x140 + g / 256, a % 2 ^ 28 / 8)
  | .scratch c => (c, a % 2 ^ 20 / 8)
  | .imem c => (c, a % 2 ^ 15 / 4)
  | _ => (0x1A0, 0)

/-- Words of 8 bytes that a range touches, by address / 8. -/
def wordsOf (a n : Nat) : List Nat := (List.range ((a + n + 7) / 8 - a / 8)).map (fun i => a / 8 + i)

/-- The words of a range whose check bits show an error. -/
def eccIn (s : State) (a n : Nat) : List (Nat × Nat) :=
  s.m.ecc.filter (fun p => decide (a / 8 ≤ p.1) && decide (p.1 < (a + n + 7) / 8))

/-- Counts a corrected word: a CORR event of its source, in RGN_RSV_ERR for a reservoir (R60, R70). -/
def ceWord (s : State) (w : Nat) : State :=
  let (src, d) := memSource (8 * w)
  let s := if 0x140 ≤ src ∧ src < 0x150 then incF s (f_RGN_RSV_ERR_CE_COUNT (src - 0x140)) 1 else s
  event s src 0 0x01 d

/-- Corrects a single-bit error: written back and counted (R60, R70). -/
def correctWord (s : State) (w : Nat) : State := ceWord { s with m := { s.m with ecc := sput 0 s.m.ecc w 0 } } w

/-- Records an uncorrectable word of the reservoir (R70, R89). -/
def rsvUE (s : State) (w : Nat) : State :=
  match areaOf (8 * w) with
  | .rsv g =>
    let r := g / 256
    let s := incF s (f_RGN_RSV_ERR_UE_COUNT r) 1
    wr (wr s (f_RGN_RSV_ERR_ADDR_VALID r) 1) (f_RGN_RSV_ERR_ADDR_LINE r) (bits (8 * w) 27 6)
  | _ => s

/-- Records an uncorrectable word: its line in RGN_RSV_ERR_ADDR and an UNCORR event 02h of its source. -/
def ueWord (s : State) (w : Nat) : State :=
  let s := rsvUE s w
  let (src, d) := memSource (8 * w)
  event s src 1 0x02 d

/-- A read's checking of a range: single-bit errors are corrected; the flag says that a word was uncorrectable (or that
an instruction memory word had a parity error, R61). `own` records the event of R60 for the array's own source. -/
def checkRange (s : State) (a n : Nat) (own : Bool) : Bool × State :=
  let es := eccIn s a n
  let s := (es.filter (fun p => p.2 == 1)).foldl (fun s p => correctWord s p.1) s
  let bad := es.filter (fun p => p.2 == 2)
  let s := bad.foldl (fun s p => if own then ueWord s p.1 else rsvUE s p.1) s
  let par := s.m.par.filter (fun p => decide (a / 4 ≤ p.1) && decide (p.1 < (a + n + 3) / 4))
  let s := if own then par.foldl (fun s p => event s (memSource (4 * p.1)).1 1 0x02 (memSource (4 * p.1)).2) s else s
  (!bad.isEmpty || !par.isEmpty, s)

/-- Would a write of this range have to merge into an uncorrectable word (R60), or into a word of instruction memory with a parity
error (R61). -/
def mergeBad (s : State) (a n : Nat) : Bool :=
  match areaOf a with
  | .imem _ => (a % 4 != 0 && nin s.m.par (a / 4)) || ((a + n) % 4 != 0 && nin s.m.par ((a + n) / 4))
  | _ =>
    let part (w : Nat) : Bool := sget 0 s.m.ecc w == 2
    (a % 8 != 0 && part (a / 8)) || ((a + n) % 8 != 0 && part ((a + n) / 8))

/-- Marks the words that a range touches as poisoned (R60): uncorrectable words, in instruction memory parity errors. -/
def poisonRange (s : State) (a n : Nat) : State :=
  if n = 0 then s
  else match areaOf a with
    | .imem _ => { s with m := { s.m with
        par := (List.range ((a + n + 3) / 4 - a / 4)).foldl (fun m i => nadd m (a / 4 + i)) s.m.par } }
    | .port _ _ | .regs _ | .none => s
    | _ => { s with m := { s.m with ecc := (wordsOf a n).foldl (fun e w => sput 0 e w 2) s.m.ecc } }

/-- Stores bytes with valid check bits over every whole word; poisoned data makes its words uncorrectable (R60). -/
def storeBytes (s : State) (a : Nat) (l : List Byte) (poison : Bool) : State :=
  let s := setMemBytes s a l
  let lo := (a + 7) / 8
  let hi := (a + l.length) / 8
  let s := { s with m := { s.m with
    ecc := sclear s.m.ecc lo (hi - lo)
    par := sclear s.m.par ((a + 3) / 4) ((a + l.length) / 4 - (a + 3) / 4) } }
  if poison then poisonRange s a l.length else s

/-- The words of 8 bytes that a write of a range covers in part. -/
def edgeWords (a n : Nat) : List Nat :=
  (if a % 8 ≠ 0 then [a / 8] else []) ++ (if (a + n) % 8 ≠ 0 ∧ (a % 8 = 0 ∨ (a + n) / 8 ≠ a / 8) then [(a + n) / 8] else [])

/-- A write that merges into words reads them: single-bit errors of the words it covers in part are corrected and counted (R60). -/
def mergeFix (s : State) (a n : Nat) : State :=
  ((edgeWords a n).filter (fun w => sget 0 s.m.ecc w == 1)).foldl correctWord s

/-- A write that would have to merge into uncorrectable words is not performed; their source records the event (R60). -/
def mergeUE (s : State) (a n : Nat) : State :=
  ((edgeWords a n).filter (fun w => sget 0 s.m.ecc w == 2)).foldl ueWord s

/-- A write of bytes at an array (R60): performed, or refused for an uncorrectable word that it covers in part. -/
def putMem (s : State) (a : Nat) (l : List Byte) (poison : Bool) : Bool × State :=
  if mergeBad s a l.length then (false, mergeUE s a l.length) else (true, storeBytes (mergeFix s a l.length) a l poison)

/-! ### Accesses with their outcomes -/

/-- How an access fails. -/
inductive MErr
  /-- Refused by a levee, unmapped, or a refused page request. -/
  | denied
  /-- Meets V = 0 with PR = 1: turnout, page, write (R227). -/
  | page (t p : Nat) (w : Bool)
  /-- A page request's deadline passed (R229). -/
  | pageLate
  /-- Poisoned or uncorrectable data (R60). -/
  | poison
  /-- The response was discarded by a reset (R84). -/
  | reset
  /-- A read has to leave through a port, and its completion is awaited (R252, R253). -/
  | wait (q : PortAsk)
deriving DecidableEq, Repr

/-- A computation on State that an access can end. -/
abbrev MM (α : Type) := ExceptT MErr (StateM State) α

/-- The outcome of an access as a value: what follows decides. -/
def tryMM {α : Type} (x : MM α) : MM (Except MErr α) := ExceptT.lift x.run

/-- Is the device's traffic toward a port contained: a DP link after a surprise down (R270), or a link that is down. -/
def portContained (s : State) (p : Nat) : Bool :=
  if p < 2 then !(upOf s p).link
  else if p < 0x12 then (dpOf s (p - 2)).contained
  else false

/-- Is the unit that holds an address in reset (R84): a cell, or the region whose arbiters serve a reservoir (R67). -/
def targetInReset (s : State) (a : Nat) : Bool :=
  match areaOf a with
  | .scratch c | .imem c => cellInReset s c
  | .rsv g => nin s.fab.regionRst (g / 256)
  | _ => false

/-- Is an owner's traffic toward the port behind an address cut off: contained (R270), or its VF in FLR (R260). -/
def portGone (s : State) (owner a : Nat) : Bool :=
  match areaOf a with
  | .port p _ => portContained s p || (decide (owner < 512) && flrCut s owner)
  | _ => false

/-- The address on its bus of a device physical address behind a port (R218, R252). -/
def busAddr (s : State) (p a : Nat) : Nat := portKey s p (bits a 44 0) % 2 ^ 64

/-- The TLPs of a range behind a port, for an owner. -/
def portPieces (s : State) (owner a n : Nat) (w : Bool) : List (Nat × Nat) :=
  match areaOf a with
  | .port p _ => tlpPieces (tlpMax s (issuer s p owner) w) (n / 128 + 2) a n
  | _ => []

/-- Relaxed ordering of a TLP (R254): data of an entry with RO, where the function's Enable Relaxed Ordering is 1. -/
def relaxed (s : State) (fn : Nat) (ro : Bool) : Bool := ro && bit (fnOf s fn).devCtl 4

/-- The reads of a range behind a port leave, as far as they are neither answered nor outstanding and tags are free (R252). -/
def askPort (s : State) (q : PortAsk) : State :=
  (portPieces s q.owner q.addr q.len false).foldl (fun s c =>
    match areaOf c.1 with
    | .port p _ =>
      if (portAns s q.who c.1 c.2).isSome || s.pcie.reqs.any (fun r => decide (r.who = q.who) && r.addr == c.1 && r.len == c.2) then s
      else match freeTag s p with
        | none => s
        | some tg =>
          let fn := issuer s p q.owner
          emit { s with pcie := { s.pcie with reqs := s.pcie.reqs ++ [⟨tg, p, c.1, c.2, q.owner, q.who, q.ta, s.clk⟩] } }
            (.mem p (routingId s fn) (some tg) (busAddr s p c.1) c.2 (relaxed s fn q.ro) false [])
    | _ => s) s

/-- TLPs of a VF in FLR that no longer leave are counted (R260). -/
def flrDropped (s : State) (owner n : Nat) : State :=
  if owner < 512 && flrCut s owner then incF s f_HEP_FLR_DROP_COUNT n else s

/-- Reads a range behind a port: its data once every completion has come, with a mark of poisoned data; a completion with an error is a lost
response (R253). -/
def portGet (v : Via) (owner a n : Nat) : MM (List Byte × Bool) := do
  let s ← get
  let l := (portPieces s owner a n false).map (fun c => portAns s v.who c.1 c.2)
  if l.any Option.isNone then throw (.wait ⟨v.who, owner, a, n, v.ro, v.ta⟩)
  let l := l.filterMap id
  if l.any (fun g => g.st == 3) then throw .reset
  return (l.flatMap PAns.data, l.any (fun g => g.st == 1))

/-- Overlays bytes written at an address on those of an answer: a later read of the requester finds what it has written. -/
def PAns.overlay (g : PAns) (a : Nat) (l : List Byte) : PAns :=
  { g with data := g.data.zipIdx.map (fun b => if a ≤ g.addr + b.2 ∧ g.addr + b.2 < a + l.length then l.getD (g.addr + b.2 - a) 0 else b.1) }

/-- Posted writes leave through a port (R252–R254). -/
def portPut (s : State) (v : Via) (owner a : Nat) (l : List Byte) (poison : Nat → Bool) : State :=
  let s := (portPieces s owner a l.length true).foldl (fun s c =>
    match areaOf c.1 with
    | .port p _ =>
      let fn := issuer s p owner
      emit s (.mem p (routingId s fn) none (busAddr s p c.1) c.2 (relaxed s fn v.ro) ((List.range c.2).any (fun i => poison (c.1 - a + i)))
        ((l.drop (c.1 - a)).take c.2))
    | _ => s) s
  setMemBytes { s with pcie := { s.pcie with got := s.pcie.got.map (fun g => if g.who = v.who then g.overlay a l else g) } } a l

/-- Reads `n` bytes of device physical memory for an owner. -/
def physRead (v : Via) (owner a n : Nat) : MM (List Byte) := do
  let s ← get
  if !rangeOk s owner a n then throw .denied
  if targetInReset s a then throw .reset
  if portGone s owner a then
    set (flrDropped s owner (portPieces s owner a n false).length)
    throw .reset
  match areaOf a with
  | .port _ _ =>
    let (l, bad) ← portGet v owner a n
    if bad then throw .poison
    return l
  | _ =>
    let (bad, s) := checkRange s a n true
    set s
    if bad then throw .poison
    return memBytes s a n

/-- Writes bytes to device physical memory for an owner. -/
def physWrite (v : Via) (owner a : Nat) (l : List Byte) (poison : Bool) : MM Unit := do
  let s ← get
  if !rangeOk s owner a l.length then throw .denied
  if targetInReset s a then throw .reset
  if portGone s owner a then
    -- posted writes that cannot leave are discarded, and counted when an FLR holds them back (R260, R270)
    set (flrDropped s owner (portPieces s owner a l.length true).length)
  else match areaOf a with
    | .port _ _ => set (portPut s v owner a l (fun _ => poison))
    | _ =>
      let (ok, s) := putMem s a l poison
      set s
      if !ok then throw .poison

/-! ### Translation (R222, R223) -/

/-- Counts a refusal by R223. -/
def walkErr : MM Nat := do
  modify (fun s => incF s f_TRN_WALK_ERR_V 1)
  throw .denied

/-- Is a page request possible for a turnout (R227). -/
def prEnabled (s : State) (t : Nat) : Bool :=
  rd s (f_TRN_PARAM_PRQ_TMO t) != 0 && rd s f_TRN_PRQ_FURROW_EN == 1

/-- A leaf that a walk ends at. -/
structure Leaf where
  /-- Bits of the offset within the page. -/
  sh : Nat
  /-- Output address of the page. -/
  pa : Nat
  /-- R. -/
  r : Bool
  /-- W. -/
  w : Bool
deriving DecidableEq, Repr

/-- The walk from a table at one level (3 down to 0; fuel is level + 1): the leaf of `ta`. -/
def walkGo (t ta : Nat) (w : Bool) : Nat → Nat → MM Leaf
  | 0, _ => do
    let _ ← walkErr
    throw .denied
  | f + 1, table => do
    let s ← get
    -- tables lie in extents owned by 201h (R222)
    match areaOf table with
    | .hbm e => if rd s (f_TRN_EXT_OWNER e) ≠ 0x201 || rd s (f_TRN_EXT_SCRUB e) = 1 then throw MErr.denied
    | _ => throw MErr.denied
    let sh := 12 + 9 * f
    let at_ := table + 8 * bits ta (sh + 8) sh
    let (bad, s) := checkRange s at_ 8 true
    set s
    if bad then let _ ← walkErr
    let e := leNat (memBytes s at_ 8)
    if !bit e 0 then
      if bit e 5 && prEnabled s t then throw (.page t (ta / 4096) w) else throw .denied
    let leaf := bit e 3
    let addr := bits e 51 12 * 4096
    if bit e 63 || bits e 11 6 != 0 || bit e 4 || (f == 3 && leaf) || (f == 0 && !leaf) ||
        (leaf && addr % 2 ^ sh != 0) then let _ ← walkErr
    if leaf then return ⟨sh, addr, bit e 1, bit e 2⟩ else walkGo t ta w f addr

/-- Permissions, checked at the leaf alone: a read needs R, a write W and R (R223). -/
def permitted (r w' w : Bool) : Bool := r && (!w || w')

/-- A cached translation of a walker for a TA (R224). -/
def tlbHit (s : State) (wk t ta : Nat) : Option (Nat × Bool × Bool) :=
  (s.lev.tlb.find? (fun e => e.wk == wk && e.t == t && decide (e.ta ≤ ta) && decide (ta < e.ta + e.size))).map
    (fun e => (e.pa + (ta - e.ta), e.r, e.w))

/-- The leaf of a turnout address, walked from the root (R222). -/
def walkRoot (t ta : Nat) (w : Bool) : MM Leaf := do
  let s ← get
  if ta ≥ 2 ^ 48 then throw .denied
  if rd s (f_TRN_ROOT_EN t) = 0 then throw .denied
  walkGo t ta w 4 (rd s (f_TRN_ROOT_ROOT t) * 4096)

/-- The output address, R and W of the valid leaf that maps a turnout address (R222, R223), through walker `wk`. -/
def findLeaf (wk t ta : Nat) (w : Bool) : MM (Nat × Bool × Bool) := do
  let s ← get
  match tlbHit s wk t ta with
  | some x => if ta < 2 ^ 48 && rd s (f_TRN_ROOT_EN t) = 1 then return x else throw .denied
  | none =>
    let l ← walkRoot t ta w
    return (l.pa + ta % 2 ^ l.sh, l.r, l.w)

/-- Translates a turnout address for a read or a write (R222, R223). -/
def translate (wk t ta : Nat) (w : Bool) : MM Nat := do
  let (a, r, w') ← findLeaf wk t ta w
  if permitted r w' w then return a else throw .denied

/-- The device physical address of an address in an owner's space: TA for a turnout, physical for 201h and 202h. -/
def ownerAddr (wk owner a : Nat) (w : Bool) : MM Nat :=
  if owner < 0x200 then translate wk owner a w
  else if a ≥ 2 ^ 52 then throw .denied else pure a

/-- The walker of the I/O die (R224). -/
def ioWalker : Nat := 16

/-- A unit of the I/O die that works for a requester, and not on data of an entry. -/
def ioFor (who : PReq) : Via := ⟨ioWalker, who, false, none⟩

/-- The same for an access at an address of an owner's space. -/
def Via.at_ (v : Via) (owner a : Nat) : Via := if owner < 0x200 then { v with ta := some a } else v

/-- Pieces of a range that no 4 KiB boundary cuts: fuel, address, length. -/
def pagePieces : Nat → Nat → Nat → List (Nat × Nat)
  | 0, _, _ => []
  | f + 1, a, n =>
    if n = 0 then []
    else
      let k := min n (4096 - a % 4096)
      (a, k) :: pagePieces f (a + k) (n - k)

/-- Reads bytes of an owner's space, page by page. -/
def readPieces (v : Via) (owner : Nat) : List (Nat × Nat) → MM (List Byte)
  | [] => pure []
  | (a, n) :: r => do
    let p ← ownerAddr v.wk owner a false
    let x ← physRead (v.at_ owner a) owner p n
    let y ← readPieces v owner r
    return x ++ y

/-- Reads `n` bytes at `a` of an owner's space (R220, R222). -/
def readSp (v : Via) (owner a n : Nat) : MM (List Byte) := readPieces v owner (pagePieces (n / 4096 + 2) a n)

/-- Translates every piece of a range for a write, before anything is written. -/
def writeTargets (v : Via) (owner : Nat) : List (Nat × Nat) → MM (List (Nat × Nat))
  | [] => pure []
  | (a, n) :: r => do
    let p ← ownerAddr v.wk owner a true
    let s ← get
    if !rangeOk s owner p n then throw .denied
    if targetInReset s p then throw .reset
    -- a write that would have to merge into an uncorrectable word fails before any other piece is written (R60, R174)
    if mergeBad s p n && !portGone s owner p then
      set (mergeUE s p n)
      throw .poison
    let y ← writeTargets v owner r
    return (p, n) :: y

/-- Stores bytes piece by piece at translated addresses. -/
def storePieces (v : Via) (owner : Nat) : List (Nat × Nat) → List Byte → MM Unit
  | [], _ => pure ()
  | (p, n) :: r, l => do
    physWrite v owner p (l.take n) false
    storePieces v owner r (l.drop n)

/-- Writes bytes at `a` of an owner's space: every page is translated and checked first (R220, R222). -/
def writeSp (v : Via) (owner a : Nat) (l : List Byte) : MM Unit := do
  let ps ← writeTargets v owner (pagePieces (l.length / 4096 + 2) a l.length)
  storePieces v owner ps l

/-- Runs a computation on a state. -/
def runMM {α : Type} (s : State) (x : MM α) : Except MErr α × State := (x.run).run s

end Sys2Proof.Machine
end

