-- ==== Sys2Proof/Machine/Flume.lean ====
section
/-! DEFINITION. Machine/Flume.lean: the way of a packet through the mesh: its header, its flits, its route, the credits of the
router inputs on it, the turns at a router's local input, and what stops at a router's local ports (R63, R65, R72–R80, R84).
Choices beyond the words of the spec: log entries DESIGN CHOICE 82, 83. -/

namespace Sys2Proof.Machine

/-- The virtual channel of a TYPE (R73): 0 MSG, 1 REQ (read requests and writes), 2 RSP (read data and acknowledgements). -/
def vcOf (ty : Nat) : Nat := if ty = 1 ∨ ty = 3 then 1 else if ty = 2 ∨ ty = 4 then 2 else 0

/-- Data flits of 128 bytes that follow the header (R78): those of RD_RSP and WR. -/
def dataFlits (p : Packet) : Nat := if p.ty = 2 ∨ p.ty = 3 then (p.data.length + 127) / 128 else 0

/-- Flits of a packet. -/
def flitCount (p : Packet) : Nat := 1 + dataFlits p

/-- The 16 bytes of a flume header (R78): reserved bits 0, FLITS, and bits [51:4] of the address of a request. -/
def flumeHeader (p : Packet) : List Byte :=
  natLE 2 (p.dest % 4096) ++ natLE 2 (p.src % 4096) ++ natLE 1 (p.ty % 16 * 16 + p.status % 16) ++ natLE 1 (dataFlits p % 64) ++
    natLE 2 (p.owner % 1024) ++ natLE 2 p.tag ++ natLE 6 (if p.ty = 1 ∨ p.ty = 3 then p.addr / 16 else 0)

/-- The local port of an endpoint (R79). -/
def localPort (e : Nat) : Nat := bits e 5 3

/-- The router of an endpoint (R79). -/
def routerAt (e : Nat) : Nat := bits e 11 6

/-- The input of its router at which a source enters: 0 the local input that the cells and the merge unit share (R63), 5 the
reservoir, 6 region control, 7 an edge port; inputs 1 to 4 come from the west, east, north and south neighbours. -/
def inputOf (e : Nat) : Nat := if localPort e < 5 then 0 else localPort e

/-- The key of a router input's buffer of one plane and virtual channel (R74). -/
def credKey (router port plane vc : Nat) : Nat := ((router * 8 + port) * 2 + plane) * 3 + vc

/-- Routers entered along one row, from column `x` to column `x'`, each with the input it is entered by. -/
def rowHops (y x x' : Nat) : List (Nat × Nat) :=
  if x ≤ x' then (List.range (x' - x)).map (fun i => (8 * y + x + 1 + i, 1))
  else (List.range (x - x')).map (fun i => (8 * y + (x - 1 - i), 2))

/-- Routers entered along one column, from row `y` to row `y'`. -/
def colHops (x y y' : Nat) : List (Nat × Nat) :=
  if y ≤ y' then (List.range (y' - y)).map (fun i => (8 * (y + 1 + i) + x, 3))
  else (List.range (y - y')).map (fun i => (8 * (y - 1 - i) + x, 4))

/-- The route of a packet: the buffers it passes, first along x, then along y (R73). -/
def route (p : Packet) : List Nat :=
  let a := routerAt p.src
  let b := routerAt p.dest
  ((a, inputOf p.src) :: (rowHops (a / 8) (a % 8) (b % 8) ++ colHops (b % 8) (a / 8) (b / 8))).map
    (fun h => credKey h.1 h.2 p.plane (vcOf p.ty))

/-- Places that a packet takes in a buffer of 8 flits (R74; DESIGN CHOICE, log entry 83). -/
def places (p : Packet) : Nat := min 8 (flitCount p)

/-- Is there a credit for a packet in a buffer (R74). -/
def credit (s : State) (k n : Nat) : Bool := decide (sget 0 s.fab.held k + n ≤ 8)

/-- Is `q` the packet `p`, however far it has come. -/
def samePacket (p q : Packet) : Bool := { q with hop := 0 } == { p with hop := 0 }

/-- Inputs of its route that a packet can reach from where it stands: each needs a credit. -/
def reach (s : State) (p : Packet) : Nat := p.hop + (((route p).drop p.hop).takeWhile (fun k => credit s k (places p))).length

/-- A packet comes to stand in the `h`-th input of its route and takes its places there; those it frees return by
FLIT_CREDIT_RETURN. -/
def standAt (s : State) (p : Packet) (h : Nat) : State :=
  let k := (route p).getD (h - 1) 0
  { s with fab := { s.fab with
    net := s.fab.net.replace p { p with hop := h }
    held := sput 0 s.fab.held k (sget 0 s.fab.held k + places p) } }

/-- The oldest packet of a requester that waits before its router's local input. -/
def waitsAt (s : State) (router j : Nat) : Option Packet :=
  s.fab.net.find? (fun q => q.hop == 0 && inputOf q.src == 0 && routerAt q.src == router && localPort q.src == j)

/-- The turn passes on to the requester after `j`. -/
def turnAfter (s : State) (router j : Nat) : State := { s with fab := { s.fab with rr := sput 0 s.fab.rr router ((j + 1) % 5) } }

/-- The block arbiter's grants before requester `j` has its turn: each other requester, from the one whose turn is next on, whose
next flit has a credit enters; one without a flit or a credit is skipped (R63). -/
def grantsBefore (s : State) (router j : Nat) : State :=
  let first := sget 0 s.fab.rr router
  ((List.range ((j + 5 - first) % 5)).foldl (fun s i =>
    match waitsAt s router ((first + i) % 5) with
    | some q => if credit s ((route q).getD 0 0) (places q) then standAt s q 1 else s
    | none => s) s)

/-- Is an older packet of the same source, destination, plane and virtual channel still in flight (R75). -/
def overtakes (s : State) (p : Packet) : Bool :=
  match s.fab.net.find? (fun q => vcOf q.ty == vcOf p.ty && q.plane == p.plane && q.src == p.src && q.dest == p.dest) with
  | some q => !samePacket p q
  | none => false

/-- Removes a packet from the flume. -/
def dropPacket (s : State) (p : Packet) : State := { s with fab := { s.fab with net := s.fab.net.eraseP (samePacket p) } }

/-- The packet as the flume holds it. -/
def inFlight1 (s : State) (p : Packet) : Option Packet := s.fab.net.find? (samePacket p)

/-- The state in which a packet that waits before its router's local input has its turn there (R63). -/
def turnOf (s : State) (q : Packet) : State :=
  if q.hop = 0 ∧ inputOf q.src = 0 then
    turnAfter (grantsBefore s (routerAt q.src) (localPort q.src)) (routerAt q.src) (localPort q.src)
  else s

/-- A packet travels to its destination (R73–R75): it arrives and leaves the flume, or it waits for a credit, or behind an older
one of its source, where it has come to. A packet that the model's flume does not hold comes from the last router already. -/
def arrive (s : State) (p : Packet) : Bool × State :=
  match inFlight1 s p with
  | none => (true, s)
  | some q =>
    if overtakes s p then (false, s)
    else
      let s := if reach s q = q.hop then s else turnOf s q
      let h := reach s q
      if h = (route q).length then (true, dropPacket s p)
      else (false, if h = q.hop then s else standAt s q h)

/-- A message that its destination does not take waits in the last router input of its route (R74, R203). -/
def waitLast (s : State) (p : Packet) : State :=
  match inFlight1 s p with
  | none =>
    let s := { s with fab := { s.fab with net := s.fab.net ++ [{ p with hop := 0 }] } }
    standAt s { p with hop := 0 } (route p).length
  | some q => if q.hop = (route q).length then s else standAt (turnOf s q) q (route q).length

/-- Flits that stand in a buffer. -/
def standing (s : State) (k : Nat) : Nat :=
  ((s.fab.net.filter (fun q => decide (0 < q.hop) && (route q).getD (q.hop - 1) 0 == k)).map places).sum

/-- The unit of a reset that stops a router's local ports: the block, or the region that contains it (R65, R67, R84). -/
def portStopped (s : State) (e : Nat) : Option Nat :=
  let k := blockAtRouter (routerAt e)
  if localPort e = 7 then none
  else if nin s.fab.regionRst (k / 4) then some (0x140 + k / 4)
  else if nin s.fab.blockRst k then some (0x100 + k)
  else none

/-- Does an endpoint of local port 7 name an edge port that its router carries (R76, R79). -/
def edgeExists (e : Nat) : Bool :=
  let r := e / 64
  let x := r % 8
  let y := r / 8
  if bit e 0 then y == 0 || y == 7 else x == 0 || x == 7

/-- Is a packet addressed to an edge port that its router does not carry: it is discarded there (R79). -/
def noSuchPort (p : Packet) : Bool := localPort p.dest == 7 && !edgeExists p.dest

/-- Errors that a flit's check bits show on its way (R80): a single-bit one is corrected and counted, a double-bit one poisons the
flit. A packet has no flit beyond its own. -/
def flitErr (s : State) (p : Packet) (e : FlitErr) : State × Packet :=
  if flitCount p ≤ e.flit.val then (s, p)
  else match e.kind with
    | 0 => (s, p)
    | 1 => (event s 0x199 0 0x01 0, p)
    | _ => (event s 0x199 1 0x02 0, { p with poison := p.poison ||| BitVec.ofNat 33 (2 ^ e.flit.val) })

/-- Is data flit `j` (from 0) of a packet poisoned: its own mark, or the header's, which stands for the whole packet. -/
def flitBad (p : Packet) (j : Nat) : Bool := p.poison.getLsbD 0 || p.poison.getLsbD (j + 1)

/-- The endpoint of the I/O die as the source of traffic to an endpoint (R76): N_x of the destination's column for rows 0–3, S_x for
rows 4–7. -/
def ioEntry (e : Nat) : Nat :=
  let r := routerAt e
  64 * (if r / 8 < 4 then r % 8 else 56 + r % 8) + 8 * 7 + 1

end Sys2Proof.Machine
end

