-- ==== Sys2Proof/Machine/KDecode.lean ====
section
/-! DEFINITION. Machine/KDecode.lean: the encoder and the decoder of Kiben words, with the subcode that an illegal word
reports (R98–R101, R126, R145, R154, R198, R205).
Choices beyond the words of the spec: log entries DESIGN CHOICE 11; DEDUCED 20. -/

namespace Sys2Proof.Machine

/-! ### Encoder -/

/-- funct of an ALU instruction (R100). -/
def aluFunct : AluOp → BitVec 6
  | .add => 0x00 | .sub => 0x01 | .adc => 0x02 | .sbc => 0x03
  | .and => 0x08 | .or => 0x09 | .xor => 0x0A | .andn => 0x0B
  | .sll => 0x0C | .srl => 0x0D | .sra => 0x0E | .ror => 0x0F
  | .mul => 0x10 | .mulh => 0x11 | .mulhu => 0x12
  | .div => 0x14 | .divu => 0x15 | .rem => 0x16 | .remu => 0x17

/-- Major opcode of a load (R99). -/
def loadMajor : LoadOp → BitVec 6
  | .lb => 0x10 | .lbu => 0x11 | .lh => 0x12 | .lhu => 0x13 | .lw => 0x14

/-- Major opcode of a store (R99). -/
def storeMajor : StoreOp → BitVec 6
  | .sb => 0x18 | .sh => 0x19 | .sw => 0x1A

/-- Format R (R98). -/
def fmtR (rd rs1 rs2 x : BitVec 5) (funct : BitVec 6) : Word := 0x01#6 ++ rd ++ rs1 ++ rs2 ++ x ++ funct
/-- Formats I and S (R98). -/
def fmtI (major : BitVec 6) (a b : BitVec 5) (imm : BitVec 16) : Word := major ++ a ++ b ++ imm
/-- Format SYS (R98). -/
def fmtSys (reg : BitVec 5) (funct : BitVec 4) (arg : BitVec 12) : Word := 0x30#6 ++ reg ++ 0#5 ++ funct ++ arg
/-- A coprocessor word of three 5-bit fields, seven bits and a 4-bit minor opcode (R145, R198, R205). -/
def fmtCP (major : BitVec 6) (a b c : BitVec 5) (x : BitVec 7) (op : BitVec 4) : Word :=
  major ++ a ++ b ++ c ++ x ++ op
/-- A CP1 word (R154). -/
def fmtV (a b c : BitVec 5) (x : BitVec 6) (op : BitVec 5) : Word := 0x39#6 ++ a ++ b ++ c ++ x ++ op
/-- mask/MU/T (R154). -/
def vmBits (m : VMask) : BitVec 6 := m.mask ++ m.mu ++ m.t

/-- CP0 words (R145). -/
def encCP0 : CP0Op → Word
  | .tld f a b t k => fmtCP 0x38 f a b (t ++ k) 0x0
  | .tldt f a b t k => fmtCP 0x38 f a b (t ++ k) 0x1
  | .tlds a b t => fmtCP 0x38 0 a b (t ++ 0#3) 0x2
  | .tmma bank a b o => fmtCP 0x38 (bank ++ a) (b ++ o ++ 0#1) 0 0 0x3
  | .tclr bank => fmtCP 0x38 (bank ++ 0#3) 0 0 0 0x4
  | .trnd f a b rm bank => fmtCP 0x38 f a b (rm ++ bank ++ 0#2) 0x5
  | .txp bank a b => fmtCP 0x38 (bank ++ 0#3) a b 0 0x6
  | .tim bank a b => fmtCP 0x38 (bank ++ 0#3) a b 0 0x7
  | .tmtc a n => fmtCP 0x38 0 a 0 n 0x8
  | .tmfc d n => fmtCP 0x38 d 0 0 n 0x9
  | .tsig s => fmtCP 0x38 0 0 0 (0#2 ++ s) 0xA
  | .twait a s => fmtCP 0x38 0 a 0 (0#2 ++ s) 0xB

/-- Minor opcode of a three-register CP1 instruction (R154). -/
def vbinMinor : VBinOp → BitVec 5
  | .vadd => 0x03 | .vsub => 0x04 | .vmul => 0x05 | .vmax => 0x06 | .vmin => 0x07 | .vfma => 0x08
  | .vsel => 0x09 | .vexpd => 0x0E | .vexp2d => 0x0F

/-- CP1 words (R154). -/
def encCP1 : CP1Op → Word
  | .vld d a => fmtV d a 0 0 0x00
  | .vst s a m => fmtV s a 0 (vmBits m) 0x01
  | .vbc d a t => fmtV d a 0 (0#4 ++ t) 0x02
  | .vbin op d a b m => fmtV d a b (vmBits m) (vbinMinor op)
  | .vcmp m a b c t => fmtV (0#2 ++ m) a b (c ++ t) 0x0A
  | .vhmax d a m => fmtV d a 0 (vmBits m) 0x0B
  | .vcvt d s dst src => fmtV d s dst (src ++ 0#1) 0x0C
  | .vfn d a fn rt m => fmtV d a (fn ++ rt) (vmBits m) 0x0D
  | .vred x a m => fmtV (0#2 ++ x) a 0 (vmBits m) 0x10
  | .vdot x a b m => fmtV (0#2 ++ x) a b (vmBits m) 0x11
  | .vxclr x => fmtV (0#2 ++ x) 0 0 0 0x12
  | .vxrnd d x l t => fmtV d (x ++ 0#2) l (0#4 ++ t) 0x13
  | .vquot d xa xb l t => fmtV d (xa ++ 0#2) l (xb ++ 0#1 ++ t) 0x14
  | .vxp x a => fmtV (0#2 ++ x) a 0 0 0x15
  | .vxim x a => fmtV (0#2 ++ x) a 0 0 0x16
  | .vmtc a n => fmtV 0 a 0 n 0x17
  | .vmfc d n => fmtV d 0 0 n 0x18
  | .vsig s => fmtV 0 0 0 (s ++ 0#1) 0x19
  | .vwait a s => fmtV 0 a 0 (s ++ 0#1) 0x1A

/-- CP2 words (R198). -/
def encCP2 : CP2Op → Word
  | .sinc a s => fmtCP 0x3A 0 a 0 (0#2 ++ s) 0x0
  | .swait a s => fmtCP 0x3A 0 a 0 (0#2 ++ s) 0x1
  | .stest d s => fmtCP 0x3A d 0 0 (0#2 ++ s) 0x2
  | .sset a s => fmtCP 0x3A 0 a 0 (0#2 ++ s) 0x3
  | .smtc a n => fmtCP 0x3A 0 a 0 n 0x4
  | .smfc d n => fmtCP 0x3A d 0 0 n 0x5

/-- CP3 words (R205). -/
def encCP3 : CP3Op → Word
  | .dq a => fmtCP 0x3B 0 a 0 0 0x0
  | .dmsg a b o => fmtCP 0x3B 0 a b (o ++ 0#6) 0x1

/-- The word of a Kiben instruction. -/
def kEncode : KInstr → Word
  | .alu op d a b => fmtR d a b 0 (aluFunct op)
  | .cmp a b => fmtR 0 a b 0 0x04
  | .csel c d a b => fmtR d a b (0#1 ++ c) 0x18
  | .addi d a i => fmtI 0x02 d a i
  | .cmpi a i => fmtI 0x03 0 a i
  | .andi d a i => fmtI 0x04 d a i
  | .ori d a i => fmtI 0x05 d a i
  | .xori d a i => fmtI 0x06 d a i
  | .shi ty d a n => fmtI 0x07 d a (ty ++ 0#9 ++ n)
  | .lui d i => fmtI 0x08 d 0 i
  | .load op d a i => fmtI (loadMajor op) d a i
  | .store op b a i => fmtI (storeMajor op) b a i
  | .bc c o => 0x20#6 ++ c ++ o
  | .j o => 0x21#6 ++ o
  | .jal o => 0x22#6 ++ o
  | .jalr d a i => fmtI 0x23 d a i
  | .loop k r l => 0x24#6 ++ k ++ 0#3 ++ r ++ 0#4 ++ l
  | .loopi k c l => 0x25#6 ++ k ++ c ++ l
  | .mfc d n => fmtSys d 0x0 n
  | .mtc r n => fmtSys r 0x1 n
  | .syscall c => fmtSys 0 0x2 c
  | .eret => fmtSys 0 0x3 0
  | .break c => fmtSys 0 0x4 c
  | .fence cp i => fmtSys 0 0x5 (0#10 ++ cp ++ i)
  | .park => fmtSys 0 0x6 0
  | .cp0 o => encCP0 o
  | .cp1 o => encCP1 o
  | .cp2 o => encCP2 o
  | .cp3 o => encCP3 o

/-! ### Values that are reserved -/

/-- Is a condition code defined (R104). -/
def condOk (c : BitVec 4) : Bool := decide (c.toNat < 14)

/-- Is a control register number listed in the core's map (R114). -/
def crListed (n : BitVec 12) : Bool :=
  let k := n.toNat
  decide (k ≤ 8) || (decide (0x10 ≤ k) && decide (k ≤ 0x18)) || (decide (0x20 ≤ k) && decide (k ≤ 0x24)) ||
  (decide (0x26 ≤ k) && decide (k ≤ 0x29)) || k == 0x30 || k == 0x31 || (decide (0x40 ≤ k) && decide (k ≤ 0x4F))

/-- Is a CP0 control register number listed (R147). -/
def t0Listed (n : BitVec 7) : Bool :=
  let k := n.toNat
  decide (k ≤ 2) || (decide (4 ≤ k) && decide (k ≤ 6)) || (decide (8 ≤ k) && decide (k ≤ 0xC)) ||
  (decide (0x10 ≤ k) && decide (k ≤ 0x1F))

/-- Is a CP1 control register number listed (R156). -/
def v1Listed (n : BitVec 6) : Bool :=
  let k := n.toNat
  decide (k ≤ 6) || (decide (8 ≤ k) && decide (k ≤ 0xB)) || (decide (0x10 ≤ k) && decide (k ≤ 0x1F))

/-- Is a CP2 control register number listed (R200). -/
def s2Listed (n : BitVec 7) : Bool := decide (n.toNat ≤ 5)

/-- Is a format code defined (R16). -/
def fmtOk (f : BitVec 5) : Bool := decide (f.toNat < 0x14)

/-- Is a lane valid for a type T (R154). -/
def laneOk (l : BitVec 5) (t : BitVec 2) : Bool := t != 0 || decide (l.toNat < 16)

/-- Is mask/MU/T free of a reserved type, and of a mask without MU (R148). -/
def vmResOk (m : VMask) : Bool := m.mu == 1 || m.mask == 0

/-! ### Decoder -/

/-- Outcome of decoding: an instruction, or ILLEGAL with its subcode (R126). -/
inductive KDec
  | ok (i : KInstr)
  | ill (sub : Nat)
deriving DecidableEq, Repr

/-- Answers the instruction unless a reserved field is non-zero (SUB 1) or a value is reserved (SUB 3). -/
def kChk (resZero valOk : Bool) (i : KInstr) : KDec :=
  if !resZero then .ill 1 else if !valOk then .ill 3 else .ok i

/-- Bits [hi:lo] as a bit vector. -/
abbrev fld (w : Word) (lo n : Nat) : BitVec n := w.extractLsb' lo n

/-- The ALU operation of a funct value (R100). -/
def aluOfFunct (f : BitVec 6) : Option AluOp :=
  match f.toNat with
  | 0x00 => some .add | 0x01 => some .sub | 0x02 => some .adc | 0x03 => some .sbc
  | 0x08 => some .and | 0x09 => some .or | 0x0A => some .xor | 0x0B => some .andn
  | 0x0C => some .sll | 0x0D => some .srl | 0x0E => some .sra | 0x0F => some .ror
  | 0x10 => some .mul | 0x11 => some .mulh | 0x12 => some .mulhu
  | 0x14 => some .div | 0x15 => some .divu | 0x16 => some .rem | 0x17 => some .remu
  | _ => none

/-- Major 01h (R100). -/
def decAlu (w : Word) : KDec :=
  let rd := fld w 21 5
  let a := fld w 16 5
  let b := fld w 11 5
  let x := fld w 6 5
  let f := fld w 0 6
  match aluOfFunct f with
  | some op => kChk (x == 0) true (.alu op rd a b)
  | none =>
    if f == 0x04 then kChk (rd == 0 && x == 0) true (.cmp a b)
    else if f == 0x18 then kChk (fld w 10 1 == 0) (condOk (fld w 6 4)) (.csel (fld w 6 4) rd a b)
    else .ill 0

/-- Major 30h (R101). -/
def decSys (w : Word) : KDec :=
  let reg := fld w 21 5
  let z := fld w 16 5 == 0
  let f := fld w 12 4
  let arg := fld w 0 12
  match f.toNat with
  | 0 => kChk z (crListed arg) (.mfc reg arg)
  | 1 => kChk z (crListed arg) (.mtc reg arg)
  | 2 => kChk (z && reg == 0) true (.syscall arg)
  | 3 => kChk (z && reg == 0 && arg == 0) true .eret
  | 4 => kChk (z && reg == 0) true (.break arg)
  | 5 => kChk (z && reg == 0 && fld w 2 10 == 0) true (.fence (fld w 1 1) (fld w 0 1))
  | 6 => kChk (z && reg == 0 && arg == 0) true .park
  | _ => .ill 0

/-- Major 38h (R145). -/
def decCP0 (w : Word) : KDec :=
  let a := fld w 21 5
  let b := fld w 16 5
  let c := fld w 11 5
  let x := fld w 4 7
  let t := fld w 7 4
  let bank := fld w 24 2
  match (fld w 0 4).toNat with
  | 0x0 => kChk true (fmtOk a) (.cp0 (.tld a b c t (fld w 4 3)))
  | 0x1 => kChk true (fmtOk a) (.cp0 (.tldt a b c t (fld w 4 3)))
  | 0x2 => kChk (a == 0 && fld w 4 3 == 0) true (.cp0 (.tlds b c t))
  | 0x3 => kChk (fld w 16 1 == 0 && c == 0 && x == 0) true
      (.cp0 (.tmma bank (fld w 21 3) (fld w 18 3) (fld w 17 1)))
  | 0x4 => kChk (fld w 21 3 == 0 && b == 0 && c == 0 && x == 0) true (.cp0 (.tclr bank))
  | 0x5 => kChk (fld w 4 2 == 0) (fmtOk a && decide ((fld w 8 3).toNat < 6))
      (.cp0 (.trnd a b c (fld w 8 3) (fld w 6 2)))
  | 0x6 => kChk (fld w 21 3 == 0 && x == 0) true (.cp0 (.txp bank b c))
  | 0x7 => kChk (fld w 21 3 == 0 && x == 0) true (.cp0 (.tim bank b c))
  | 0x8 => kChk (a == 0 && c == 0) (t0Listed x) (.cp0 (.tmtc b x))
  | 0x9 => kChk (b == 0 && c == 0) (t0Listed x) (.cp0 (.tmfc a x))
  | 0xA => kChk (a == 0 && b == 0 && c == 0 && fld w 9 2 == 0) true (.cp0 (.tsig (fld w 4 5)))
  | 0xB => kChk (a == 0 && c == 0 && fld w 9 2 == 0) true (.cp0 (.twait b (fld w 4 5)))
  | _ => .ill 4

/-- The three-register CP1 operation of a minor opcode (R154). -/
def vbinOfMinor (n : Nat) : Option VBinOp :=
  match n with
  | 0x03 => some .vadd | 0x04 => some .vsub | 0x05 => some .vmul | 0x06 => some .vmax
  | 0x07 => some .vmin | 0x08 => some .vfma | 0x09 => some .vsel | 0x0E => some .vexpd
  | 0x0F => some .vexp2d
  | _ => none

/-- Is a conversion refused: an MX format against FP32 or INT32 (R150). -/
def cvtRefused (dst src : BitVec 5) : Bool :=
  let mx (f : BitVec 5) := decide (8 ≤ f.toNat) && decide (f.toNat ≤ 0xD)
  let wide (f : BitVec 5) := f == 0x00 || f == 0x0E
  (mx dst && wide src) || (mx src && wide dst)

/-- Major 39h (R154). -/
def decCP1 (w : Word) : KDec :=
  let a := fld w 21 5
  let b := fld w 16 5
  let c := fld w 11 5
  let x := fld w 5 6
  let m : VMask := ⟨fld w 8 3, fld w 7 1, fld w 5 2⟩
  let tOk := fld w 5 2 != 3
  let mOk := vmResOk m
  let hiZ := fld w 24 2 == 0
  let xr := fld w 21 3
  let n := (fld w 0 5).toNat
  match vbinOfMinor n with
  | some op => kChk mOk (tOk && (op != .vsel || m.mu == 1)) (.cp1 (.vbin op a b c m))
  | none =>
    match n with
    | 0x00 => kChk (c == 0 && x == 0) true (.cp1 (.vld a b))
    | 0x01 => kChk (c == 0 && mOk) tOk (.cp1 (.vst a b m))
    | 0x02 => kChk (c == 0 && fld w 7 4 == 0) tOk (.cp1 (.vbc a b (fld w 5 2)))
    | 0x0A => kChk hiZ (tOk && decide ((fld w 7 4).toNat < 6)) (.cp1 (.vcmp xr b c (fld w 7 4) (fld w 5 2)))
    | 0x0B => kChk (c == 0 && mOk) tOk (.cp1 (.vhmax a b m))
    | 0x0C =>
      if fld w 5 1 != 0 then .ill 1
      else if !(fmtOk c && fmtOk (fld w 6 5)) then .ill 3
      else if cvtRefused c (fld w 6 5) then .ill 4
      else .ok (.cp1 (.vcvt a b c (fld w 6 5)))
    | 0x0D => kChk mOk (tOk && decide ((fld w 13 3).toNat < 6) && fld w 11 2 != 3)
        (.cp1 (.vfn a b (fld w 13 3) (fld w 11 2) m))
    | 0x10 => kChk (hiZ && c == 0 && mOk) tOk (.cp1 (.vred xr b m))
    | 0x11 => kChk (hiZ && mOk) tOk (.cp1 (.vdot xr b c m))
    | 0x12 => kChk (hiZ && b == 0 && c == 0 && x == 0) true (.cp1 (.vxclr xr))
    | 0x13 => kChk (fld w 16 2 == 0 && fld w 7 4 == 0) (tOk && laneOk c (fld w 5 2))
        (.cp1 (.vxrnd a (fld w 18 3) c (fld w 5 2)))
    | 0x14 => kChk (fld w 16 2 == 0 && fld w 7 1 == 0) (tOk && laneOk c (fld w 5 2))
        (.cp1 (.vquot a (fld w 18 3) (fld w 8 3) c (fld w 5 2)))
    | 0x15 => kChk (hiZ && c == 0 && x == 0) true (.cp1 (.vxp xr b))
    | 0x16 => kChk (hiZ && c == 0 && x == 0) true (.cp1 (.vxim xr b))
    | 0x17 => kChk (a == 0 && c == 0) (v1Listed x) (.cp1 (.vmtc b x))
    | 0x18 => kChk (b == 0 && c == 0) (v1Listed x) (.cp1 (.vmfc a x))
    | 0x19 => kChk (a == 0 && b == 0 && c == 0 && fld w 5 1 == 0) true (.cp1 (.vsig (fld w 6 5)))
    | 0x1A => kChk (a == 0 && c == 0 && fld w 5 1 == 0) true (.cp1 (.vwait b (fld w 6 5)))
    | _ => .ill 4

/-- Major 3Ah (R198). -/
def decCP2 (w : Word) : KDec :=
  let a := fld w 21 5
  let b := fld w 16 5
  let c := fld w 11 5
  let x := fld w 4 7
  let s := fld w 4 5
  let hz := fld w 9 2 == 0
  match (fld w 0 4).toNat with
  | 0 => kChk (a == 0 && c == 0 && hz) true (.cp2 (.sinc b s))
  | 1 => kChk (a == 0 && c == 0 && hz) true (.cp2 (.swait b s))
  | 2 => kChk (b == 0 && c == 0 && hz) true (.cp2 (.stest a s))
  | 3 => kChk (a == 0 && c == 0 && hz) true (.cp2 (.sset b s))
  | 4 => kChk (a == 0 && c == 0) (s2Listed x) (.cp2 (.smtc b x))
  | 5 => kChk (b == 0 && c == 0) (s2Listed x) (.cp2 (.smfc a x))
  | _ => .ill 4

/-- Major 3Bh (R205). -/
def decCP3 (w : Word) : KDec :=
  let a := fld w 21 5
  let b := fld w 16 5
  let c := fld w 11 5
  match (fld w 0 4).toNat with
  | 0 => kChk (a == 0 && c == 0 && fld w 4 7 == 0) true (.cp3 (.dq b))
  | 1 => kChk (a == 0 && fld w 4 6 == 0) true (.cp3 (.dmsg b c (fld w 10 1)))
  | _ => .ill 4

/-- Decodes a word (R98–R101, R126). -/
def kDecode (w : Word) : KDec :=
  let a := fld w 21 5
  let b := fld w 16 5
  let i := fld w 0 16
  match (fld w 26 6).toNat with
  | 0x01 => decAlu w
  | 0x02 => .ok (.addi a b i)
  | 0x03 => kChk (a == 0) true (.cmpi b i)
  | 0x04 => .ok (.andi a b i)
  | 0x05 => .ok (.ori a b i)
  | 0x06 => .ok (.xori a b i)
  | 0x07 => kChk (fld w 5 9 == 0) true (.shi (fld w 14 2) a b (fld w 0 5))
  | 0x08 => kChk (b == 0) true (.lui a i)
  | 0x10 => .ok (.load .lb a b i)
  | 0x11 => .ok (.load .lbu a b i)
  | 0x12 => .ok (.load .lh a b i)
  | 0x13 => .ok (.load .lhu a b i)
  | 0x14 => .ok (.load .lw a b i)
  | 0x18 => .ok (.store .sb a b i)
  | 0x19 => .ok (.store .sh a b i)
  | 0x1A => .ok (.store .sw a b i)
  | 0x20 => kChk true (condOk (fld w 22 4)) (.bc (fld w 22 4) (fld w 0 22))
  | 0x21 => .ok (.j (fld w 0 26))
  | 0x22 => .ok (.jal (fld w 0 26))
  | 0x23 => .ok (.jalr a b i)
  | 0x24 => kChk (fld w 21 3 == 0 && fld w 12 4 == 0) (fld w 24 2 != 3 && fld w 0 12 != 0)
      (.loop (fld w 24 2) b (fld w 0 12))
  | 0x25 => kChk true (fld w 24 2 != 3 && fld w 0 12 != 0) (.loopi (fld w 24 2) (fld w 12 12) (fld w 0 12))
  | 0x30 => decSys w
  | 0x38 => decCP0 w
  | 0x39 => decCP1 w
  | 0x3A => decCP2 w
  | 0x3B => decCP3 w
  | 0x3C => .ill 2 | 0x3D => .ill 2 | 0x3E => .ill 2 | 0x3F => .ill 2
  | _ => .ill 0

/-! ### Well-formed instructions: those whose fields hold no reserved value -/

/-- CP0 fields. -/
def cp0Ok : CP0Op → Bool
  | .tld f _ _ _ _ | .tldt f _ _ _ _ => fmtOk f
  | .trnd f _ _ rm _ => fmtOk f && decide (rm.toNat < 6)
  | .tmtc _ n | .tmfc _ n => t0Listed n
  | .tlds _ _ _ | .tmma _ _ _ _ | .tclr _ | .txp _ _ _ | .tim _ _ _ | .tsig _ | .twait _ _ => true

/-- CP1 fields. -/
def cp1Ok : CP1Op → Bool
  | .vst _ _ m | .vhmax _ _ m | .vred _ _ m | .vdot _ _ _ m => vmResOk m && m.t != 3
  | .vbc _ _ t => t != 3
  | .vbin op _ _ _ m => vmResOk m && m.t != 3 && (op != .vsel || m.mu == 1)
  | .vcmp _ _ _ c t => t != 3 && decide (c.toNat < 6)
  | .vcvt _ _ d s => fmtOk d && fmtOk s && !cvtRefused d s
  | .vfn _ _ fn rt m => vmResOk m && m.t != 3 && decide (fn.toNat < 6) && rt != 3
  | .vxrnd _ _ l t | .vquot _ _ _ l t => t != 3 && laneOk l t
  | .vmtc _ n | .vmfc _ n => v1Listed n
  | .vld _ _ | .vxclr _ | .vxp _ _ | .vxim _ _ | .vsig _ | .vwait _ _ => true

/-- An instruction that the decoder accepts. -/
def kOk : KInstr → Bool
  | .csel c _ _ _ | .bc c _ => condOk c
  | .loop k _ l | .loopi k _ l => k != 3 && l != 0
  | .mfc _ n | .mtc _ n => crListed n
  | .cp0 o => cp0Ok o
  | .cp1 o => cp1Ok o
  | .cp2 (.smtc _ n) | .cp2 (.smfc _ n) => s2Listed n
  | .cp2 _ | .cp3 _ | .alu _ _ _ _ | .cmp _ _ | .addi _ _ _ | .cmpi _ _ | .andi _ _ _ | .ori _ _ _ | .xori _ _ _
  | .shi _ _ _ _ | .lui _ _ | .load _ _ _ _ | .store _ _ _ _ | .j _ | .jal _ | .jalr _ _ _ | .syscall _ | .eret
  | .break _ | .fence _ _ | .park => true

end Sys2Proof.Machine
end

