-- ==== Sys2Proof/Machine/Operands.lean ====
section
/-! DEFINITION. Machine/Operands.lean: the operands of Kiben instructions: registers, immediates, the cell-local map, window
segments, the MPU and the control registers (R91, R93, R94, R114–R118, R225).
Choices beyond the words of the spec: log entries DESIGN CHOICE 88; DEDUCED 66. -/

namespace Sys2Proof.Machine

/-- A general register; g0 reads as zero (R91). -/
def gReg (k : KCore) (r : BitVec 5) : Word := if r = 0 then 0 else sget 0 k.g r.toNat

/-- Writes a general register; writes to g0 are discarded (R91). -/
def setG (k : KCore) (r : BitVec 5) (v : Word) : KCore :=
  if r = 0 then k else { k with g := sput 0 k.g r.toNat v }

/-- Sign extension of a 16-bit immediate. -/
def sx16 (i : BitVec 16) : Word := i.signExtend 32
/-- Zero extension of a 16-bit immediate. -/
def zx16 (i : BitVec 16) : Word := i.zeroExtend 32

/-! ### CR_STATUS (bits EXL PIE PPRIV IE PRIV) -/

/-- EXL. -/
def exl (k : KCore) : Bool := k.status.getLsbD 4
/-- IE. -/
def ie (k : KCore) : Bool := k.status.getLsbD 1
/-- User mode: PRIV = 0. -/
def userMode (k : KCore) : Bool := !k.status.getLsbD 0

/-- CR_STATUS at a trap (R121): PPRIV := PRIV, PIE := IE, PRIV := 1, IE := 0, EXL := 1. -/
def statusTrap (st : BitVec 5) : BitVec 5 :=
  BitVec.ofNat 5 (16 + 8 * b2n (st.getLsbD 1) + 4 * b2n (st.getLsbD 0) + 1)

/-- CR_STATUS at ERET (R117): PRIV := PPRIV, IE := PIE, EXL := 0; PPRIV and PIE stay. -/
def statusEret (st : BitVec 5) : BitVec 5 :=
  BitVec.ofNat 5 (8 * b2n (st.getLsbD 3) + 4 * b2n (st.getLsbD 2) + 2 * b2n (st.getLsbD 3) + b2n (st.getLsbD 2))

/-! ### Hardware loops (R107–R111) -/

/-- ls k. -/
def loopS (k : KCore) (i : Nat) : Word := sget 0 k.loops i
/-- le k. -/
def loopE (k : KCore) (i : Nat) : Word := sget 0 k.loops (4 + i)
/-- lc k. -/
def loopC (k : KCore) (i : Nat) : Word := sget 0 k.loops (8 + i)

/-- The depth: active levels are 0 to depth − 1. -/
def loopDepth (k : KCore) : Nat :=
  if loopC k 0 = 0 then 0 else if loopC k 1 = 0 then 1 else if loopC k 2 = 0 then 2 else 3

/-- Sets lc i. -/
def setLC (k : KCore) (i : Nat) (v : Word) : KCore := { k with loops := sput 0 k.loops (8 + i) v }

/-- Ends level i and every level inside it. -/
def endLoops (k : KCore) (i : Nat) : KCore :=
  (List.range 3).foldl (fun k j => if i ≤ j then setLC k j 0 else k) k

/-- The next program counter after a sequential completion at `a` (R109); the argument counts the levels still
to be checked. -/
def nextPcGo (a : Word) : Nat → KCore → KCore
  | 0, k => { k with pc := a + 4 }
  | d + 1, k =>
    if a = loopE k d then
      if 1 < (loopC k d).toNat then { setLC k d (loopC k d - 1) with pc := loopS k d }
      else nextPcGo a d (setLC k d 0)
    else { k with pc := a + 4 }

/-- Sequential completion of the instruction at pc (R109): suppressed loop checks while EXL = 1 (R111). -/
def nextPc (k : KCore) : KCore :=
  if exl k then { k with pc := k.pc + 4 } else nextPcGo k.pc (loopDepth k) k

/-- A taken branch to `t` ends the outermost level whose body it leaves, and every level inside it (R110). -/
def leaveLoops (k : KCore) (t : Word) : KCore :=
  let d := loopDepth k
  match (List.range d).find? (fun i => decide (t.toNat < (loopS k i).toNat) || decide ((loopE k i).toNat < t.toNat)) with
  | some i => endLoops k i
  | none => k

/-! ### The MPU (R118) -/

/-- Kinds of access that the MPU tells apart. -/
inductive AccKind
  | fetch | load | store
deriving DecidableEq, Repr

/-- May user mode make this access (R118): the lowest-numbered matching region decides. -/
def mpuOk (k : KCore) (a : Word) (kind : AccKind) : Bool :=
  let u := a.toNat / 256
  match (List.range 8).find? (fun i =>
      let b := (sget 0 k.mpu i).toNat
      let l := (sget 0 k.mpu (8 + i)).toNat
      b.testBit 3 && decide (b / 256 ≤ u) && decide (u ≤ l / 256)) with
  | none => false
  | some i =>
    let b := (sget 0 k.mpu i).toNat
    match kind with
    | .fetch => b.testBit 2
    | .load => b.testBit 0
    | .store => b.testBit 1

/-- Are all 256-byte units of a range permitted to user mode (R134). -/
def mpuRange (k : KCore) (a n : Nat) (kind : AccKind) : Bool :=
  (List.range ((a + n + 255) / 256 - a / 256)).all (fun i => mpuOk k (BitVec.ofNat 32 ((a / 256 + i) * 256)) kind)

/-! ### The cell-local map (R93, R225) -/

/-- What a cell-local address reaches. -/
inductive Local
  | imem (off : Nat)
  | scratch (off : Nat)
  | rsv (off : Nat)
  | trans (seg off : Nat)
  | none
deriving DecidableEq, Repr

/-- The cell-local map (R93). -/
def localOf (a : Nat) : Local :=
  if a < 0x8000 then .imem a
  else if 0x1000_0000 ≤ a ∧ a < 0x1010_0000 then .scratch (a - 0x1000_0000)
  else if 0x4000_0000 ≤ a ∧ a < 0x5000_0000 then .rsv (a - 0x4000_0000)
  else if 0x8000_0000 ≤ a ∧ a < 0x1_0000_0000 then .trans ((a - 0x8000_0000) / 0x1000_0000) (a % 0x1000_0000)
  else .none

/-- A window segment of a cell (R225): mode and base, none while it is disabled. -/
def winSeg (s : State) (c seg : Nat) : Option (Bool × Nat) :=
  let r := regionOf c
  let i := c % 16
  let base := rd s (f_RGN_WIN_BASE r i seg) * 0x1000_0000
  let mode := rd s (f_RGN_WIN_MODE r i seg) == 1
  if rd s (f_RGN_WIN_EN r i seg) = 0 then none
  else if !mode && decide (2 ^ 48 ≤ base) then none
  else some (mode, base)

/-- A cell's core as a requester. -/
def cellVia (c : Nat) : Via := ⟨regionOf c, .core c, false, none⟩

/-- The window segment that a cell-local address lies in, as it stands now. -/
def winAt (s : State) (c a : Nat) : Option (Bool × Nat) :=
  match localOf a with
  | .trans seg _ => winSeg s c seg
  | _ => none

/-- The turnout address behind a cell-local address through a window segment: none for a physical mapping. -/
def winTA (win : Option (Bool × Nat)) (a : Nat) : Option Nat :=
  match localOf a, win with
  | .trans _ o, some (false, b) => some (b + o)
  | _, _ => none

/-- The device physical address behind a cell-local address through a window segment (R95, R225): an access keeps the mapping that it was
issued with (R226). -/
def localPAw (win : Option (Bool × Nat)) (c : Nat) (a : Nat) (w : Bool) : MM Nat :=
  match localOf a with
  | .imem o => pure (imemPA c + o)
  | .scratch o => pure (scratchPA c + o)
  | .rsv o => pure (0x100_0000_0000 + regionOf c * 0x1000_0000 + o)
  | .trans _ o => do
    let s ← get
    match win with
    | none => throw .denied
    | some (true, b) => pure (b + o)
    | some (false, b) => translate (regionOf c) (cellOf s c).turnout.toNat (b + o) w
  | .none => throw .denied

/-- The device physical address behind a cell-local address now, for DMA, debug and blocking accesses (R95, R225). -/
def localPA (c : Nat) (a : Nat) (w : Bool) : MM Nat := do
  let s ← get
  localPAw (winAt s c a) c a w

/-! ### Control registers (R114–R116) -/

/-- May user mode reach a control register (R114's column User). -/
def crUser (n : Nat) : Bool :=
  n == 0 || (decide (0x10 ≤ n) && decide (n ≤ 0x18)) || n == 0x20 || (decide (0x22 ≤ n) && decide (n ≤ 0x24)) ||
  n == 0x28 || n == 0x29

/-- CR_IPEND: INBOX is 1 while IPROD ≠ ICONS (R201). The spec names no event at which the management firmware sets MGMT: no command
sets it (DESIGN CHOICE, log entry 88). -/
def ipendOf (x : Cell) : BitVec 4 := x.k.ipend ||| (if x.sl.iprod = x.sl.icons then 0 else 1)

/-- The live cycle count of a cell (CR_CYCLE): stopped while it is parked (R213). -/
def cycleOf (s : State) (c : Nat) : DWord :=
  let k := (cellOf s c).k
  match k.cycHeld with
  | some v => v
  | none => regionCycles s (regionOf c) - k.cycBase

/-- MFC: the value and the core after it (R115). -/
def crRead (s : State) (c : Nat) (n : Nat) : Word × KCore :=
  let x := cellOf s c
  let k := x.k
  match n with
  | 0x00 => (k.flags.zeroExtend 32, k)
  | 0x01 => (k.status.zeroExtend 32, k)
  | 0x02 => (k.epc, k)
  | 0x03 => (k.cause, k)
  | 0x04 => (k.tval, k)
  | 0x05 => (k.tvec, k)
  | 0x06 => (k.sscratch, k)
  | 0x07 => (k.ien.zeroExtend 32, k)
  | 0x08 => ((ipendOf x).zeroExtend 32, k)
  | 0x20 => (BitVec.ofNat 32 c, k)
  | 0x21 => (x.turnout.zeroExtend 32, k)
  | 0x22 => (s.tb.ns.truncate 32,
      { k with captured := sput 0 (sput 0 k.captured 0 (s.tb.ns.extractLsb' 32 32)) 1 s.tb.frac })
  | 0x23 => (sget 0 k.captured 0, k)
  | 0x24 => (sget 0 k.captured 1, k)
  | 0x26 => (k.timecmp.truncate 32, k)
  | 0x27 => (k.timecmp.extractLsb' 32 32, k)
  | 0x28 => ((cycleOf s c).truncate 32, { k with captured := sput 0 k.captured 2 ((cycleOf s c).extractLsb' 32 32) })
  | 0x29 => (sget 0 k.captured 2, k)
  | 0x30 => (k.imemBack.truncate 32, k)
  | 0x31 => (k.imemBack.extractLsb' 32 32, k)
  | n =>
    if 0x10 ≤ n ∧ n ≤ 0x18 then (sget 0 k.loops ((n - 0x10) / 3 + 4 * ((n - 0x10) % 3)), k)
    else if 0x40 ≤ n ∧ n ≤ 0x4F then (sget 0 k.mpu (n - 0x40), k)
    else (0, k)

/-- TIMER follows the armed compare (R116). -/
def setTimerBit (k : KCore) (on : Bool) : KCore :=
  { k with ipend := BitVec.ofNat 4 (setBits k.ipend.toNat 1 1 (b2n on)) }

/-- MTC of a value (R114, R116): none for LOOP_FAULT (R111). Writes to read-only registers are ignored. -/
def crWrite (s : State) (k : KCore) (n : Nat) (v : Word) : Option KCore :=
  match n with
  | 0x00 => some { k with flags := v.truncate 4 }
  | 0x01 => some { k with status := v.truncate 5 }
  | 0x02 => some { k with epc := v &&& 0xFFFFFFFC#32 }
  | 0x05 => some { k with tvec := v &&& 0xFFFFFFFC#32 }
  | 0x06 => some { k with sscratch := v }
  | 0x07 => some { k with ien := v.truncate 4 }
  | 0x08 => some { k with ipend := k.ipend &&& ~~~(v.truncate 4 &&& 0b1100#4) }
  | 0x26 => some (setTimerBit { k with timecmp := k.timecmp.extractLsb' 32 32 ++ v, tcArmed := false } false)
  | 0x27 =>
    let t : DWord := v ++ k.timecmp.extractLsb' 0 32
    some (setTimerBit { k with timecmp := t, tcArmed := true } (decide (t.toNat ≤ now s)))
  | 0x30 => some { k with imemBack := k.imemBack.extractLsb' 32 32 ++ v }
  | 0x31 => some { k with imemBack := v ++ k.imemBack.extractLsb' 0 32 }
  | n =>
    if 0x10 ≤ n ∧ n ≤ 0x18 then
      let i := (n - 0x10) / 3
      match (n - 0x10) % 3 with
      | 0 => some { k with loops := sput 0 k.loops i (v &&& 0xFFFFFFFC#32) }
      | 1 => some { k with loops := sput 0 k.loops (4 + i) (v &&& 0xFFFFFFFC#32) }
      | _ =>
        if v = 0 then some (endLoops k i)
        else if 0 < i ∧ loopC k (i - 1) = 0 then none
        else some (setLC k i v)
    else if 0x40 ≤ n ∧ n ≤ 0x47 then some { k with mpu := sput 0 k.mpu (n - 0x40) (v &&& 0xFFFFFF0F#32) }
    else if 0x48 ≤ n ∧ n ≤ 0x4F then some { k with mpu := sput 0 k.mpu (n - 0x40) (v &&& 0xFFFFFF00#32) }
    else some k

end Sys2Proof.Machine
end

