-- ==== Sys2Proof/Machine/KCoreOps.lean ====
section
/-! DEFINITION. Machine/KCoreOps.lean: taking a trap or an interrupt, ERET, issuing an instruction and completing it (R109,
R110, R117, R120–R125, R435).
Choices beyond the words of the spec: log entries DESIGN CHOICE 11, 65; DEDUCED 10, 13, 21, 27, 66. -/

namespace Sys2Proof.Machine

/-- How an instruction ends. -/
inductive KOut
  /-- Sequential completion: pc follows R109. -/
  | seq (x : Cell)
  /-- Taken branch or jump; `ends`: levels whose body the target leaves end (R110). -/
  | jump (x : Cell) (target : Word) (ends : Bool)
  /-- Trap with code, subcode and CR_TVAL; the instruction has no effect (R120). -/
  | trap (code sub : Nat) (tval : Word)
  /-- The core stalls or blocks: pc stays at the instruction. -/
  | hold (x : Cell)
deriving DecidableEq, Repr

/-- Codes whose condition records an event 06h of its own (R122). -/
def ownEvent (code : Nat) : Bool := code == 0x0A || code == 0x0B || code == 0x0D || code == 0x0E

/-- The core after a trap entry (R121): saved pc, cause, value; supervisor with EXL; pc at CR_TVEC. -/
def trapRegs (k : KCore) (epc cause tval : Word) : KCore :=
  { k with epc := epc, cause := cause, tval := tval, status := statusTrap k.status, pc := k.tvec, run := .running }

/-- An instruction boundary (R435): a single step, or a HALT that waits, halts the core. -/
def boundary (x : Cell) : Cell :=
  if x.dbg.stepping then
    { x with k := { x.k with run := .debug }, dbg := { x.dbg with stepping := false, reason := 4, skip := false, resumeRun := .running } }
  else if x.dbg.haltReq then
    { x with k := { x.k with run := .debug }, dbg := { x.dbg with haltReq := false, reason := 1, skip := false, resumeRun := .running } }
  else { x with dbg := { x.dbg with skip := false } }

/-- Ends an entry in flight with a status and a result word. -/
def endRun (s : State) (r : RunRec) (st res : Nat) : State :=
  { s with
    infl := s.infl.map (fun e => if e.f == r.f && e.i == r.i && decide (e.ph = .running) then { e with ph := .ended st res } else e)
    mim := { s.mim with runs := s.mim.runs.filter (fun q => !(q.f == r.f && q.i == r.i)) } }

/-- What a trap taken in user mode does to the RUN that the cell executes (R187): SYSCALL 000h is the cell's exit, any other
trap ends the call with ABORTED. Once TLIMIT has expired the call ends with TIMEOUT; an exit in that instant still counts (R12). -/
def runTrap (s : State) (c code : Nat) (tval : Word) (user : Bool) : State :=
  match s.mim.runs.find? (fun r => r.holds c) with
  | none => s
  | some r =>
    if !user then s
    else if r.due ≠ 0 ∧ overdue s (r.due - 1) = true then endRun s r 0x10 noResult
    else if code = 0x10 ∧ tval = 0 then
      let r' := { r with done := nadd r.done c, acc := r.acc ||| (sget 0 (cellOf s c).k.g 4).toNat }
      if r.cells.all (nin r'.done) && r.lost.isEmpty then endRun s r 0x00 r'.acc
      else { s with mim := { s.mim with runs := s.mim.runs.map (fun q => if q.f == r.f && q.i == r.i then r' else q) } }
    else endRun s r 0x05 (c * 256 + code)

/-- A trap of the cell `x` (R121), or a stop on a double trap (R125). `epc` is the address to save. -/
def trapAt (s : State) (c : Nat) (x : Cell) (code sub : Nat) (tval epc : Word) : State :=
  if cellInReset s c then s
  else if exl x.k then
    event (setCell s c { x with k := { x.k with run := .stopped } }) c 1 0x04 code
  else
    runTrap (setCell s c (boundary { x with k := trapRegs x.k epc (BitVec.ofNat 32 (sub * 256 + code)) tval })) c code tval
      (userMode x.k)

/-- Takes a trap; a condition with an event of its own records it first (R122, R125). Where the reaction to that event resets the
cell, the double trap of a core with EXL = 1 is still an event of its own, counted and reacted to (R125, R424; DEDUCED, log entry 21). -/
def takeTrap (s : State) (c code sub : Nat) (tval epc : Word) : State :=
  if ownEvent code then
    let t := event s c 1 0x06 code
    if cellInReset t c ∧ exl (cellOf s c).k = true then uncorr t c 0x04 code 0 false else trapAt t c (cellOf t c) code sub tval epc
  else trapAt s c (cellOf s c) code sub tval epc

/-- The interrupt that would be taken, in the order COPROC, MGMT, TIMER, INBOX (R124). -/
def pendingInt (x : Cell) : Option Nat :=
  if !ie x.k || exl x.k || x.dbg.stepping then none
  else [2, 3, 1, 0].find? (fun i => (ipendOf x &&& x.k.ien).getLsbD i)

/-- Takes an interrupt (R121, R124): CR_EPC receives the next instruction to run, which is pc. -/
def takeInt (s : State) (c i : Nat) : State :=
  let x := cellOf s c
  setCell s c { x with k := trapRegs x.k x.k.pc (BitVec.ofNat 32 (2 ^ 31 + i)) 0 }

/-- The core after ERET (R117). -/
def eretRegs (k : KCore) : KCore := { k with status := statusEret k.status, pc := k.epc }

/-- Completes an instruction. -/
def finish (s : State) (c : Nat) : KOut → State
  | .seq x => setCell s c (boundary { x with k := { nextPc x.k with run := .running } })
  | .jump x t ends =>
    let k := if ends then leaveLoops x.k t else x.k
    setCell s c (boundary { x with k := { k with pc := t, run := .running } })
  | .trap code sub tval => takeTrap s c code sub tval (cellOf s c).k.pc
  | .hold x => setCell s c x

/-- Index of an enabled breakpoint that matches an address (R435). -/
def bpHit (x : Cell) (a : Word) : Option Nat :=
  if !x.dbg.claimed || x.dbg.skip then none
  else (List.range 4).find? (fun i => let b := sget 0 x.dbg.bp i; b.getLsbD 0 && (b &&& 0xFFFFFFFC#32) == a)

/-- Halts a core on a breakpoint (2) or a watchpoint (3), before the instruction (R435). -/
def dbgHalt (s : State) (c reason index : Nat) : State :=
  let x := cellOf s c
  setCell s c { x with
    k := { x.k with run := .debug }
    dbg := { x.dbg with reason := reason, index := index, stepping := false, haltReq := false, resumeRun := .running } }

/-- Index of a watchpoint that an access touches (R435). -/
def wpHit (x : Cell) (a n : Nat) (store : Bool) : Option Nat :=
  if !x.dbg.claimed || x.dbg.skip then none
  else (List.range 2).find? (fun i =>
    let ad := (sget 0 x.dbg.wp (2 * i)).toNat
    let ct := (sget 0 x.dbg.wp (2 * i + 1)).toNat
    let sz := 2 ^ min 20 (max 2 (bits ct 12 8))
    let lo := ad / sz * sz
    ct.testBit 31 && (if store then ct.testBit 1 else ct.testBit 0) && decide (a < lo + sz) && decide (lo < a + n))

/-- What a fetch at pc meets before its instruction issues (R94, R118, R61, R123). -/
inductive Fetch
  | ok
  | bp (i : Nat)
  | trap (code : Nat)
  | parity
deriving DecidableEq, Repr

/-- The checks of a fetch, in order: breakpoint, map, MPU, parity. -/
def fetchCheck (s : State) (c : Nat) : Fetch :=
  let x := cellOf s c
  match bpHit x x.k.pc with
  | some i => .bp i
  | none =>
    if x.k.pc.toNat ≥ 0x8000 then .trap 0x03
    else if userMode x.k && !mpuOk x.k x.k.pc .fetch then .trap 0x03
    else if nin s.m.par ((imemPA c + x.k.pc.toNat) / 4) then .parity
    else .ok

/-- A parity error at instruction memory offset `off`, met by a fetch or by a load of `addr` (R61): the reload starts, or
the trap is taken at once when no backing image is set. -/
def startReload (s : State) (c off : Nat) (load : Option Word) : State :=
  let x := cellOf s c
  if x.k.imemBack = 0 then
    match load with
    | none => takeTrap s c 0x05 0 x.k.pc x.k.pc
    | some a => takeTrap s c 0x0A 0 a x.k.pc
  else setCell s c { x with k := { x.k with run := .reload off load } }

/-- May the core issue an instruction: running, and not in reset. -/
def canIssue (s : State) (c : Nat) : Bool := (cellOf s c).k.run == .running && !cellInReset s c

/-- Does the instruction at pc issue: the core runs, no eligible interrupt comes before it (R124), and its fetch meets nothing. -/
def issues (s : State) (c : Nat) : Bool :=
  canIssue s c && (pendingInt (cellOf s c)).isNone && fetchCheck s c == .ok

/-- Issues one instruction: `body` answers its outcome from the state and the cell. A core that is not running issues
nothing (DEDUCED, log entry 10); a breakpoint halts it first (R435), and an eligible interrupt is taken before the instruction (R124). -/
def issue (s : State) (c : Nat) (body : State → Cell → State × KOut) : State :=
  if !canIssue s c then s
  else match fetchCheck s c, pendingInt (cellOf s c) with
    | .bp i, _ => dbgHalt s c 2 i
    | _, some i => takeInt s c i
    | .trap code, none => takeTrap s c code 0 (cellOf s c).k.pc (cellOf s c).k.pc
    | .parity, none => startReload s c (cellOf s c).k.pc.toNat none
    | .ok, none =>
      let (s', o) := body s (cellOf s c)
      -- an event inside the instruction may have reset the cell
      if cellInReset s' c then s' else finish s' c o

/-- An instruction that touches its cell alone. -/
def issueK (s : State) (c : Nat) (body : Cell → KOut) : State := issue s c (fun s x => (s, body x))

/-- An instruction that only writes general registers and flags. -/
def issueR (s : State) (c : Nat) (f : KCore → KCore) : State := issueK s c (fun x => .seq { x with k := f x.k })

/-- Are the queues of the coprocessors and of the DMA empty (R213). -/
def quiet (x : Cell) : Bool := x.t.q == [] && x.v.q == [] && x.dma.q == []

/-- Is a cell parked: its clocks are stopped, also while the debug port or a save holds it (R213). -/
def parked (x : Cell) : Bool := x.k.cycHeld.isSome

/-- The cell once PARK has stopped its clocks (R213). -/
def parkedCell (s : State) (c : Nat) (x : Cell) : Cell :=
  { x with k := { nextPc x.k with run := .parked, cycHeld := some (cycleOf s c) } }

/-- PARK's wait ends once the queues and the DMA are empty (R213). -/
def parkCheck (s : State) (c : Nat) : State :=
  let x := cellOf s c
  if x.k.run = .parking ∧ quiet x = true then setCell s c (parkedCell s c x) else s

end Sys2Proof.Machine
end

