-- ==== Sys2Proof/Machine/Kiben.lean ====
section
/-! DEFINITION. Machine/Kiben.lean: the Kiben instructions that do not access memory, the system instructions, interrupts and
the start of a cell (R99–R128, R213). Each row's command names the cell that runs the instruction.
Choices beyond the words of the spec: log entries DESIGN CHOICE 9, 11, 65, 68, 86; DEDUCED 13, 66. -/

namespace Sys2Proof.Machine

/-- An ALU instruction of two registers (R100): rd, FLAGS and the next pc; a division blocks the core instead. -/
def aluOp (s : State) (c : Nat) (op : AluOp) (d a b : BitVec 5) : State :=
  issueK s c (fun x =>
    let (v, f) := aluResult op (gReg x.k a) (gReg x.k b) x.k.flags
    if isDiv op then .hold { x with k := { x.k with run := .dividing d v } }
    else .seq { x with k := { setG x.k d v with flags := f } })

/-- An ALU instruction with an immediate second operand; `wf` says whether it writes FLAGS. -/
def immOp (s : State) (c : Nat) (op : AluOp) (d a : BitVec 5) (i : Word) : State :=
  issueR s c (fun k =>
    let (v, f) := aluResult op (gReg k a) i k.flags
    { setG k d v with flags := f })

abbrev Ans := Host.Outcome State Fault Refusal

/-- A meaning has its effect on everything but the queue: what it answers holds the queue that it was given. -/
def keepQueue (s : State) (a : Ans) : Ans :=
  match a with
  | .next t => .next { t with pending := s.pending }
  | .fault f => .fault f
  | .refused r => .refused r

/-- ADD (R100, R103). -/
def execAdd (c : Fin 256) (d a b : BitVec 5) (s : State) : Ans := keepQueue s <| .next (aluOp s c .add d a b)
/-- SUB (R100, R103). -/
def execSub (c : Fin 256) (d a b : BitVec 5) (s : State) : Ans := keepQueue s <| .next (aluOp s c .sub d a b)
/-- ADC (R100, R103). -/
def execAdc (c : Fin 256) (d a b : BitVec 5) (s : State) : Ans := keepQueue s <| .next (aluOp s c .adc d a b)
/-- SBC (R100, R103). -/
def execSbc (c : Fin 256) (d a b : BitVec 5) (s : State) : Ans := keepQueue s <| .next (aluOp s c .sbc d a b)
/-- CMP (R100, R103): FLAGS of rs1 − rs2. -/
def execCmp (c : Fin 256) (a b : BitVec 5) (s : State) : Ans := keepQueue s <| .next (aluOp s c .sub 0 a b)
/-- AND (R100). -/
def execAnd (c : Fin 256) (d a b : BitVec 5) (s : State) : Ans := keepQueue s <| .next (aluOp s c .and d a b)
/-- OR (R100). -/
def execOr (c : Fin 256) (d a b : BitVec 5) (s : State) : Ans := keepQueue s <| .next (aluOp s c .or d a b)
/-- XOR (R100). -/
def execXor (c : Fin 256) (d a b : BitVec 5) (s : State) : Ans := keepQueue s <| .next (aluOp s c .xor d a b)
/-- ANDN (R100). -/
def execAndn (c : Fin 256) (d a b : BitVec 5) (s : State) : Ans := keepQueue s <| .next (aluOp s c .andn d a b)
/-- SLL (R105). -/
def execSll (c : Fin 256) (d a b : BitVec 5) (s : State) : Ans := keepQueue s <| .next (aluOp s c .sll d a b)
/-- SRL (R105). -/
def execSrl (c : Fin 256) (d a b : BitVec 5) (s : State) : Ans := keepQueue s <| .next (aluOp s c .srl d a b)
/-- SRA (R105). -/
def execSra (c : Fin 256) (d a b : BitVec 5) (s : State) : Ans := keepQueue s <| .next (aluOp s c .sra d a b)
/-- ROR (R105). -/
def execRor (c : Fin 256) (d a b : BitVec 5) (s : State) : Ans := keepQueue s <| .next (aluOp s c .ror d a b)
/-- MUL (R100, R103). -/
def execMul (c : Fin 256) (d a b : BitVec 5) (s : State) : Ans := keepQueue s <| .next (aluOp s c .mul d a b)
/-- MULH (R100, R103). -/
def execMulh (c : Fin 256) (d a b : BitVec 5) (s : State) : Ans := keepQueue s <| .next (aluOp s c .mulh d a b)
/-- MULHU (R100, R103). -/
def execMulhu (c : Fin 256) (d a b : BitVec 5) (s : State) : Ans := keepQueue s <| .next (aluOp s c .mulhu d a b)
/-- DIV starts (R105, R128). -/
def execDiv (c : Fin 256) (d a b : BitVec 5) (s : State) : Ans := keepQueue s <| .next (aluOp s c .div d a b)
/-- DIVU starts (R105, R128). -/
def execDivu (c : Fin 256) (d a b : BitVec 5) (s : State) : Ans := keepQueue s <| .next (aluOp s c .divu d a b)
/-- REM starts (R105, R128). -/
def execRem (c : Fin 256) (d a b : BitVec 5) (s : State) : Ans := keepQueue s <| .next (aluOp s c .rem d a b)
/-- REMU starts (R105, R128). -/
def execRemu (c : Fin 256) (d a b : BitVec 5) (s : State) : Ans := keepQueue s <| .next (aluOp s c .remu d a b)

/-- A division in progress ends and writes its result (R105, R128); FLAGS stay (R103). -/
def execDivideComplete (c : Fin 256) (s : State) : Ans := keepQueue s <|
  let x := cellOf s c
  match x.k.run with
  | .dividing d v => .next (if cellInReset s c then s else finish s c (.seq { x with k := setG x.k d v }))
  | _ => .next s

/-- An instruction with a reserved value in a field is illegal with subcode 3, before any other check of its own (R123, R126). -/
def legal (i : KInstr) (o : KOut) : KOut := if kOk i then o else .trap 0x01 3 (kEncode i)

/-- CSEL (R100, R104); the conditions Eh and Fh are illegal (R126). -/
def execCsel (c : Fin 256) (cond : BitVec 4) (d a b : BitVec 5) (s : State) : Ans := keepQueue s <|
  .next (issueK s c (fun x => legal (.csel cond d a b)
    (.seq { x with k := setG x.k d (if condHolds cond x.k.flags then gReg x.k a else gReg x.k b) })))

/-- ADDI (R99, R103). -/
def execAddi (c : Fin 256) (d a : BitVec 5) (i : BitVec 16) (s : State) : Ans := keepQueue s <| .next (immOp s c .add d a (sx16 i))
/-- CMPI (R99, R103). -/
def execCmpi (c : Fin 256) (a : BitVec 5) (i : BitVec 16) (s : State) : Ans := keepQueue s <| .next (immOp s c .sub 0 a (sx16 i))
/-- ANDI (R99). -/
def execAndi (c : Fin 256) (d a : BitVec 5) (i : BitVec 16) (s : State) : Ans := keepQueue s <| .next (immOp s c .and d a (zx16 i))
/-- ORI (R99). -/
def execOri (c : Fin 256) (d a : BitVec 5) (i : BitVec 16) (s : State) : Ans := keepQueue s <| .next (immOp s c .or d a (zx16 i))
/-- XORI (R99). -/
def execXori (c : Fin 256) (d a : BitVec 5) (i : BitVec 16) (s : State) : Ans := keepQueue s <| .next (immOp s c .xor d a (zx16 i))
/-- SHI type 0 (R99). -/
def execShiSll (c : Fin 256) (d a n : BitVec 5) (s : State) : Ans := keepQueue s <| .next (immOp s c .sll d a (n.zeroExtend 32))
/-- SHI type 1 (R99). -/
def execShiSrl (c : Fin 256) (d a n : BitVec 5) (s : State) : Ans := keepQueue s <| .next (immOp s c .srl d a (n.zeroExtend 32))
/-- SHI type 2 (R99). -/
def execShiSra (c : Fin 256) (d a n : BitVec 5) (s : State) : Ans := keepQueue s <| .next (immOp s c .sra d a (n.zeroExtend 32))
/-- SHI type 3 (R99). -/
def execShiRor (c : Fin 256) (d a n : BitVec 5) (s : State) : Ans := keepQueue s <| .next (immOp s c .ror d a (n.zeroExtend 32))
/-- LUI (R99). -/
def execLui (c : Fin 256) (d : BitVec 5) (i : BitVec 16) (s : State) : Ans := keepQueue s <|
  .next (issueR s c (fun k => setG k d (i ++ 0#16)))

/-! ### Control flow (R106–R110) -/

/-- A word offset from the instruction's own address (R106). -/
def target (pc off : Word) : Word := pc + 4 * off

/-- BC (R99, R110); the conditions Eh and Fh are illegal (R104, R126). -/
def execBc (c : Fin 256) (cond : BitVec 4) (off : BitVec 22) (s : State) : Ans := keepQueue s <|
  .next (issueK s c (fun x => legal (.bc cond off)
    (if condHolds cond x.k.flags then .jump x (target x.k.pc (off.signExtend 32)) true else .seq x)))

/-- J (R99, R110). -/
def execJ (c : Fin 256) (off : BitVec 26) (s : State) : Ans := keepQueue s <|
  .next (issueK s c (fun x => .jump x (target x.k.pc (off.signExtend 32)) true))

/-- JAL (R99, R110): g31 := pc + 4; no level ends. -/
def execJal (c : Fin 256) (off : BitVec 26) (s : State) : Ans := keepQueue s <|
  .next (issueK s c (fun x =>
    .jump { x with k := setG x.k 31 (x.k.pc + 4) } (target x.k.pc (off.signExtend 32)) false))

/-- JALR (R99, R106, R110): the target is checked before rd is written. -/
def execJalr (c : Fin 256) (d a : BitVec 5) (i : BitVec 16) (s : State) : Ans := keepQueue s <|
  .next (issueK s c (fun x =>
    let t := gReg x.k a + sx16 i
    if t.toNat % 4 ≠ 0 then .trap 0x04 0 t
    else .jump { x with k := setG x.k d (x.k.pc + 4) } t (d == 0)))

/-- LOOP and LOOPI with count `n` (R107, R108); `w` is the word, for CR_TVAL. -/
def loopOp (x : Cell) (w : Word) (lvl : Nat) (n : Word) (len : Nat) : KOut :=
  let k := x.k
  let a := k.pc
  let le' := a + BitVec.ofNat 32 (4 * len)
  if exl k then .trap 0x01 3 w
  else if lvl ≠ loopDepth k || decide (a.toNat + 4 * len > 0x7FFC) ||
      (decide (0 < lvl) && (decide (a.toNat < (loopS k (lvl - 1)).toNat) || decide ((loopE k (lvl - 1)).toNat < a.toNat) ||
        decide (a.toNat + 4 * len > (loopE k (lvl - 1)).toNat))) then .trap 0x0F 0 w
  else
    let k := { k with loops := sput 0 (sput 0 k.loops lvl (a + 4)) (4 + lvl) le' }
    if n = 0 then .jump { x with k := k } (le' + 4) false
    else .jump { x with k := setLC k lvl n } (a + 4) false

/-- LOOP (R107, R108); level 3 and a length of 0 are illegal (R126). -/
def execLoop (c : Fin 256) (lvl : BitVec 2) (r : BitVec 5) (len : BitVec 12) (s : State) : Ans := keepQueue s <|
  .next (issueK s c (fun x => legal (.loop lvl r len)
    (loopOp x (kEncode (.loop lvl r len)) lvl.toNat (gReg x.k r) len.toNat)))

/-- LOOPI (R107, R108); level 3 and a length of 0 are illegal (R126). -/
def execLoopi (c : Fin 256) (lvl : BitVec 2) (n len : BitVec 12) (s : State) : Ans := keepQueue s <|
  .next (issueK s c (fun x => legal (.loopi lvl n len)
    (loopOp x (kEncode (.loopi lvl n len)) lvl.toNat (n.zeroExtend 32) len.toNat)))

/-! ### System instructions (R101, R114–R117, R213) -/

/-- MFC (R114, R115): a number that is not listed is illegal before it is privileged (R123, R126). -/
def execMfc (c : Fin 256) (d : BitVec 5) (n : BitVec 12) (s : State) : Ans := keepQueue s <|
  .next (issue s c (fun s x =>
    if !crListed n then (s, .trap 0x01 3 (kEncode (.mfc d n)))
    else if userMode x.k && !crUser n.toNat then (s, .trap 0x02 0 (kEncode (.mfc d n)))
    else
      let (v, k) := crRead s c n.toNat
      (s, .seq { x with k := setG k d v })))

/-- MTC (R114, R116): a number that is not listed is illegal before it is privileged (R123, R126). The completion of the MTC itself
already checks the loop registers it has written (R109, R111; DESIGN CHOICE, log entry 86). -/
def execMtc (c : Fin 256) (r : BitVec 5) (n : BitVec 12) (s : State) : Ans := keepQueue s <|
  .next (issue s c (fun s x =>
    if !crListed n then (s, .trap 0x01 3 (kEncode (.mtc r n)))
    else if userMode x.k && !crUser n.toNat then (s, .trap 0x02 0 (kEncode (.mtc r n)))
    else match crWrite s x.k n.toNat (gReg x.k r) with
      | some k => (s, .seq { x with k := k })
      | none => (s, .trap 0x0F 0 (kEncode (.mtc r n)))))

/-- SYSCALL and BREAK complete first and trap with the address that follows by R109 (R121). -/
def softTrap (s : State) (c code : Nat) (arg : Word) : State :=
  let x := cellOf s c
  if exl x.k then takeTrap s c code 0 arg x.k.pc
  else
    let k := nextPc x.k
    trapAt s c { x with k := k } code 0 arg k.pc

/-- SYSCALL (R121). -/
def execSyscall (c : Fin 256) (code : BitVec 12) (s : State) : Ans := keepQueue s <|
  .next (if issues s c then softTrap s c 0x10 (code.zeroExtend 32)
    else issueK s c (fun x => .hold x))

/-- ERET (R117). -/
def execEret (c : Fin 256) (s : State) : Ans := keepQueue s <|
  .next (issueK s c (fun x =>
    if userMode x.k then .trap 0x02 0 (kEncode .eret)
    else .jump { x with k := eretRegs x.k } x.k.epc false))

/-- BREAK (R121), or a halt of a claimed cell (R125, R435). -/
def execBreak (c : Fin 256) (code : BitVec 12) (s : State) : Ans := keepQueue s <|
  .next (if issues s c then
      (if (cellOf s c).dbg.claimed then dbgHalt s c 5 0 else softTrap s c 0x11 (code.zeroExtend 32))
    else issueK s c (fun x => .hold x))

/-- FENCE (R102): with CP = 1 it stalls while an instruction issued to CP0, CP1 or CP3 has not completed. With I = 1 it
orders fetches, which this model's fetches need not. -/
def execFence (c : Fin 256) (cp _i : BitVec 1) (s : State) : Ans := keepQueue s <|
  .next (issueK s c (fun x =>
    if cp = 1 ∧ (x.t.q ≠ [] ∨ x.v.q ≠ [] ∨ x.dma.q ≠ []) then .hold x else .seq x))

/-- PARK (R213): waits for the queues and the DMA, then stops the clocks. -/
def execPark (c : Fin 256) (s : State) : Ans := keepQueue s <|
  .next (issueK s c (fun x =>
    if userMode x.k then .trap 0x02 0 (kEncode .park)
    else .hold (if quiet x then parkedCell s c x else { x with k := { x.k with run := .parking } })))

/-! ### Interrupts, the timer, the start of a cell -/

/-- Does the core let an interrupt in: running, in SWAIT's stall, or dividing (R113, R120, R124). -/
def intPoint (x : Cell) : Bool :=
  match x.k.run with
  | .running | .swait _ | .dividing _ _ => true
  | _ => false

/-- An eligible pending interrupt is taken at an instruction boundary (R124): here during a stall, a division or between
instructions; an instruction that would issue takes it too (`issue`). -/
def execInterruptEntry (c : Fin 256) (s : State) : Ans := keepQueue s <|
  let x := cellOf s c
  if cellInReset s c || !intPoint x then .next s
  else match pendingInt x with
    | some i => .next (takeInt s c i)
    | none => .next s

/-- The time base reaches the armed CR_TIMECMP (R116). -/
def execTimerCompareMatch (c : Fin 256) (s : State) : Ans := keepQueue s <|
  let x := cellOf s c
  if x.k.tcArmed && decide (x.k.timecmp.toNat ≤ now s) then .next (setCell s c { x with k := setTimerBit x.k true })
  else .next s

/-- The reload of a parity-failed line completes (R61): the line is read for the cell's owner and written with good
parity, and the fetch or load is repeated; or the trap of R122 is taken. -/
def execImemParityReload (c : Fin 256) (s : State) : Ans := keepQueue s <|
  let x := cellOf s c
  match x.k.run with
  | .reload off load =>
    if cellInReset s c then .next s
    else
      let line := off / 64 * 64
      match runMM s (physRead (cellVia c) x.turnout.toNat (x.k.imemBack.toNat + line) 64) with
      | (.error (.wait q), _) => .next (askPort s q)
      | (.ok l, s) =>
        let s := dropAsks s (fun w => decide (w = .core c.val))
        let s := storeBytes s (imemPA c + line) l false
        let s := event s c 0 0x03 (off / 4)
        .next (modCell s c (fun x => { x with k := { x.k with run := .running } }))
      | (.error _, s) =>
        let s := dropAsks s (fun w => decide (w = .core c.val))
        let s := modCell s c (fun x => { x with k := { x.k with run := .running } })
        match load with
        | none => .next (takeTrap s c 0x05 0 x.k.pc x.k.pc)
        | some a => .next (takeTrap s c 0x0A 0 a x.k.pc)
  | _ => .next s

/-- The management firmware loads the cell runtime (a list of bytes at instruction memory offset 0) and starts the cell at
pc 0 (R127, R387). A cell of no turnout is not started (R239). -/
def execCellStart (c : Fin 256) (image : List Byte) (s : State) : Ans := keepQueue s <|
  let x := cellOf s c
  if cellInReset s c || x.k.run != .halted || x.turnout == 0x200#10 then .next s
  else
    let s := storeBytes s (imemPA c) (image.take 0x8000) false
    .next (modCell s c (fun x => { x with k := { x.k with pc := 0, run := .running } }))

end Sys2Proof.Machine
end

