-- ==== Sys2Proof/Machine/Frames.lean ====
section
/-! DEFINITION. Machine/Frames.lean: the states of the optical links, and how a native frame leaves (R280, R283, R284).
Choices beyond the words of the spec: log entries DESIGN CHOICE 98. -/

namespace Sys2Proof.Machine

/-! ### Link states and ports (R280, R289, R295) -/

/-- LNK_STATn.STATE. -/
def lnkState (s : State) (n : Nat) : Nat := rd s (f_LNK_STAT_STATE n)
/-- DOWN. -/
def lsDown : Nat := 0
/-- TRAINING. -/
def lsTraining : Nat := 1
/-- ACTIVE. -/
def lsActive : Nat := 2
/-- SLEEP. -/
def lsSleep : Nat := 3
/-- DARK. -/
def lsDark : Nat := 4
/-- ELS_FAULT. -/
def lsEls : Nat := 5
/-- DISABLED. -/
def lsDisabled : Nat := 6

/-- The mode in effect; before the first training, the one that the register holds. -/
def lnkMode (s : State) (n : Nat) : Nat :=
  let m := (lnkOf s n).mode
  if m = 0 then rd s (f_LNK_CTL_MODE n) else m

/-- Does a link run as a native link. -/
def lnkNative (s : State) (n : Nat) : Bool := lnkMode s n == 1

/-- Members of a mode (R295). -/
def members (mode : Nat) : Nat :=
  match mode with
  | 1 => 1 | 2 => 1 | 3 => 2 | 4 => 4 | 5 => 8 | _ => 0

/-- Ports of a link. -/
def portsOf (s : State) (n : Nat) : List Nat := (List.range (members (lnkMode s n))).map (fun k => 8 * n + k)

/-! ### Native frames (R283) -/

/-- Slots of a frame of `n` payload bytes. -/
def slotsFor (n : Nat) : Nat := (20 + n + 63) / 64

/-- The bytes of a frame (R283). -/
def frameBytes (ty vc seq : Nat) (nak : Bool) (ack : Nat) (credit : List Nat) (data : List Byte) : List Byte :=
  let h := natLE 1 (ty * 16 + vc) ++ natLE 2 seq ++ natLE 2 (ack + 4096 * b2n nak) ++ natLE 2 data.length ++ [0] ++
    credit.flatMap (natLE 1) ++ data
  padTo (64 * slotsFor data.length) (h ++ natLE 4 (crc32c h))

/-- A frame leaves with ACK, NAK and the credits due. -/
def sendFrame (s : State) (n ty vc seq : Nat) (data : List Byte) : State :=
  let l := lnkOf s n
  let cr := (List.range 8).map (fun v => min 255 (sget 0 l.back v))
  let s := emit s (.link n ty (frameBytes ty vc seq l.nakDue ((l.exp + 4095) % 4096) cr data))
  modLnk s n (fun l => { l with
    nakDue := false
    ackDue := false
    txAt := s.clk
    dataAt := if ty = 1 then s.clk else l.dataAt
    back := cr.zipIdx.foldl (fun m p => sput 0 m p.2 (sget 0 m p.2 - p.1)) l.back })

/-- A BARRIER frame leaves on a link (R211, R283): an ACTIVE native link sends it, one in SLEEP when it wakes, since it sends nothing but
markers and CTRL frames before (R288); from any other it is lost (DESIGN CHOICE, log entry 98). -/
def sendBarrier (s : State) (n : Nat) (data : List Byte) : State :=
  if !lnkNative s n then s
  else if lnkState s n = lsActive then sendFrame s n 4 0 0 data
  else if lnkState s n = lsSleep then modLnk s n (fun l => { l with held := l.held ++ [data] })
  else s

end Sys2Proof.Machine
end

