-- ==== Sys2Proof/Machine/Sluice.lean ====
section
/-! DEFINITION. Machine/Sluice.lean: sluices, CP2, the inbox, parking, the inter-chip barrier and the synchronisation dump
(R195–R216).
Choices beyond the words of the spec: log entries DESIGN CHOICE 19; DEDUCED 18. -/

namespace Sys2Proof.Machine

/-! ### Sluices (R195–R197) -/

/-- A sluice's value. -/
def sluice (x : Cell) (n : Nat) : Word := sget 0 x.sl.s n

/-- Adds to a sluice modulo 2^32 (R196). -/
def incSluice (x : Cell) (n : Nat) (v : Word) : Cell :=
  { x with sl := { x.sl with s := sput 0 x.sl.s n (sluice x n + v) } }

/-- Does value `v` satisfy threshold `t` (R197). -/
def satisfies (v t : Word) : Bool := !(v - t).msb

/-- A wait that begins now (R214). -/
def newWait (s : State) (x : Cell) (n : BitVec 5) (t : Word) : Waiter := ⟨n, t, now s, x.sl.swdog, false, s.clk⟩

/-- Is a wait satisfied. -/
def waitDone (x : Cell) (w : Waiter) : Bool := satisfies (sluice x w.sl.toNat) w.thr

/-- The wait of an engine: 0 core, 1 CP0, 2 CP1, 3 CP3 (R214). -/
def waitOf (x : Cell) (e : Nat) : Option Waiter :=
  match e with
  | 0 => match x.k.run with
    | .swait w => some w
    | _ => none
  | 1 => x.t.wait
  | 2 => x.v.wait
  | _ => x.dma.wait

/-- Replaces the wait of an engine that waits. -/
def setWait (x : Cell) (e : Nat) (w : Waiter) : Cell :=
  match e with
  | 0 => { x with k := { x.k with run := .swait w } }
  | 1 => { x with t := { x.t with wait := some w } }
  | 2 => { x with v := { x.v with wait := some w } }
  | _ => { x with dma := { x.dma with wait := some w } }

/-! ### CP2 control registers (R200, R203, R204) -/

/-- Entries of the inbox ring: 2^LOG2SIZE. -/
def inboxSize (x : Cell) : Nat := 2 ^ bits x.sl.icfg.toNat 19 16

/-- ICFG.EN. -/
def inboxEn (x : Cell) : Bool := x.sl.icfg.getLsbD 31

/-- Lie the ring and its source records wholly in scratch (R204). -/
def ringOk (icfg ibase : Word) : Bool :=
  let lg := bits icfg.toNat 19 16
  decide (4 ≤ lg) && decide (lg ≤ 12) && decide (0x1000_0000 ≤ ibase.toNat) &&
    decide (ibase.toNat + 68 * 2 ^ lg ≤ 0x1010_0000)

/-- Adds refused messages to IDROP (R200). -/
def addDrop (x : Cell) (n : Nat) : Cell :=
  { x with sl := { x.sl with idrop := BitVec.ofNat 32 (min (x.sl.idrop.toNat + n) 0xFFFFFFFF) } }

/-- SMTC of a value (R200, R203, R204). -/
def smtcWrite (x : Cell) (n : Nat) (v : Word) : Cell :=
  match n with
  | 0 => { x with sl := { x.sl with swdog := v.toNat % 2 ^ 16 } }
  | 1 =>
    let w := v &&& 0x800F001F#32
    if inboxEn x then
      if v.getLsbD 31 then x
      else addDrop { x with sl := { x.sl with icfg := w, buf := [] } } x.sl.buf.length
    else if v.getLsbD 31 then
      if ringOk w x.sl.ibase then { x with sl := { x.sl with icfg := w, iprod := 0, icons := 0 } } else x
    else { x with sl := { x.sl with icfg := w } }
  | 2 => if inboxEn x then x else { x with sl := { x.sl with ibase := v &&& 0xFFFFFFC0#32 } }
  | 4 => if (x.sl.iprod - v).toNat ≤ inboxSize x then { x with sl := { x.sl with icons := v } } else x
  | 5 => { x with sl := { x.sl with idrop := v } }
  | _ => x

/-- Is a CP2 control register reserved to supervisor writes (R200). -/
def smtcPriv (n : Nat) : Bool := n == 0 || n == 1 || n == 2 || n == 5

/-- The value of a CP2 control register (R200). -/
def smfcRead (x : Cell) (n : Nat) : Word :=
  match n with
  | 0 => BitVec.ofNat 32 x.sl.swdog
  | 1 => x.sl.icfg
  | 2 => x.sl.ibase
  | 3 => x.sl.iprod
  | 4 => x.sl.icons
  | _ => x.sl.idrop

/-! ### CP2 instructions (R198–R200) -/

/-- What a CP2 instruction does at issue. SWAIT stalls until the sluice satisfies the threshold read at issue (R199). -/
def cp2Body (op : CP2Op) (s : State) (x : Cell) : State × KOut :=
  let w := kEncode (.cp2 op)
  match op with
  | .sinc r sl => (s, .seq (incSluice x sl.toNat (gReg x.k r)))
  | .swait r sl =>
    let wt := newWait s x sl (gReg x.k r)
    if waitDone x wt then (s, .seq x) else (s, .hold { x with k := { x.k with run := .swait wt } })
  | .stest d sl => (s, .seq { x with k := setG x.k d (sluice x sl.toNat) })
  | .sset r sl =>
    if userMode x.k then (s, .trap 0x02 0 w)
    else (s, .seq { x with sl := { x.sl with s := sput 0 x.sl.s sl.toNat (gReg x.k r) } })
  | .smtc r n =>
    if !s2Listed n then (s, .trap 0x01 3 w)
    else if userMode x.k && smtcPriv n.toNat then (s, .trap 0x02 0 w)
    else (s, .seq (smtcWrite x n.toNat (gReg x.k r)))
  | .smfc d n =>
    if !s2Listed n then (s, .trap 0x01 3 w)
    else (s, .seq { x with k := setG x.k d (smfcRead x n.toNat) })

/-- SINC (R196). -/
def execSinc (c : Fin 256) (r sl : BitVec 5) (s : State) : Ans := keepQueue s <| .next (issue s c (cp2Body (.sinc r sl)))
/-- SWAIT (R199). -/
def execSwait (c : Fin 256) (r sl : BitVec 5) (s : State) : Ans := keepQueue s <| .next (issue s c (cp2Body (.swait r sl)))
/-- STEST (R198). -/
def execStest (c : Fin 256) (d sl : BitVec 5) (s : State) : Ans := keepQueue s <| .next (issue s c (cp2Body (.stest d sl)))
/-- SSET (R196, R199). -/
def execSset (c : Fin 256) (r sl : BitVec 5) (s : State) : Ans := keepQueue s <| .next (issue s c (cp2Body (.sset r sl)))
/-- SMTC (R200). -/
def execSmtc (c : Fin 256) (r : BitVec 5) (n : BitVec 7) (s : State) : Ans := keepQueue s <| .next (issue s c (cp2Body (.smtc r n)))
/-- SMFC (R200). -/
def execSmfc (c : Fin 256) (d : BitVec 5) (n : BitVec 7) (s : State) : Ans := keepQueue s <| .next (issue s c (cp2Body (.smfc d n)))

/-! ### Waits (R197, R214) -/

/-- Clears the WAIT bit of the first descriptor that has not started: its wait is satisfied. -/
def releaseFirst : List DmaItem → List DmaItem
  | [] => []
  | .desc b a u .queued :: r => .desc (putAt b 2 [BitVec.ofNat 8 (lef b 2 1 6 0)]) a u .queued :: r
  | i :: r => i :: releaseFirst r

/-- A satisfied wait ends. The core's SWAIT completes; CP0 and CP1 free the entry of their TWAIT or VWAIT; the DMA's
first waiting descriptor may start. -/
def execSluiceWaitSatisfied (c : Fin 256) (e : Fin 4) (s : State) : Ans := keepQueue s <|
  let x := cellOf s c
  match waitOf x e with
  | none => .next s
  | some w =>
    if cellInReset s c || !waitDone x w then .next s
    else match e.val with
      | 0 => .next (finish s c (.seq x))
      | 1 => .next (parkCheck (setCell s c { x with t := { x.t with wait := none, q := x.t.q.drop 1 } }) c)
      | 2 => .next (parkCheck (setCell s c { x with v := { x.v with wait := none, q := x.v.q.drop 1 } }) c)
      | _ => .next (setCell s c { x with dma := ⟨releaseFirst x.dma.q, none⟩ })

/-- The watchdog of a wait expires (R214), LIMIT µs after the cycle in which it began, however the time base is set meanwhile: one event
per wait, which goes on. -/
def execWaitWatchdogTimeout (c : Fin 256) (e : Fin 4) (s : State) : Ans := keepQueue s <|
  let x := cellOf s c
  match waitOf x e with
  | none => .next s
  | some w =>
    if cellInReset s c || waitDone x w || w.limit == 0 || w.fired || decide (s.clk < w.at_ + 1000 * w.limit) then .next s
    else .next (event (setCell s c (setWait x e { w with fired := true })) c 1 0x05 (e.val + 4 * w.sl.toNat))

/-! ### The inbox (R201–R203) -/

/-- Is a packet a flume message for a cell. -/
def isMsgFor (c : Nat) (p : Packet) : Bool := p.ty == 0 && p.dest == endpointOf c

/-- A message reaches a cell (R202, R203): none while the hardware buffer is full, so that it waits in the flume. -/
def inboxArrive (s : State) (c : Nat) (p : Packet) : Option State :=
  let x := cellOf s c
  if cellInReset s c then some (discard s c (flitCount p))
  else if !inboxEn x || parked x ||
      !(p.owner == x.turnout.toNat || p.owner == 0x201 || p.owner == 0x202) then
    some (setCell s c (addDrop x 1))
  else if x.sl.buf.length ≥ 16 then none
  else some (setCell s c { x with sl := { x.sl with buf := x.sl.buf ++ [⟨p.src, padTo 64 p.data, p.poison != 0⟩] } })

/-- The oldest message in the flume for a cell arrives at its inbox (R202). -/
def execInboxMessageArrival (c : Fin 256) (s : State) : Ans := keepQueue s <|
  match s.fab.net.find? (isMsgFor c) with
  | none => .next s
  | some p => .next (match arrive s p with
    | (true, t) => (inboxArrive t c p).getD (waitLast s p)
    | (false, t) => t)

/-- Can the DMA engine make a deposit now: a message is buffered, the ring has room, and the cell's clocks run (R201, R213). -/
def depositReady (s : State) (c : Nat) : Bool :=
  let x := cellOf s c
  !x.sl.buf.isEmpty && !cellInReset s c && !parked x && decide ((x.sl.iprod - x.sl.icons).toNat < inboxSize x)

/-- A deposit of the oldest buffered message (R201). -/
def execInboxDeposit (c : Fin 256) (s : State) : Ans := keepQueue s <|
  let x := cellOf s c
  match x.sl.buf with
  | [] => .next s
  | m :: r =>
    let size := inboxSize x
    if !depositReady s c then .next s
    else
      let i := x.sl.iprod.toNat % size
      let base := scratchPA c + (x.sl.ibase.toNat - 0x1000_0000)
      let s := storeBytes s (base + 64 * i) m.data m.poison
      let s := (putMem s (base + 64 * size + 4 * i) (natLE 4 (m.src % 4096)) false).2
      .next (modCell s c (fun x =>
        incSluice { x with sl := { x.sl with buf := r, iprod := x.sl.iprod + 1 } } (bits x.sl.icfg.toNat 4 0) 1))

/-! ### Parking (R213) -/

/-- A write of a flat number to SLU_UNPARK (R213): the cell runs on after PARK, its cycle count going on from the value
held; one that the debug port or a save holds as well runs on when that lets it go. A cell that is not parked is left alone. -/
def execSluUnpark (c : Fin 256) (s : State) : Ans := keepQueue s <|
  if !barOpen s then .next s else
  let x := cellOf s c
  match x.k.cycHeld with
  | some held =>
    if cellInReset s c then .next s
    else
      let k := { x.k with cycHeld := none, cycBase := regionCycles s (regionOf c) - held }
      .next (setCell s c (if x.k.run = .parked then { x with k := { k with run := .running } }
        else { x with k := k, dbg := { x.dbg with resumeRun := .running } }))
  | none => .next s

/-! ### The inter-chip barrier (R210–R212) -/

/-- A barrier. -/
def barOf (s : State) (b : Nat) : Barrier := sget Barrier.empty s.sync.bars b

/-- Replaces a barrier. -/
def setBar (s : State) (b : Nat) (x : Barrier) : State :=
  { s with sync := { s.sync with bars := sput Barrier.empty s.sync.bars b x } }

/-- A BARRIER frame leaves on a link: 1 ARRIVE, 2 RELEASE; barrier, generation, status. -/
def barFrame (s : State) (link kind b gen status : Nat) : State :=
  sendBarrier s link [BitVec.ofNat 8 kind, BitVec.ofNat 8 b, BitVec.ofNat 8 gen, BitVec.ofNat 8 status]

/-- A discarded arrival or frame is counted, up to 7Fh. -/
def barDrop (s : State) (b : Nat) : State := incF s (f_SLU_BAR_STAT_DROP b) 1

/-- The device releases its arrived cells with a status and the generation ends (R211). The barrier unit is on the I/O die, whose
messages enter the mesh at N_x or S_x of the destination's column (R76). -/
def barRelease (s : State) (b status : Nat) : State :=
  let gen := rd s (f_SLU_BAR_STAT_GEN b)
  let x := barOf s b
  let s := x.cells.foldl (fun s p => send s
    ⟨endpointOf p.1, ioEntry (endpointOf p.1), 0, 0, 0x202, 0, 0, 64,
      padTo 64 [2, BitVec.ofNat 8 b, BitVec.ofNat 8 gen, BitVec.ofNat 8 status], 0, 0, 0⟩) s
  let s := setBar s b Barrier.empty
  wr (wr (wr s (f_SLU_BAR_STAT_BUSY b) 0) (f_SLU_BAR_STAT_ARRIVED b) 0) (f_SLU_BAR_STAT_GEN b) ((gen + 1) % 256)

/-- Numbers of the set bits of a link mask. -/
def linkBits (m : Nat) : List Nat := (List.range 36).filter (fun k => bit m k)

/-- A root sends RELEASE on its links. -/
def rootFrames (s : State) (b status : Nat) : State :=
  if rd s (f_SLU_BAR_CFG_ROOT b) = 1 then
    (linkBits (rd s (f_SLU_BAR_LINKS_LINKS b))).foldl (fun s k => barFrame s k 2 b (rd s (f_SLU_BAR_STAT_GEN b)) status) s
  else s

/-- Are all of a root's awaited links in. -/
def linksIn (s : State) (b : Nat) : Bool :=
  let want := rd s (f_SLU_BAR_LINKS_LINKS b)
  (barOf s b).links &&& want == want

/-- Progress of a barrier after an arrival (R211 steps 1 and 2): `arr` says that a local arrival came in. -/
def barProgress (s : State) (b : Nat) (arr : Bool) : State :=
  let n := rd s (f_SLU_BAR_STAT_ARRIVED b)
  let l := rd s (f_SLU_BAR_CFG_LOCAL b)
  if rd s (f_SLU_BAR_CFG_ROOT b) = 1 then
    if decide (l ≤ n) && linksIn s b then barRelease (rootFrames s b 0) b 0 else s
  else if n == l && arr then barFrame s (rd s (f_SLU_BAR_CFG_UPLINK b)) 1 b (rd s (f_SLU_BAR_STAT_GEN b)) 0
  else s

/-- The first arrival of a generation starts TMO (R212). -/
def barStart (s : State) (b : Nat) : State :=
  let x := barOf s b
  let t := rd s (f_SLU_BAR_LINKS_TMO b)
  let s := wr s (f_SLU_BAR_STAT_BUSY b) 1
  if rd s (f_SLU_BAR_STAT_BUSY b) = 1 ∧ x.due = 0 ∧ t ≠ 0 ∧ x.cells = [] ∧ x.links = 0 then
    setBar s b { x with due := 1 + s.clk + 1000 * t }
  else s

/-- The device releases its arrived cells with TIMEOUT; a root tells its members (R212). -/
def barTimeout (s : State) (b : Nat) : State := barRelease (rootFrames s b 0x10) b 0x10

/-- A barrier whose TMO has passed times out; what comes in the instant of expiry still counts (R12, R212). -/
def barExpire (s : State) (b : Nat) : State :=
  let x := barOf s b
  if x.due ≠ 0 ∧ overdue s (x.due - 1) = true then barTimeout s b else s

/-- A cell's arrival at a barrier of a generation (R211): `own` is the turnout in the message's header. -/
def barArrive (s : State) (c own b gen : Nat) : State :=
  let s := barExpire s b
  if b ≥ 16 then s
  else if rd s (f_SLU_BAR_CFG_EN b) = 0 || rd s (f_SLU_BAR_CFG_TURNOUT b) ≠ own || rd s (f_SLU_BAR_STAT_GEN b) ≠ gen then
    barDrop s b
  else
    let s := barStart s b
    let x := barOf s b
    let s := setBar s b { x with cells := nadd x.cells c }
    barProgress (wr s (f_SLU_BAR_STAT_ARRIVED b) (rd s (f_SLU_BAR_STAT_ARRIVED b) + 1)) b true

/-- A message to region control (R211): the arrival form is passed to the barrier unit, any other is discarded. -/
def regionControlMsg (s : State) (p : Packet) : State :=
  let b := le p.data 1 1
  if le p.data 0 1 = 1 ∧ zeroAt p.data 3 61 ∧ b < 16 then
    match cellAtEndpoint p.src with
    | some c => barArrive s c p.owner b (le p.data 2 1)
    | none => s
  else s

/-- A cell's arrival message reaches the barrier unit (R211). -/
def execBarrierArrive (c : Fin 256) (b : Fin 16) (gen : Byte) (s : State) : Ans := keepQueue s <|
  .next (barArrive s c (cellOf s c).turnout.toNat b gen.toNat)

/-- TMO expires (R212). -/
def execBarrierTimeout (b : Fin 16) (s : State) : Ans := keepQueue s <| .next (barExpire s b)

/-- Loss of a link that barriers depend on acts as a timeout at once (R212). -/
def barLinkLost (s : State) (link : Nat) : State :=
  (List.range 16).foldl (fun s b =>
    let dep := if rd s (f_SLU_BAR_CFG_ROOT b) = 1 then bit (rd s (f_SLU_BAR_LINKS_LINKS b)) link
      else rd s (f_SLU_BAR_CFG_UPLINK b) == link
    if rd s (f_SLU_BAR_CFG_EN b) = 1 && dep && rd s (f_SLU_BAR_STAT_BUSY b) = 1 then barTimeout s b else s) s

/-- A write of EN = 0 to SLU_BARn_CFG releases the waiting cells with TIMEOUT. -/
def execBarrierDisable (b : Fin 16) (s : State) : Ans := keepQueue s <|
  if !barOpen s then .next s else
  let s := if rd s (f_SLU_BAR_STAT_BUSY b) = 1 then barRelease s b 0x10 else s
  .next (wr s (f_SLU_BAR_CFG_EN b) 0)

/-! ### The synchronisation dump (R215, R216) -/

/-- The cell record of a dump (R216). -/
def dumpCell (s : State) (c : Nat) : List Byte :=
  let x := cellOf s c
  if cellInReset s c then List.replicate 205 0 ++ [2] ++ List.replicate 50 0
  else
    let w (e : Nat) : List Byte := match waitOf x e with
      | none => List.replicate 16 0
      | some w => natLE 1 (1 + 2 * b2n w.fired) ++ natLE 1 w.sl.toNat ++ [0, 0] ++ natLE 4 w.thr.toNat ++ natLE 8 w.began
    (List.range 32).flatMap (fun i => natLE 4 (sluice x i).toNat) ++ (List.range 4).flatMap w ++
      natLE 4 x.sl.iprod.toNat ++ natLE 4 x.sl.icons.toNat ++ natLE 4 x.sl.idrop.toNat ++
      natLE 1 x.sl.buf.length ++ natLE 1 (b2n (parked x) + 4 * b2n (inboxEn x)) ++ [0, 0] ++
      natLE 4 x.k.pc.toNat ++ List.replicate 44 0

/-- The barrier record of a dump (R216). -/
def dumpBar (s : State) (b : Nat) : List Byte :=
  natLE 1 (rd s (f_SLU_BAR_CFG_EN b) + 2 * rd s (f_SLU_BAR_CFG_ROOT b) + 4 * rd s (f_SLU_BAR_STAT_BUSY b)) ++
    natLE 1 (rd s (f_SLU_BAR_STAT_GEN b)) ++ natLE 2 (rd s (f_SLU_BAR_STAT_ARRIVED b)) ++
    natLE 5 (barOf s b).links ++ List.replicate 7 0

/-- The dump image of the state now (R216). -/
def dumpImage (s : State) : List Byte :=
  [0x53, 0x4C, 0x55, 0x44] ++ natLE 4 1 ++ natLE 8 (now s) ++ List.replicate 48 0 ++
    (List.range 16).flatMap (dumpBar s) ++ List.replicate 704 0 ++ (List.range 256).flatMap (dumpCell s)

/-- SLU_DUMP_ADDR. -/
def dumpAddr (s : State) : Nat := (regv s 0x1200048).toNat % 2 ^ 52
/-- SLU_DUMP_AT. -/
def dumpAt (s : State) : Nat := (regv s 0x1200050).toNat

/-- A write of 1 to ARM (R215): at an instant already passed every unit captures at once and LATE is set. -/
def execSluDumpArm (s : State) : Ans := keepQueue s <|
  if !barOpen s then .next s else
  if rd s f_SLU_DUMP_CTL_ARM = 1 then .next s
  else
    let s := wr s f_SLU_DUMP_CTL_ARM 1
    if dumpAt s < now s then
      .next { wr s f_SLU_DUMP_CTL_LATE 1 with sync := { s.sync with image := dumpImage s } }
    else .next { wr s f_SLU_DUMP_CTL_LATE 0 with sync := { s.sync with image := [] } }

/-- Every unit captures at the first tick at or after AT (R215). -/
def execDumpCapture (s : State) : Ans := keepQueue s <|
  if rd s f_SLU_DUMP_CTL_ARM = 0 || now s < dumpAt s || !s.sync.image.isEmpty then .next s
  else .next { s with sync := { s.sync with image := dumpImage s } }

/-- The image is written and its last write acknowledged (R215): DONE sets and ARM clears. The image is written as the
manager's (201h); a refused write is dropped. -/
def execDumpDone (s : State) : Ans := keepQueue s <|
  if rd s f_SLU_DUMP_CTL_ARM = 0 || s.sync.image.isEmpty then .next s
  else
    let (_, s) := runMM s (writeSp (ioFor .firmware) 0x201 (dumpAddr s / 64 * 64) s.sync.image)
    let s := { s with sync := { s.sync with image := [] } }
    .next (wr (wr s f_SLU_DUMP_CTL_DONE 1) f_SLU_DUMP_CTL_ARM 0)

end Sys2Proof.Machine
end

