-- ==== Sys2Proof/Machine/Coproc.lean ====
section
/-! DEFINITION. Machine/Coproc.lean: what CP0 and CP1 share: the checks of scratch addresses, reads and writes of scratch,
and the stop on an error found after acceptance (R129–R136).
Choices beyond the words of the spec: log entries DESIGN CHOICE 1, 12, 22, 23, 89; DEDUCED 13. -/

namespace Sys2Proof.Machine

/-- ERR codes (R135). -/
def eADDR : Nat := 1
/-- ALIGN. -/
def eALIGN : Nat := 2
/-- ACCESS. -/
def eACCESS : Nat := 3
/-- UE. -/
def eUE : Nat := 4
/-- LAX_BAD. -/
def eLAX : Nat := 5
/-- RANGE. -/
def eRANGE : Nat := 6

/-- Does a range lie in scratch (R134). -/
def inScratch (a n : Nat) : Bool := decide (0x1000_0000 ≤ a) && decide (a + n ≤ 0x1010_0000)

/-- The device physical address of a cell-local scratch address. -/
def scrPA (c a : Nat) : Nat := scratchPA c + (a - 0x1000_0000)

/-- R134's checks of a list of ranges, in its order: the first failure. -/
def cpCheck (x : Cell) (user : Bool) (rs : List (Nat × Nat)) (aligned : Bool) (kind : AccKind) : Option Nat :=
  if !rs.all (fun r => inScratch r.1 r.2) then some eADDR
  else if !aligned then some eALIGN
  else if user && !rs.all (fun r => mpuRange x.k r.1 r.2 kind) then some eACCESS
  else none

/-- Reads ranges of scratch: corrected, or none with an uncorrectable word among them. -/
def cpRead (s : State) (c : Nat) (rs : List (Nat × Nat)) : Option (List (List Byte)) × State :=
  let (bad, s) := rs.foldl (fun (p : Bool × State) r =>
    let (b, s) := checkRange p.2 (scrPA c r.1) r.2 false
    (p.1 || b, s)) (false, s)
  if bad then (none, s) else (some (rs.map (fun r => memBytes s (scrPA c r.1) r.2)), s)

/-- The lines of scratch that pieces touch, by cell-local line number. -/
def linesOf (ws : List (Nat × List Byte)) : List Nat :=
  (ws.flatMap (fun w => (List.range ((w.1 + w.2.length + 63) / 64 - w.1 / 64)).map (fun i => w.1 / 64 + i))).eraseDups.filter
    (fun l => inScratch (64 * l) 64)

/-- The parts of pieces that lie in a line of scratch. -/
def linePieces (line : Nat) (ws : List (Nat × List Byte)) : List (Nat × List Byte) :=
  ws.filterMap (fun w =>
    let lo := max w.1 (64 * line)
    let hi := min (w.1 + w.2.length) (64 * line + 64)
    if lo < hi then some (lo, (w.2.drop (lo - w.1)).take (hi - lo)) else none)

/-- Must one of the pieces merge into an uncorrectable word (R60). -/
def cpMergeBad (s : State) (c : Nat) (ws : List (Nat × List Byte)) : Bool :=
  ws.any (fun w => mergeBad s (scrPA c w.1) w.2.length)

/-- Stores pieces of scratch; the words they cover in part are corrected first (R60). -/
def cpPut (s : State) (c : Nat) (ws : List (Nat × List Byte)) : State :=
  ws.foldl (fun s w => storeBytes (mergeFix s (scrPA c w.1) w.2.length) (scrPA c w.1) w.2 false) s

/-- The scratch writes of a failing instruction: each line is left old or new, whole, by a free value (R135); a line whose write
would have to merge into an uncorrectable word stays old (R60). -/
def cpWriteFree (s : State) (c : Nat) (ws : List (Nat × List Byte)) : State :=
  (linesOf ws).foldl (fun s l =>
    let (b, s) := freshBelow s 2
    let ps := linePieces l ws
    if b = 0 || cpMergeBad s c ps then s else cpPut s c ps) s

/-- Reads ranges of scratch and goes on with what they hold, none with an uncorrectable word among them. Where the reaction to a
corrected error has reset the cell, the instruction is gone with its queue (R136). -/
def cpLoad (s : State) (c : Nat) (rs : List (Nat × Nat)) (k : Option (List (List Byte)) → State → State) : State :=
  let (r, s) := cpRead s c rs
  if cellInReset s c then s else k r s

/-- Writes pieces of scratch and goes on: false when one must merge into an uncorrectable word, and then each line is left old or
new (R60, R135; that this ends the instruction with ERR = UE is DESIGN CHOICE, log entry 89). -/
def cpStore (s : State) (c : Nat) (ws : List (Nat × List Byte)) (k : Bool → State → State) : State :=
  if cpMergeBad s c ws then k false (cpWriteFree s c ws)
  else
    let s := cpPut s c ws
    if cellInReset s c then s else k true s

/-- `n` free values of `w` bits. -/
def freshCodes (s : State) (n w : Nat) : List Nat × State :=
  ((List.range n).map (fun i => (Config.freeValue (s.free + i)).toNat % 2 ^ w), { s with free := s.free + n })

/-- A free accumulator, from the 14 values from `k` on. -/
def freeAcc (k : Nat) : Acc :=
  let v (i : Nat) : Nat := (Config.freeValue (k + i)).toNat
  ⟨BitVec.ofNat 704 ((List.range 11).foldl (fun a i => a * 2 ^ 64 + v i) 0), bit (v 11) 0, bit (v 11) 1, bit (v 11) 2,
    BitVec.ofNat 5 (v 12)⟩

/-- A bank of free contents. -/
def freeBank (s : State) : Bank × State :=
  (.exact (((List.range 1024).map (fun i => (i, freeAcc (s.free + 14 * i)))).filter (fun p => p.2 ≠ Acc.zero)),
    { s with free := s.free + 14 * 1024 })

/-- Raises CR_IPEND.COPROC. -/
def raiseCoproc (k : KCore) : KCore := { k with ipend := k.ipend ||| 0b0100#4 }

/-- CP0 stops on an error of its entry `i` (R135): that entry and those behind it are discarded. -/
def stop0 (s : State) (c i : Nat) (pc : Word) (code : Nat) : State :=
  let s := modCell s c (fun x => { x with
    k := raiseCoproc x.k
    t := { x.t with q := x.t.q.take i, halted := true, err := code, errpc := pc } })
  parkCheck (if code = eUE then event s c 1 0x06 (0x40 + code) else s) c

/-- CP1 stops on an error of its first entry (R135). -/
def stop1 (s : State) (c : Nat) (pc : Word) (code : Nat) : State :=
  let s := modCell s c (fun x => { x with
    k := raiseCoproc x.k
    v := { x.v with q := [], halted := true, err := code, errpc := pc } })
  parkCheck (if code = eUE then event s c 1 0x06 (0x50 + code) else s) c

end Sys2Proof.Machine
end

