-- ==== Sys2Proof/Machine/KibenMem.lean ====
section
/-! DEFINITION. Machine/KibenMem.lean: loads and stores of the Kiben core, its window accesses and their responses (R93–R97,
R60, R61, R118, R122, R435).
Choices beyond the words of the spec: log entries DESIGN CHOICE 26, 81, 84, 85. -/

namespace Sys2Proof.Machine

/-- Bytes of a load. -/
def loadBytes : LoadOp → Nat
  | .lb | .lbu => 1 | .lh | .lhu => 2 | .lw => 4

/-- The value of a load from its bytes (R92). -/
def loadVal (op : LoadOp) (l : List Byte) : Word :=
  let v := leNat l
  match op with
  | .lb => (BitVec.ofNat 8 v).signExtend 32
  | .lbu => BitVec.ofNat 32 (v % 256)
  | .lh => (BitVec.ofNat 16 v).signExtend 32
  | .lhu => BitVec.ofNat 32 (v % 65536)
  | .lw => BitVec.ofNat 32 v

/-- The load kind of a store's width. -/
def storeKind : StoreOp → LoadOp
  | .sb => .lb | .sh => .lh | .sw => .lw

/-- A cell halted by the debug port before its instruction (R435). -/
def haltCell (x : Cell) (reason index : Nat) : Cell :=
  { x with k := { x.k with run := .debug }
           dbg := { x.dbg with reason := reason, index := index, stepping := false, haltReq := false, resumeRun := .running } }

/-- The endpoint that serves a device physical address, as seen from a block's router (R76, R77, R79). The reservoir's port F is named
at block 0's router of its region (DESIGN CHOICE, log entry 84); a request to the I/O die leaves the mesh at N_x or S_x of the
requester's own column and half (DESIGN CHOICE, log entry 85). -/
def endpointFor (src a : Nat) : Nat :=
  match areaOf a with
  | .scratch c | .imem c => endpointOf c
  | .rsv g => 64 * routerOf (4 * (g / 256)) + 8 * 5
  | .hbm _ =>
    let st := bits a 37 36
    64 * (8 * (4 * (st % 2) + bits a 9 8) + (if st < 2 then 0 else 7)) + 8 * 7
  | _ => ioEntry src

/-- Sends the request of a blocking access that has its address (R95): over the flume for the translated window; the
reservoir window's request stays in the block's port. -/
def sendAccess (s : State) (c : Nat) (a : Access95) : State :=
  let (t, s) := freshTag s
  let x := cellOf s c
  let s := setCell s c { x with k := { x.k with run := .access { a with tag := t } } }
  match localOf a.addr.toNat with
  | .trans _ _ =>
    let src := endpointOf c
    let n := loadBytes a.op
    send s ⟨endpointFor src a.pa, src, if a.isStore then 3 else 1, 0, x.turnout.toNat, t, a.pa, n,
      if a.isStore then natLE n a.data.toNat else [], 0, 0, 0⟩
  | _ => s

/-- Starts a blocking window access (R95, R96): translation, a page request, or the request itself. -/
def startAccess (s : State) (c : Nat) (isStore : Bool) (op : LoadOp) (d : BitVec 5) (addr data : Word) : State × KOut :=
  let acc : Access95 := ⟨isStore, op, d, addr, data, 0, 0, s.clk + 100000, none, winAt s c addr.toNat⟩
  match runMM s (localPA c addr.toNat isStore) with
  | (.ok pa, s) =>
    let s := sendAccess s c { acc with pa := pa }
    (s, .hold (cellOf s c))
  | (.error (.page t p w), s) =>
    let s := raisePage s (.core c) 0 t p w
    let x := cellOf s c
    (s, .hold { x with k := { x.k with run := .access { acc with paused := some 100000 } } })
  | (.error _, s) => (s, .trap (if isStore then 0x09 else 0x08) 0 addr)

/-- A load (R94–R97, R118). -/
def loadOp (c : Nat) (op : LoadOp) (d a : BitVec 5) (i : BitVec 16) (s : State) (x : Cell) : State × KOut :=
  let addr := gReg x.k a + sx16 i
  let n := loadBytes op
  if addr.toNat % n ≠ 0 then (s, .trap 0x06 0 addr)
  else match wpHit x addr.toNat n false with
    | some k => (s, .hold (haltCell x 3 k))
    | none =>
      match localOf addr.toNat with
      | .none => (s, .trap 0x08 0 addr)
      | loc =>
        if userMode x.k && !mpuOk x.k addr .load then (s, .trap 0x08 0 addr)
        else match loc with
          | .imem o =>
            if nin s.m.par ((imemPA c + o) / 4) then
              if x.k.imemBack = 0 then (s, .trap 0x0A 0 addr)
              else (s, .hold { x with k := { x.k with run := .reload o (some addr) } })
            else (s, .seq { x with k := setG x.k d (loadVal op (memBytes s (imemPA c + o) n)) })
          | .scratch o =>
            let (bad, s) := checkRange s (scratchPA c + o) n false
            let x := cellOf s c
            if bad then (s, .trap 0x0A 0 addr)
            else (s, .seq { x with k := setG x.k d (loadVal op (memBytes s (scratchPA c + o) n)) })
          | _ => startAccess s c false op d addr 0

/-- A store (R94–R97, R118, R60, R61). -/
def storeOp (c : Nat) (op : StoreOp) (b a : BitVec 5) (i : BitVec 16) (s : State) (x : Cell) : State × KOut :=
  let addr := gReg x.k a + sx16 i
  let v := gReg x.k b
  let n := loadBytes (storeKind op)
  let l := natLE n v.toNat
  if addr.toNat % n ≠ 0 then (s, .trap 0x07 0 addr)
  else match wpHit x addr.toNat n true with
    | some k => (s, .hold (haltCell x 3 k))
    | none =>
      match localOf addr.toNat with
      | .none => (s, .trap 0x09 0 addr)
      | .imem o =>
        if userMode x.k then (s, .trap 0x09 0 addr)
        else if mergeBad s (imemPA c + o) n then (s, .trap 0x0B 0 addr)
        else (storeBytes s (imemPA c + o) l false, .seq x)
      | loc =>
        if userMode x.k && !mpuOk x.k addr .store then (s, .trap 0x09 0 addr)
        else match loc with
          | .scratch o =>
            if mergeBad s (scratchPA c + o) n then (s, .trap 0x0B 0 addr)
            else
              let s := mergeFix s (scratchPA c + o) n
              (storeBytes s (scratchPA c + o) l false, .seq (cellOf s c))
          | _ => startAccess s c true (storeKind op) 0 addr v

/-- LB (R99). -/
def execLb (c : Fin 256) (d a : BitVec 5) (i : BitVec 16) (s : State) : Ans := keepQueue s <| .next (issue s c (loadOp c .lb d a i))
/-- LBU (R99). -/
def execLbu (c : Fin 256) (d a : BitVec 5) (i : BitVec 16) (s : State) : Ans := keepQueue s <| .next (issue s c (loadOp c .lbu d a i))
/-- LH (R97, R99). -/
def execLh (c : Fin 256) (d a : BitVec 5) (i : BitVec 16) (s : State) : Ans := keepQueue s <| .next (issue s c (loadOp c .lh d a i))
/-- LHU (R97, R99). -/
def execLhu (c : Fin 256) (d a : BitVec 5) (i : BitVec 16) (s : State) : Ans := keepQueue s <| .next (issue s c (loadOp c .lhu d a i))
/-- LW (R97, R99). -/
def execLw (c : Fin 256) (d a : BitVec 5) (i : BitVec 16) (s : State) : Ans := keepQueue s <| .next (issue s c (loadOp c .lw d a i))
/-- SB (R99). -/
def execSb (c : Fin 256) (b a : BitVec 5) (i : BitVec 16) (s : State) : Ans := keepQueue s <| .next (issue s c (storeOp c .sb b a i))
/-- SH (R97, R99). -/
def execSh (c : Fin 256) (b a : BitVec 5) (i : BitVec 16) (s : State) : Ans := keepQueue s <| .next (issue s c (storeOp c .sh b a i))
/-- SW (R97, R99). -/
def execSw (c : Fin 256) (b a : BitVec 5) (i : BitVec 16) (s : State) : Ans := keepQueue s <| .next (issue s c (storeOp c .sw b a i))

/-- Completes a blocking access by the response STATUS (R95). -/
def finishAccess (s : State) (c : Nat) (a : Access95) (status : Nat) (data : List Byte) : State :=
  let x := cellOf s c
  let x := { x with k := { x.k with run := .running } }
  let s := setCell s c x
  match status with
  | 0 => finish s c (.seq { x with k := if a.isStore then x.k else setG x.k a.rd (loadVal a.op data) })
  | 1 => finish s c (.trap (if a.isStore then 0x0B else 0x0A) 0 a.addr)
  | 2 => finish s c (.trap (if a.isStore then 0x09 else 0x08) 0 a.addr)
  | _ => finish s c (.trap 0x0D 0 a.addr)

/-- The response STATUS of a failed access (R78). -/
def statusOf : MErr → Nat
  | .poison => 1
  | .reset => 3
  | _ => 2

/-- A response reaches a cell: the access whose TAG matches ends; any other response is discarded (R84), and one that comes after
the access's deadline is late and does not count (R12, R96). -/
def respond (s : State) (c : Nat) (p : Packet) : State :=
  if cellInReset s c then discard s c (flitCount p)
  else match (cellOf s c).k.run with
    | .access a =>
      if a.tag ≠ 0 ∧ a.tag = p.tag ∧ inTime s a.deadline = true then
        finishAccess s c a (if p.poison != 0 && p.status == 0 && !a.isStore then 1 else p.status) p.data
      else s
    | _ => s

/-- The outcome of the access itself at the reservoir behind the block's port: STATUS, data and the state after. -/
def doAccess (s : State) (c : Nat) (a : Access95) : Nat × List Byte × State :=
  let o := (cellOf s c).turnout.toNat
  let n := loadBytes a.op
  if a.isStore then
    match runMM s (physWrite (cellVia c) o a.pa (natLE n a.data.toNat) false) with
    | (.ok _, s) => (0, [], s)
    | (.error e, s) => (statusOf e, [], s)
  else match runMM s (physRead (cellVia c) o a.pa n) with
    | (.ok l, s) => (0, l, s)
    | (.error e, s) => (statusOf e, [], s)

/-- The response to a blocking window access arrives in time (R95, R12): for the translated window the response in flight with its TAG;
for the reservoir window the access is made at the block's reservoir port. -/
def execWindowResponse (c : Fin 256) (s : State) : Ans := keepQueue s <|
  match (cellOf s c).k.run with
  | .access a =>
    if a.tag = 0 || cellInReset s c || overdue s a.deadline then .next s
    else match localOf a.addr.toNat with
      | .rsv _ =>
        let (st, l, s) := doAccess s c a
        .next (if cellInReset s c then s else finishAccess s c a st l)
      | _ =>
        match s.fab.net.find? (fun p => (p.ty == 2 || p.ty == 4) && p.dest == endpointOf c && p.tag == a.tag) with
        | some p => .next (match arrive s p with
          | (true, s) => respond s c p
          | (false, s) => s)
        | none => .next s
  | _ => .next s

/-- No response within 100 µs (R96); the timer does not run while the access waits on a page request. -/
def execBusTimeout (c : Fin 256) (s : State) : Ans := keepQueue s <|
  let x := cellOf s c
  match x.k.run with
  | .access a =>
    if a.tag = 0 || !overdue s a.deadline || cellInReset s c then .next s
    else .next (finish (setCell s c { x with k := { x.k with run := .running } }) c (.trap 0x0E 0 a.addr))
  | _ => .next s

/-- A page request of a waiting core ends (R229): a served one makes it walk again, with the mapping of its issue (R226); a refused one, a
deadline, or a walk that ends without a valid leaf gives PAGE_FAULT (R96). -/
def coreRewalk (s : State) (c : Nat) (served : Bool) : State :=
  let x := cellOf s c
  match x.k.run with
  | .access a =>
    let trap (s : State) (cause : Nat) : State := finish (setCell s c { x with k := { x.k with run := .running } }) c (.trap cause 0 a.addr)
    if a.tag ≠ 0 then s
    else if !served then trap s 0x0C
    else match winTA a.win a.addr.toNat with
      | none => s
      | some ta =>
        match runMM s (findLeaf (regionOf c) x.turnout.toNat ta a.isStore) with
        | (.ok (pa, r, w), s) =>
          if permitted r w a.isStore then
            sendAccess s c { a with pa := pa, deadline := s.clk + a.paused.getD 100000, paused := none }
          else trap s (if a.isStore then 0x09 else 0x08)
        | (.error _, s) => trap s 0x0C
  | _ => s

end Sys2Proof.Machine
end

