-- ==== Sys2Proof/Machine/Fabric.lean ====
section
/-! DEFINITION. Machine/Fabric.lean: cells, blocks, regions and the flume: unit resets, the region registers, the reservoir,
flume packets and the LAX merge units (R56–R90).
Choices beyond the words of the spec: log entries DESIGN CHOICE 1, 17, 67, 70, 73, 82, 83, 84; DEDUCED 18. -/

namespace Sys2Proof.Machine

/-! ### Resets (R62, R65, R67, R85, R87) -/

/-- A CELL reset is demanded under the cell's own source (R62, R85). -/
def execCellReset (c : Fin 256) (s : State) : Ans := keepQueue s <| .next (reqCellReset s c c)

/-- A BLOCK reset (R65, R85). -/
def execBlockReset (k : Fin 64) (s : State) : Ans := keepQueue s <| .next (reqBlockReset s (0x100 + k) k)

/-- A REGION reset (R67, R85). -/
def execRegionReset (r : Fin 16) (s : State) : Ans := keepQueue s <| .next (reqRegionReset s (0x140 + r) r)

/-- BUSY while the reset requested through RGN_UNIT_RST is in progress: 1 + the unit. -/
def unitBusy (s : State) (r unit : Nat) : State :=
  { wr s (f_RGN_UNIT_RST_BUSY r) 1 with fab := { s.fab with unit := sput 0 s.fab.unit r (unit + 1) } }

/-- A write of LEVEL CELL to RGN_UNIT_RST (R87). -/
def execRgnUnitRstCell (r : Fin 16) (b c : Fin 4) (s : State) : Ans := keepQueue s <|
  if !barOpen s then .next s else
  if rd s (f_RGN_UNIT_RST_BUSY r) = 1 then .next (writeIgnored s)
  else
    let n := 16 * r.val + 4 * b.val + c.val
    let was := beforeBoot s || cellInReset s n
    let s := reqCellReset s n n
    .next (if was then s else unitBusy s r n)

/-- A write of LEVEL BLOCK to RGN_UNIT_RST (R87). -/
def execRgnUnitRstBlock (r : Fin 16) (b : Fin 4) (s : State) : Ans := keepQueue s <|
  if !barOpen s then .next s else
  if rd s (f_RGN_UNIT_RST_BUSY r) = 1 then .next (writeIgnored s)
  else
    let k := 4 * r.val + b.val
    let was := beforeBoot s || nin s.fab.blockRst k || nin s.fab.regionRst r
    let s := reqBlockReset s (0x100 + k) k
    .next (if was then s else unitBusy s r (0x100 + k))

/-! ### The reservoir (R70, R88) -/

/-- A write to RGN_RSV_WEIGHT (R88): the register takes the new weights. In which cycle each bank grants whom is timing (log entry
70). -/
def execRgnRsvWeightWrite (r : Fin 16) (w : BitVec 20) (s : State) : Ans := keepQueue s <|
  if !barOpen s then .next s else
  .next (setReg s (f_RGN_RSV_WEIGHT_F r).key (w.zeroExtend 64))

/-- One line of the patrol scrubber (R70): single-bit errors are corrected and counted, an uncorrectable word is recorded. -/
def execReservoirPatrolScrub (r : Fin 16) (s : State) : Ans := keepQueue s <|
  let l := sget 0 s.fab.patrol r
  let a := 0x100_0000_0000 + r.val * 0x1000_0000 + 64 * l
  let (_, s) := checkRange s a 64 true
  .next { s with fab := { s.fab with patrol := sput 0 s.fab.patrol r ((l + 1) % 4194304) } }

/-! ### Flume packets (R73–R84) -/

/-- The fault source of the unit in reset behind an address. -/
def unitSource (a : Nat) : Nat := (memSource a).1

/-- A packet that arrives meets no unit: its router discards it, counted under 199h for an edge port that does not exist (R79), or
its destination's local port is stopped by a reset, which counts it under that unit (R65, R84). -/
def lostAt (s : State) (p : Packet) : Option State :=
  if noSuchPort p then some (discard s 0x199 (flitCount p))
  else (portStopped s p.dest).map (fun src => discard s src (flitCount p))

/-- A flume message arrives at its destination (R78, R79, R84): a cell's inbox, region control, or the router that must
discard it. It cannot overtake an older one of its source, and it waits while the inbox buffer is full. -/
def execFlumeMsg (p : Packet) (err : FlitErr) (s : State) : Ans := keepQueue s <|
  match arrive s p with
  | (false, t) => .next t
  | (true, t) =>
    let (u, q) := flitErr t p err
    match cellAtEndpoint q.dest with
    | some c => .next ((inboxArrive u c q).getD (waitLast s p))
    | none =>
      match lostAt u q with
      | some v => .next v
      | none => .next (if localPort q.dest = 6 then regionControlMsg u q else u)

/-- Answers a request. -/
def reply (s : State) (p : Packet) (ty status : Nat) (l : List Byte) (poison : BitVec 33) : State :=
  send s ⟨p.src, p.dest, ty, status, p.owner, p.tag, 0, l.length, l, poison, 0, 0⟩

/-- The poison marks of a response (R60, R80): data flit j, of 128 bytes, is poisoned when a word that it carries is uncorrectable. -/
def readMarks (s : State) (a n : Nat) : BitVec 33 :=
  BitVec.ofNat 33 ((List.range 32).foldl (fun m j =>
    if decide (128 * j < n) && ((eccIn s (a + 128 * j) (min 128 (n - 128 * j))).any (fun e => e.2 == 2) ||
      (List.range 33).any (fun i => match areaOf a with
        | .imem _ => decide (a / 4 + 32 * j + i < (a + min n (128 * (j + 1)) + 3) / 4) && nin s.m.par (a / 4 + 32 * j + i)
        | _ => false))
    then m + 2 ^ (j + 1) else m) 0)

/-- A read request reaches its target (R78, R220, R60, R84); a poisoned request has a poisoned answer. -/
def execFlumeRdReq (p : Packet) (err : FlitErr) (s0 : State) : Ans := keepQueue s0 <|
  match arrive s0 p with
  | (false, t) => .next t
  | (true, t) =>
    let (s, p) := flitErr t p err
    if noSuchPort p then .next (discard s 0x199 (flitCount p))
    else match portStopped s p.dest with
      | some src => .next (reply (discard s src (flitCount p)) p 2 3 [] 0)
      | none =>
        if targetInReset s p.addr then .next (reply (discard s (unitSource p.addr) (flitCount p)) p 2 3 [] 0)
        else if !rangeOk s p.owner p.addr p.len then .next (reply s p 2 2 [] 0)
        else if portGone s p.owner p.addr then
          -- the read TLPs of a VF whose FLR has passed its 2 µs are discarded and counted (R260)
          .next (reply (flrDropped s p.owner (portPieces s p.owner p.addr p.len false).length) p 2 3 [] 0)
        else match areaOf p.addr with
        | .port port _ =>
          -- while the port has too few tags left, the request waits (R252)
          if portTags port < (s.pcie.reqs.filter (fun q => q.port == port)).length + (portPieces s p.owner p.addr p.len false).length then
            .next (waitLast s0 p)
          else .next (askPort s ⟨.flume p.src p.tag, p.owner, p.addr, p.len, false, none⟩)
        | _ =>
          let marks := readMarks s p.addr p.len
          let (bad, s) := checkRange s p.addr p.len true
          let marks := if p.poison != 0 then BitVec.allOnes 33 else marks
          .next (reply s p 2 (b2n (bad || p.poison != 0)) (memBytes s p.addr p.len) marks)

/-- Marks what the poisoned flits of a write carried (R60, R80). -/
def poisonFlits (s : State) (p : Packet) : State :=
  if p.poison = 0 then s
  else (List.range 32).foldl (fun s j =>
    if 128 * j < p.data.length ∧ flitBad p j = true then poisonRange s (p.addr + 128 * j) (min 128 (p.data.length - 128 * j)) else s) s

/-- A write cut off by the reset of its target (R84): of each 64-byte line of a memory that the reset leaves, the whole of its part or
none is written; which lines is a free choice. Scratch and instruction memory are zeroed by the reset (R62). -/
def writeCut (s : State) (p : Packet) : State :=
  match areaOf p.addr with
  | .rsv _ =>
    if !rangeOk s p.owner p.addr p.data.length || mergeBad s p.addr p.data.length then s
    else (List.range ((p.addr + p.data.length + 63) / 64 - p.addr / 64)).foldl (fun s i =>
      let lo := max p.addr (64 * (p.addr / 64 + i))
      let hi := min (p.addr + p.data.length) (64 * (p.addr / 64 + i + 1))
      let (v, s) := freshV s
      if v % 2 = 1 then storeBytes (mergeFix s lo (hi - lo)) lo ((p.data.drop (lo - p.addr)).take (hi - lo)) false else s) s
  | _ => s

/-- A write transfer reaches its target (R78, R220, R60, R84): poisoned data is written with check bits that every later
read finds uncorrectable. -/
def execFlumeWr (p : Packet) (err : FlitErr) (s : State) : Ans := keepQueue s <|
  match arrive s p with
  | (false, t) => .next t
  | (true, t) =>
    let (s, p) := flitErr t p err
    if noSuchPort p then .next (discard s 0x199 (flitCount p))
    else match portStopped s p.dest with
      | some src => .next (reply (writeCut (discard s src (flitCount p)) p) p 4 3 [] 0)
      | none =>
        if targetInReset s p.addr then .next (reply (writeCut (discard s (unitSource p.addr) (flitCount p)) p) p 4 3 [] 0)
        else if !rangeOk s p.owner p.addr p.data.length then .next (reply s p 4 2 [] 0)
        else if portGone s p.owner p.addr then
          -- a write toward a port that cannot leave is discarded (R260, R270)
          .next (reply (flrDropped s p.owner (portPieces s p.owner p.addr p.data.length true).length) p 4 0 [] 0)
        else match areaOf p.addr with
        | .port _ _ =>
          .next (reply (portPut s (ioFor (.flume p.src p.tag)) p.owner p.addr p.data (fun i => flitBad p (i / 128))) p 4 0 [] 0)
        | _ =>
          let (ok, s) := putMem s p.addr p.data false
          .next (if ok then reply (poisonFlits s p) p 4 0 [] 0 else reply s p 4 1 [] 0)

/-- A response reaches its requester, or the place where it is lost (R79, R84). -/
def responseArrives (p : Packet) (err : FlitErr) (s : State) : State :=
  match arrive s p with
  | (false, t) => t
  | (true, t) =>
    let (s, p) := flitErr t p err
    match cellAtEndpoint p.dest with
    | some c => respond s c p
    | none => (lostAt s p).getD s

/-- A read response reaches its requester (R95): the access whose TAG it matches completes by its STATUS. -/
def execFlumeRdRsp (p : Packet) (err : FlitErr) (s : State) : Ans := keepQueue s <| .next (responseArrives p err s)

/-- A write acknowledgement reaches its requester (R95, R207), its flit with the error that its check bits show (R80). -/
def execFlumeWrAck (p : Packet × FlitErr) (s : State) : Ans := keepQueue s <| .next (responseArrives p.1 p.2 s)

/-- A credit returns for a flit that the buffer has freed (R74): flits that still stand there have none to return. -/
def execFlitCreditReturn (router : Fin 64) (port : Fin 8) (plane : Fin 2) (vc : Fin 3) (s : State) : Ans := keepQueue s <|
  let k := credKey router port plane vc
  if standing s k < sget 0 s.fab.held k then .next { s with fab := { s.fab with held := sput 0 s.fab.held k (sget 0 s.fab.held k - 1) } }
  else .next s

/-! ### The LAX merge unit (R64) -/

/-- Replaces a merge slot. -/
def setSlot (s : State) (k i : Nat) (a : MergeSlot) : State :=
  { s with fab := { s.fab with merge := sput none s.fab.merge (64 * k + i) a } }

/-- A merge slot. -/
def slotOf (s : State) (k i : Nat) : MergeSlot := sget none s.fab.merge (64 * k + i)

/-- Is a block's merge unit held in reset. -/
def mergeInReset (s : State) (k : Nat) : Bool := nin s.fab.blockRst k || nin s.fab.regionRst (k / 4)

/-- OPEN clears a slot (R64). -/
def execMergeOpen (k i : Fin 64) (s : State) : Ans := keepQueue s <|
  if mergeInReset s k then .next (discard s (0x100 + k) 1)
  else .next (emit (setSlot s k i (some Acc.zero)) (.merge k i stOk []))

/-- ADD merges one record (R45, R64). -/
def execMergeAdd (k i : Fin 64) (rec : List Byte) (s : State) : Ans := keepQueue s <|
  if mergeInReset s k then .next (discard s (0x100 + k) 1)
  else match slotOf s k i, ofLAX rec with
    | some a, some b => .next (emit (setSlot s k i (some (a.merge b))) (.merge k i stOk []))
    | _, _ => .next (emit s (.merge k i stField []))

/-- CLOSE returns the canonical record and frees the slot (R43, R64). -/
def execMergeClose (k i : Fin 64) (s : State) : Ans := keepQueue s <|
  if mergeInReset s k then .next (discard s (0x100 + k) 1)
  else match slotOf s k i with
    | some a => .next (emit (setSlot s k i none) (.merge k i stOk a.toLAX))
    | none => .next (emit s (.merge k i stField []))

end Sys2Proof.Machine
end

