-- ==== Sys2Proof/Machine/Dma.lean ====
section
/-! DEFINITION. Machine/Dma.lean: CP3, the DMA engine: DQ, DMSG, COPY and ZERO descriptors, their completion, and the sending
of messages (R205–R209, R60, R61).
Choices beyond the words of the spec: log entries DESIGN CHOICE 17, 95. -/

namespace Sys2Proof.Machine

/-! ### DQ and DMSG (R205, R206) -/

/-- Entries of the queue that have not started (R129: an entry is freed when its instruction starts). -/
def dmaWaiting (q : List DmaItem) : Nat :=
  (q.filter (fun i => match i with
    | .desc _ _ _ .queued => true
    | .msg _ _ _ => true
    | _ => false)).length

/-- DQ's or DMSG's read of scratch at acceptance, checked as a core load (R206). -/
def dqRead (s : State) (c : Nat) (x : Cell) (a n : Nat) (k : List Byte → Cell → KOut) : State × KOut :=
  let tv := BitVec.ofNat 32 a
  if a % n ≠ 0 then (s, .trap 0x06 0 tv)
  else if !inScratch a n || (userMode x.k && !mpuRange x.k a n .load) then (s, .trap 0x08 0 tv)
  else
    let (bad, s) := checkRange s (scrPA c a) n false
    if bad then (s, .trap 0x0A 0 tv) else (s, k (memBytes s (scrPA c a) n) (cellOf s c))

/-- Queues an item. -/
def pushDma (x : Cell) (i : DmaItem) : KOut := .seq { x with dma := { x.dma with q := x.dma.q ++ [i] } }

/-- Is a DMSG destination refused (R206). -/
def dmsgRefused (d : Word) : Bool :=
  let p := bits d.toNat 5 3
  d.toNat ≥ 4096 || bits d.toNat 2 0 != 0 || p == 4 || p == 5 || p == 7

/-- What a CP3 instruction does at issue: it stalls while the queue is full (R113). -/
def cp3Body (c : Nat) (op : CP3Op) (s : State) (x : Cell) : State × KOut :=
  match op with
  | .dq r =>
    if dmaWaiting x.dma.q ≥ 16 then (s, .hold x)
    else dqRead s c x (gReg x.k r).toNat 32 (fun l y => pushDma y (.desc l (gReg x.k r) (userMode x.k) .queued))
  | .dmsg r1 r2 ord =>
    let d := gReg x.k r2
    if dmsgRefused d then (s, .trap 0x01 4 (kEncode (.cp3 op)))
    else if dmaWaiting x.dma.q ≥ 16 then (s, .hold x)
    else dqRead s c x (gReg x.k r1).toNat 64 (fun l y => pushDma y (.msg l d.toNat (ord == 1)))

/-- DQ (R206). -/
def execDq (c : Fin 256) (r : BitVec 5) (s : State) : Ans := keepQueue s <| .next (issue s c (cp3Body c (.dq r)))
/-- DMSG (R206). -/
def execDmsg (c : Fin 256) (r1 r2 : BitVec 5) (ord : BitVec 1) (s : State) : Ans := keepQueue s <| .next (issue s c (cp3Body c (.dmsg r1 r2 ord)))

/-! ### Moving data (R207, R208, R60, R61) -/

/-- Is a byte of memory poisoned: its word has an uncorrectable error or a parity error. -/
def poisonedAt (s : State) (a : Nat) : Bool := sget 0 s.m.ecc (a / 8) == 2 || nin s.m.par (a / 4)

/-- The device physical address behind a cell-local range for the cell's DMA, through a window segment: its own memories need no owner
check. -/
def dmaAddr (win : Option (Bool × Nat)) (c a n : Nat) (w : Bool) : MM Nat := do
  let pa ← localPAw win c a w
  let s ← get
  match localOf a with
  | .imem _ | .scratch _ => pure pa
  | _ =>
    if !rangeOk s (cellOf s c).turnout.toNat pa n then throw .denied
    if targetInReset s pa then throw .reset
    pure pa

/-- Reads a piece: its bytes, and which of them are poisoned. -/
def dmaGet (v : Via) (owner pa n : Nat) : MM (List Byte × List Bool) := do
  let s ← get
  if portGone s owner pa then
    set (flrDropped s owner (portPieces s owner pa n false).length)
    throw .reset
  match areaOf pa with
  | .port _ _ =>
    let (l, bad) ← portGet v owner pa n
    return (l, if bad then List.replicate n true else [])
  | _ =>
    let (bad, s) := checkRange s pa n true
    set s
    return (memBytes s pa n, if bad then (List.range n).map (fun i => poisonedAt s (pa + i)) else [])

/-- Writes a piece: poisoned bytes carry their mark with them (R60). -/
def dmaPut (v : Via) (owner pa : Nat) (l : List Byte) (bad : List Bool) : MM Unit := do
  let s ← get
  if portGone s owner pa then set (flrDropped s owner (portPieces s owner pa l.length true).length)
  else match areaOf pa with
    | .port _ _ => set (portPut s v owner pa l (fun i => bad.getD i false))
    | _ =>
      let (ok, s) := putMem s pa l false
      set ((bad.zipIdx).foldl (fun s p => if ok && p.1 then poisonRange s (pa + p.2) 1 else s) s)
      if !ok then throw .poison

/-- Bytes up to the next 4 KiB boundary. -/
def toPage (a : Nat) : Nat := 4096 - a % 4096

/-- Which of a cell's descriptors in progress reaches memory. -/
def dmaVia (c k : Nat) : Via := ⟨regionOf c, .dma c k, false, none⟩

/-- Moves a piece from `a` (none: zeros) to `d`, through the window segments of its issue; answers whether poison was met. -/
def dmaPiece (c : Nat) (h : DmaHold) (a : Option Nat) (d n : Nat) : MM Bool := do
  let o := (cellOf (← get) c).turnout.toNat
  let v := dmaVia c h.k
  match a with
  | none =>
    let pd ← dmaAddr h.dst c d n true
    dmaPut v o pd (List.replicate n 0) []
    return false
  | some a =>
    let ps ← dmaAddr h.src c a n false
    let pd ← dmaAddr h.dst c d n true
    let (l, bad) ← dmaGet { v with ta := winTA h.src a } o ps n
    dmaPut v o pd l bad
    return bad.any id

/-- Moves a descriptor's bytes piece by piece (R207): fuel, whether the next piece is issued now, and where the descriptor stands. Answers how
it stopped short, if it did; a read that has to leave through a port changes nothing yet. -/
def dmaGo (c : Nat) (src : Option Nat) (dst n : Nat) : Nat → Bool → DmaHold → State → Option MErr × DmaHold × State
  | 0, _, h, s => (none, h, s)
  | f + 1, fresh, h, s =>
    if n ≤ h.moved then (none, h, s)
    else
      let a := src.map (· + h.moved)
      let d := dst + h.moved
      let m := min (n - h.moved) (min (toPage d) ((a.map toPage).getD 4096))
      let h := if fresh then { h with src := a.bind (winAt s c), dst := winAt s c d } else h
      match runMM s (dmaPiece c h a d m) with
      | (.ok p, s) => dmaGo c src dst n f true { h with moved := h.moved + m, bad := h.bad || p } s
      | (.error (.wait q), _) => (some (.wait q), h, s)
      | (.error e, s) => (some e, h, s)

/-- SRC of a descriptor. -/
def dSrc (b : List Byte) : Nat := le b 4 4
/-- DST of a descriptor. -/
def dDst (b : List Byte) : Nat := le b 8 4
/-- LEN of a descriptor. -/
def dLen (b : List Byte) : Nat := le b 12 4
/-- OP of a descriptor. -/
def dOp (b : List Byte) : Nat := lef b 0 1 3 0
/-- WAIT of a descriptor. -/
def dWait (b : List Byte) : Bool := bit (le b 2 1) 7

/-- INVALID_FIELD of R208. -/
def descBad (b : List Byte) : Bool :=
  dOp b > 1 || lef b 0 1 7 4 != 0 || lef b 1 1 6 5 != 0 || lef b 2 1 6 5 != 0 || !zeroAt b 20 12 ||
  dLen b < 4 || dLen b > 16777216 || dLen b % 4 != 0 || (dOp b == 0 && dSrc b % 4 != 0) || dDst b % 4 != 0

/-- ACCESS_DENIED of a user-issued descriptor (R208, R94, R119). -/
def descUserBad (x : Cell) (b : List Byte) : Bool :=
  decide (dDst b < 0x8000) || !mpuRange x.k (dDst b) (dLen b) .store ||
  (dOp b == 0 && !mpuRange x.k (dSrc b) (dLen b) .load)

/-- The SOURCE code of a cell's DMA (R228). -/
def srcDma : Nat := 1

/-- Replaces the phase of queue item `i`. -/
def setPhase (s : State) (c i : Nat) (ph : DmaPhase) : State :=
  modCell s c (fun x => { x with dma := { x.dma with q := x.dma.q.mapIdx (fun j it => match it with
    | .desc b a u p => if j = i then .desc b a u ph else .desc b a u p
    | m => m) } })

/-- Bytes of a descriptor's source, none for ZERO. -/
def dFrom (b : List Byte) : Option Nat := if dOp b = 0 then some (dSrc b) else none

/-- The place of a descriptor that waits. -/
def DmaPhase.hold : DmaPhase → Option DmaHold
  | .paging _ h | .reading _ h | .unanswered _ h => some h
  | _ => none

/-- The lowest of the four places of descriptors in progress that no waiting one has. -/
def dmaPlace (x : Cell) : Nat :=
  (findBelow (fun k => x.dma.q.all (fun it => match it with
    | .desc _ _ _ ph => (ph.hold.map DmaHold.k) != some k
    | _ => true)) 4).getD 0

/-- Runs descriptor `i` from where it stands: its end, or its wait on a page request or on a read that left through a port; after a served
request a second miss of that page is a refusal (R229). -/
def dmaRun (s : State) (c i : Nat) (again : Option Nat) : State :=
  let x := cellOf s c
  match x.dma.q[i]? with
  | some (.desc b _ user ph) =>
    let fin (s : State) (k st : Nat) : State := setPhase (dropAsks s (fun w => decide (w = .dma c k))) c i (.ended st)
    if descBad b then setPhase s c i (.ended stField)
    else if user && descUserBad x b then setPhase s c i (.ended stDenied)
    else
      let h := ph.hold.getD ⟨dmaPlace x, 0, false, none, none⟩
      match dmaGo c (dFrom b) (dDst b) (dLen b) (dLen b / 2048 + 4) ph.hold.isNone h s with
      | (none, h, s) => fin s h.k (if h.bad then stFault else stOk)
      | (some (.page t p w), h, s) =>
        if again = some (pageKey p w) then fin s h.k stDenied
        else raisePage (setPhase s c i (.paging (pageKey p w) h)) (.dma c h.k) srcDma t p w
      | (some (.wait q), h', s) =>
        let dl := match ph with
          | .reading dl h => if h.moved = h'.moved then dl else s.clk + 100000
          | _ => s.clk + 100000
        askPort (setPhase s c i (.reading dl h')) q
      | (some .denied, h, s) => fin s h.k stDenied
      | (some .pageLate, h, s) => fin s h.k stPage
      | (some .poison, h, s) => fin s h.k stFault
      | (some .reset, h, s) => fin s h.k stAborted
  | _ => s

/-- Index of the first item that has not started. -/
def firstQueued (q : List DmaItem) : Option Nat :=
  q.findIdx? (fun i => match i with
    | .desc _ _ _ .queued => true
    | .msg _ _ _ => true
    | _ => false)

/-- Does a descriptor move data within its own cell alone, so that no response is awaited. -/
def dmaLocal (b : List Byte) : Bool :=
  let own (a : Nat) : Bool := match localOf a with
    | .imem _ | .scratch _ => true
    | _ => false
  own (dDst b) && (dOp b == 1 || own (dSrc b))

/-- A descriptor of which a response does not come after `n` bytes: what was moved before stands, and its 100 µs run (R208). -/
def dmaCut (s : State) (c i n : Nat) : State :=
  let t := dmaRun s c i none
  match (cellOf s c).dma.q[i]?, (cellOf t c).dma.q[i]? with
  | some (.desc b _ _ _), some (.desc _ _ _ (.ended st)) =>
    if st ≠ stOk then t
    else
      let k := min (n / 4 * 4) (dLen b - 4)
      let (_, h, s) := dmaGo c (dFrom b) (dDst b) k (k / 2048 + 4) true ⟨dmaPlace (cellOf s c), 0, false, none, none⟩ s
      setPhase s c i (.unanswered (s.clk + 100000)
        { h with src := (dFrom b).bind (fun a => winAt s c (a + h.moved)), dst := winAt s c (dDst b + h.moved) })
  | _, _ => t

/-- Starts the first descriptor of the queue whose OP the row serves (R207): at most four are in progress, and one with
WAIT holds the queue until its wait is satisfied. Deposits of messages go before it (R201). `lost`: a response does not come after so many
bytes. -/
def dmaStart (s : State) (c : Nat) (lost : Option (BitVec 25)) (serves : Nat → Bool) : State :=
  let x := cellOf s c
  if cellInReset s c then s
  else match firstQueued x.dma.q with
    | none => s
    | some i =>
      match x.dma.q[i]? with
      | some (.desc b _ _ _) =>
        if !serves (dOp b) || decide (4 ≤ i) || x.dma.wait.isSome || depositReady s c then s
        else
          let w := newWait s x (BitVec.ofNat 5 (lef b 2 1 4 0)) (BitVec.ofNat 32 (le b 16 4))
          if dWait b && !waitDone x w then setCell s c { x with dma := { x.dma with wait := some w } }
          else match lost with
            | some n => if dmaLocal b then dmaRun s c i none else dmaCut s c i n.toNat
            | none => dmaRun s c i none
      | _ => s

/-- A COPY starts, or a descriptor of an undefined OP, which ends with INVALID_FIELD (R207, R208). -/
def execDmaCopy (d : DmaGo) (s : State) : Ans := keepQueue s <| .next (dmaStart s d.c d.lost (fun o => o != 1))
/-- A ZERO starts (R207). -/
def execDmaZero (d : DmaGo) (s : State) : Ans := keepQueue s <| .next (dmaStart s d.c d.lost (fun o => o == 1))

/-- The status of a descriptor that has ended: one that waited for a response past its 100 µs has TIMEOUT (R208, R12). -/
def dmaEnded (s : State) : DmaPhase → Option Nat
  | .ended st => some st
  | .reading dl _ | .unanswered dl _ => if overdue s dl then some stTimeout else none
  | _ => none

/-- The oldest descriptor has ended: STATUS is written to byte 3 of its scratch address and DONE signalled, in queue order
(R207). -/
def execDmaDescriptorComplete (c : Fin 256) (s : State) : Ans := keepQueue s <|
  let x := cellOf s c
  match x.dma.q with
  | .desc b a _ ph :: r =>
    match dmaEnded s ph with
    | none => .next s
    | some st =>
      if cellInReset s c then .next s
      else
        let pa := scrPA c (a.toNat + 3)
        let s := (putMem s pa (natLE 1 st) false).2
        let s := match ph.hold with
          | some h => dropAsks s (fun w => decide (w = .dma c.val h.k))
          | none => s
        let s := modCell s c (fun x =>
          let x := { x with dma := { x.dma with q := r } }
          if bit (le b 1 1) 7 then incSluice x (lef b 1 1 4 0) 1 else x)
        .next (parkCheck s c)
  | _ => .next s

/-- A DMSG at the head of the queue enters the flume when its router's local input, which the block's cells and merge unit share, has
a credit for it; the requesters whose turn comes before have theirs first (R63, R74, R207). -/
def execDmsgSend (c : Fin 256) (s : State) : Ans := keepQueue s <|
  let x := cellOf s c
  match firstQueued x.dma.q with
  | none => .next s
  | some i =>
    match x.dma.q[i]? with
    | some (.msg data dest ord) =>
      let r := routerOf (blockOf c)
      if cellInReset s c || (ord && i != 0) || depositReady s c then .next s
      else
        let t := grantsBefore s r (c.val % 4)
        if !credit t (credKey r 0 0 0) 1 then .next t
        else
          let t := modCell t c (fun x => { x with dma := { x.dma with q := x.dma.q.eraseIdx i } })
          let p : Packet := ⟨dest, endpointOf c, 0, 0, x.turnout.toNat, 0, 0, 64, data, 0, 0, 0⟩
          .next (parkCheck (turnAfter (standAt (send t p) p 1) r (c.val % 4)) c)
    | _ => .next s

/-- A page request of a descriptor of a cell's DMA ends (R229). -/
def dmaPaged (s : State) (c k : Nat) (out : Option Bool) : State :=
  (cellOf s c).dma.q.zipIdx.foldl (fun s it => match it.1 with
    | .desc _ _ _ (.paging key h) =>
      if h.k ≠ k then s
      else match out with
        | some true => dmaRun s c it.2 (some key)
        | some false => setPhase s c it.2 (.ended stDenied)
        | none => setPhase s c it.2 (.ended stPage)
    | _ => s) s

/-- The completions of a descriptor's read are in (R253): it goes on. -/
def dmaRead (s : State) (c k : Nat) : State :=
  (cellOf s c).dma.q.zipIdx.foldl (fun s it => match it.1 with
    | .desc _ _ _ (.reading dl h) => if h.k = k ∧ inTime s dl = true then dmaRun s c it.2 none else s
    | _ => s) s

end Sys2Proof.Machine
end

