-- ==== Sys2Proof/Machine/FurrowOps.lean ====
section
/-! DEFINITION. Machine/FurrowOps.lean: furrow contexts, their rings, completions and entries, as every class uses them
(R232–R238, R468, R190).
Choices beyond the words of the spec: log entries DESIGN CHOICE 49, 99. -/

namespace Sys2Proof.Machine

/-- A furrow. -/
def furOf (s : State) (f : Nat) : Option Furrow := sget none s.fur f

/-- Replaces a furrow. -/
def setFur (s : State) (f : Nat) (x : Option Furrow) : State := { s with fur := sput none s.fur f x }

/-- Updates a furrow in use. -/
def modFur (s : State) (f : Nat) (g : Furrow → Furrow) : State :=
  match furOf s f with
  | some x => setFur s f (some (g x))
  | none => s

/-- Entries of a ring. -/
def Furrow.depth (x : Furrow) : Nat := 2 ^ x.log2

/-- The function that signals for an owner (R249). -/
def ownerFn (owner : Nat) : Nat := if owner < 512 then owner else fnPF0

/-- The furrow of an owner that uses a slot. -/
def furAtSlot (s : State) (owner slot : Nat) : Option Nat :=
  (s.fur.find? (fun p => match p.2 with
    | some x => x.owner == owner && x.slot == slot
    | none => false)).map Prod.fst

/-- A ring fault (R468): the furrow freezes, RING_FAULT sets, and completions that waited on a page are held. -/
def ringFault (s : State) (f : Nat) : State :=
  modFur s f (fun x => { x with fault := true, enabled := false, paging := 0, held := x.held ++ x.waitq, waitq := [] })

/-- The SOURCE code of furrow fetches and completions (R228). -/
def srcRing : Nat := 2

/-- A ring access meets a page miss: it waits, or is refused the second time at that page (R229). -/
def ringMiss (s : State) (f : Nat) (x : Furrow) (t p : Nat) (w : Bool) : State :=
  if x.paging = 2 + pageKey p w then ringFault s f
  else raisePage (modFur s f (fun x => { x with paging := 1 })) (.ring f) srcRing t p w

/-- Outcome of writing a completion. -/
inductive Posted
  | ok | wait | fault
deriving DecidableEq, Repr

/-- The 16 bytes of a completion posted as number `cqt` of a ring (R235). -/
def cplBytes (c : Cpl) (cqt depth : Nat) : List Byte :=
  natLE 4 c.cid ++ natLE 4 c.result ++ natLE 4 c.head ++ natLE 1 c.status ++ [0] ++
    natLE 2 (if cqt / depth % 2 = 0 then 0x8000 else 0)

/-- Writes 16 bytes at the next completion slot; on success CQT advances and the vector is signalled (R235, R468). -/
def ringPost (s : State) (f : Nat) (bytes : Nat → Nat → List Byte) (irq : Bool) : State × Posted :=
  match furOf s f with
  | none => (s, .fault)
  | some x =>
    let n := x.cqt.toNat
    match runMM s (writeSp (ioFor (.ring f)) x.owner (x.cq + 16 * (n % x.depth)) (bytes n x.depth)) with
    | (.ok _, s) =>
      let s := modFur s f (fun x => { x with cqt := x.cqt + 1, paging := 0 })
      (if irq then msix s (ownerFn x.owner) x.vec else s, .ok)
    | (.error (.page t p w), s) => (ringMiss s f x t p w, if x.paging = 2 + pageKey p w then .fault else .wait)
    | (.error _, s) => (ringFault s f, .fault)

/-- Posts a completion (R235): one that meets a page miss waits for the page, behind those that wait already; one that faults is held
until the next ENABLE (R237, R468). -/
def postCpl (s : State) (f : Nat) (c : Cpl) : State :=
  if (furOf s f).any (fun x => !x.waitq.isEmpty) then modFur s f (fun x => { x with waitq := x.waitq ++ [c] })
  else match ringPost s f (cplBytes c) c.irq with
    | (s, .ok) => s
    | (s, .wait) => modFur s f (fun x => { x with waitq := x.waitq ++ [c] })
    | (s, .fault) => modFur s f (fun x => { x with held := x.held ++ [c] })

/-- Mimin entries that hold a slot, of all turnouts or of one (R172): those in flight, and those whose completion is held back. -/
def mimSlots (s : State) (t : Option Nat) : Nat :=
  let mine (x : Furrow) : Bool := x.cls == 0 && (match t with
    | some t => x.owner == t
    | none => true)
  (s.infl.filter (fun e => match furOf s e.f with
    | some x => mine x
    | none => false)).length +
  s.fur.foldl (fun n p => match p.2 with
    | some x => if mine x then n + x.held.length + x.waitq.length else n
    | none => n) 0

/-- Sets MIM_INFLIGHT, and MIM_PEAK with it (R172). -/
def mimCount (s : State) : State :=
  let n := mimSlots s none
  peakF (wr s f_MIM_INFLIGHT_CALLS n) f_MIM_PEAK_PEAK n

/-- Sets CQS_RLOCK from the locks held (R343). -/
def lockCount (s : State) : State :=
  let s := wr s f_CQS_RLOCK_INUSE s.sto.locks.length
  peakF s f_CQS_RLOCK_PEAK s.sto.locks.length

/-- Is a lock's entry in flight, or its completion not posted yet (R343). -/
def lockHeld (s : State) (l : RLock) : Bool :=
  s.infl.any (fun e => e.seq == l.seq) || s.fur.any (fun p => match p.2 with
    | some x => (x.held ++ x.waitq).any (fun c => c.seq == l.seq)
    | none => false)

/-- Frees the range locks whose completions have been posted or discarded (R343). -/
def lockSweep (s : State) : State :=
  if s.sto.locks.all (lockHeld s) then s
  else lockCount { s with sto := { s.sto with locks := s.sto.locks.filter (lockHeld s) } }

/-- What completions that leave their furrow's queues free: Mimin's slots and range locks (R172, R343). -/
def cplFreed (s : State) : State := lockSweep (mimCount s)

/-- Writes the completions that wait, in order, until one waits or faults (R468); fuel is their number. -/
def flushGo (f : Nat) : Nat → State → State
  | 0, s => s
  | n + 1, s =>
    match furOf s f with
    | some x =>
      match x.waitq with
      | [] => s
      | c :: r =>
        match ringPost s f (cplBytes c) c.irq with
        | (s, .ok) => flushGo f n (modFur s f (fun x => { x with waitq := r }))
        | (s, _) => s
    | none => s

/-- Writes the completions of a furrow that wait on a page; a Mimin call frees its slot, and a storage command its range lock, as its
completion is posted (R172, R229, R343). -/
def flushWait (s : State) (f : Nat) : State :=
  match furOf s f with
  | some x => if x.waitq.isEmpty then s else cplFreed (flushGo f x.waitq.length s)
  | none => s

/-- ENABLE of a furrow that is FROZEN: the held completions are written in order before any new fetch (R237, R468). -/
def flushHeld (s : State) (f : Nat) : State :=
  flushWait (modFur s f (fun x => { x with enabled := true, paging := 0, waitq := x.held ++ x.waitq, held := [] })) f

/-- An entry in flight. -/
def entryOf (s : State) (f i : Nat) : Option Entry := s.infl.find? (fun e => e.f == f && e.i == i)

/-- Updates an entry in flight. -/
def modEntry (s : State) (f i : Nat) (g : Entry → Entry) : State :=
  { s with infl := s.infl.map (fun e => if e.f == f && e.i == i then g e else e) }

/-- Removes an entry. -/
def dropEntry (s : State) (f i : Nat) : State :=
  dropAsks { s with infl := s.infl.filter (fun e => !(e.f == f && e.i == i)) } (fun w => decide (w = .entry f i))

/-- The class of a furrow; Fh for an unused ID. -/
def furClass (s : State) (f : Nat) : Nat := ((furOf s f).map Furrow.cls).getD 0xF

/-- Class codes (R232). -/
def clMimin : Nat := 0
/-- STORAGE. -/
def clStorage : Nat := 1

/-- Ends an entry with a status and a result word; a STORAGE furrow freezes in the cycle in which a status other than SUCCESS is
decided (R344). -/
def endEntry (s : State) (f i status result : Nat) : State :=
  let s := modEntry s f i (fun e => { e with ph := .ended status result })
  if furClass s f = clStorage ∧ status ≠ stOk then modFur s f (fun x => { x with enabled := false }) else s

/-- Has an entry ended. -/
def Entry.ended (e : Entry) : Bool :=
  match e.ph with
  | .ended _ _ => true
  | _ => false

/-- OPCODE of an entry. -/
def Entry.op (e : Entry) : Nat := le e.b 0 1
/-- CID of an entry. -/
def Entry.cid (e : Entry) : Nat := le e.b 4 4
/-- IRQ of an entry. -/
def Entry.irq (e : Entry) : Bool := bit (le e.b 1 1) 7

/-- Has an entry a non-zero reserved header field (R235, R236). -/
def headerBad (b : List Byte) : Bool := lef b 1 1 5 0 != 0 || le b 2 2 != 0 || le b 8 8 != 0

/-- The owner of a furrow; 200h for an unused ID. -/
def furOwner (s : State) (f : Nat) : Nat := ((furOf s f).map Furrow.owner).getD 0x200

/-- Class codes (R232): PKT_TX. -/
def clTx : Nat := 2
/-- PKT_RX. -/
def clRx : Nat := 3
/-- LATERAL. -/
def clLateral : Nat := 4
/-- CIPHER. -/
def clCipher : Nat := 5
/-- SIPHON. -/
def clSiphon : Nat := 6
/-- EXCEPTION. -/
def clExc : Nat := 7
/-- PRQ. -/
def clPrq : Nat := 8

/-- The status of an entry whose data access failed (R229, R192, R220): a lost response is a device fault. -/
def merrStatus : MErr → Nat
  | .denied => stDenied
  | .page _ _ _ => stDenied
  | .pageLate => stPage
  | .poison => stFault
  | .reset => stFault
  | .wait _ => stFault

/-- The conditions of a fetch on the furrow's own counts and state (R235, R468). -/
def ringReady (x : Furrow) : Bool :=
  x.pi != x.head && (x.cls == clPrq || decide ((x.head - x.cqh).toNat < x.depth)) && x.enabled && x.paging != 1 && x.held.isEmpty &&
    x.waitq.isEmpty

/-- How an entry's data are reached: by the I/O die, for the entry, with relaxed ordering where its RO bit is 1 (R254). -/
def ioOf (e : Entry) : Via := ⟨ioWalker, .entry e.f e.i, bit (le e.b 1 1) 6, none⟩

/-- A fault event of an engine that meets poisoned data (R363, R373): of R421's codes only 02h fits; its detail is free (DESIGN CHOICE,
log entry 49). -/
def poisonEvent (s : State) (src : Nat) : State :=
  let (w, s) := freshBelow s (2 ^ 24)
  event s src 1 0x02 w

/-- Runs the data accesses of an entry. A read that has to leave through a port is sent, and the entry goes on when its completion has come
(R252); a page miss makes it wait, and a second one of that page is a refusal (R229); any other failure ends it with a status. `source` is its SOURCE code; `k` goes on with what was read. -/
def withData {α : Type} (s : State) (e : Entry) (source : Nat) (x : MM α) (k : α → State → State) : State :=
  match runMM s x with
  | (.ok a, s) => k a s
  | (.error (.wait q), _) => askPort s q
  | (.error (.page t p w), s) =>
    if e.again = some (pageKey p w) then endEntry s e.f e.i stDenied noResult
    else raisePage (modEntry s e.f e.i (fun e => { e with ph := .paging })) (.entry e.f e.i) source t p w
  | (.error err, s) => endEntry s e.f e.i (merrStatus err) noResult

/-- Bytes at a TA that the spec leaves undefined take free values, in device memory (R332, R340). -/
def undefBytes (s : State) (e : Entry) (a n : Nat) : State :=
  (pagePieces (n / 4096 + 2) a n).foldl (fun s q =>
    match runMM s (writeTargets (ioOf e) (furOwner s e.f) [q]) with
    | (.ok [(a, n)], s') => (match areaOf a with
      | .port _ _ => s
      | _ =>
        let (d, s) := freshBytes s' n
        (runMM s (physWrite (ioOf e) (furOwner s e.f) a d false)).2)
    | _ => s) s

/-- Runs a row's meaning on entry `i` of furrow `f`, when it is fetched, of the class and of the opcode. -/
def runEntry (s : State) (f i cls op : Nat) (k : Entry → State) : State :=
  match entryOf s f i with
  | some e => if e.ph = .fetched ∧ furClass s f = cls ∧ e.op = op then k e else s
  | none => s

/-- The downstream link (first halves 0–7, second halves 8–15) behind an address of an owner's space, if any (R190). -/
def linkOf (s : State) (owner a : Nat) : Option Nat :=
  match (runMM s (ownerAddr ioWalker owner a false)).1 with
  | .ok p => match areaOf p with
    | .port p _ => if 2 ≤ p ∧ p < 0x12 then some (p - 2) else none
    | _ => none
  | .error _ => none

/-- The upstream port behind an address of an owner's space, if any. -/
def upOfAddr (s : State) (owner a : Nat) : Option Nat :=
  match (runMM s (ownerAddr ioWalker owner a false)).1 with
  | .ok p => match areaOf p with
    | .port p _ => if p < 2 then some p else none
    | _ => none
  | .error _ => none

/-- STATE of a turnout. -/
def turnState (s : State) (t : Nat) : Nat := rd s (f_TRN_STATE_STATE t)

/-- Is a turnout ACTIVE. -/
def turnActive (s : State) (t : Nat) : Bool := turnState s t == 2

/-- The quotas of a turnout. -/
def quotaOf (s : State) (t : Nat) : Quota := sget Quota.none s.trn.q t

/-- Furrows of an owner. -/
def furCount (s : State) (owner : Nat) : Nat :=
  (s.fur.filter (fun p => match p.2 with
    | some x => x.owner == owner
    | none => false)).length

/-- Freezes every furrow that satisfies a predicate. -/
def freezeFurs (s : State) (p : Nat → Furrow → Bool) : State :=
  { s with fur := s.fur.map (fun q => match q.2 with
    | some x => if p q.1 x then (q.1, some { x with enabled := false }) else q
    | none => q) }

end Sys2Proof.Machine
end

