-- ==== Sys2Proof/Machine/Cipher.lean ====
section
/-! DEFINITION. Machine/Cipher.lean: CIPHER requests, key slots, hold buffers and the tag verdict (R355–R363).
Choices beyond the words of the spec: log entries DEDUCED 49. -/

namespace Sys2Proof.Machine

/-! ### Key slots (R360, R361) -/

/-- A key slot. -/
def keySlotOf (s : State) (n : Nat) : KeySlot := sget KeySlot.reset s.cip.slots n

/-- Replaces a key slot. -/
def setKeySlot (s : State) (n : Nat) (k : KeySlot) : State := { s with cip := { s.cip with slots := sput KeySlot.reset s.cip.slots n k } }

/-- Key bytes of a type. -/
def keyLen (ty : Nat) : Nat :=
  match ty with
  | 1 => 16 | 2 => 32 | 3 => 64 | _ => 0

/-- The firmware writes a slot: its generation increments (R360). -/
def writeSlot (s : State) (n ty owner : Nat) (key : List Byte) : State :=
  setKeySlot s n ⟨ty, key.take (keyLen ty), owner, ((keySlotOf s n).gen + 1) % 65536⟩

/-- The firmware releases a slot: invalid, zero key, owner 200h (R361). -/
def releaseSlot (s : State) (n : Nat) : State := setKeySlot s n ⟨0, [], 0x200, (keySlotOf s n).gen⟩

/-- Slots that an owner holds. -/
def slotsOf (s : State) (owner : Nat) : List Nat :=
  (s.cip.slots.filter (fun p => p.2.ty != 0 && p.2.owner == owner)).map Prod.fst

/-! ### Entries (R356–R359) -/

/-- KEYSLOT. -/
def cSlot (b : List Byte) : Nat := lef b 16 2 12 0
/-- AADLEN. -/
def cAad (b : List Byte) : Nat := lef b 18 2 12 0
/-- LEN. -/
def cLen (b : List Byte) : Nat := lef b 20 4 16 0
/-- SRC. -/
def cSrc (b : List Byte) : Nat := le b 40 8
/-- DST. -/
def cDst (b : List Byte) : Nat := le b 48 8
/-- AUX. -/
def cAux (b : List Byte) : Nat := le b 56 8
/-- FIRST. -/
def cFirst (b : List Byte) : Bool := bit (le b 24 1) 0
/-- LAST. -/
def cLast (b : List Byte) : Bool := bit (le b 24 1) 1

/-- Is an opcode GCM, XTS, SHA. -/
def isGcm (op : Nat) : Bool := op == 1 || op == 2
/-- XTS. -/
def isXts (op : Nat) : Bool := op == 3 || op == 4
/-- SHA. -/
def isSha (op : Nat) : Bool := op == 5 || op == 6

/-- A reserved field that is not zero (R10, R356). -/
def cipReserved (b : List Byte) : Bool :=
  let op := le b 0 1
  headerBad b || lef b 16 2 15 13 != 0 || lef b 18 2 15 13 != 0 || lef b 20 4 31 17 != 0 ||
  (isGcm op && !zeroAt b 36 4) ||
  (isXts op && (!zeroAt b 18 2 || !zeroAt b 56 8)) ||
  (isSha op && (!zeroAt b 16 2 || !zeroAt b 18 2 || lef b 24 1 7 2 != 0 || !zeroAt b 25 15))

/-- Bytes of output at DST. -/
def cOut (b : List Byte) : Nat :=
  match le b 0 1 with
  | 5 => if cLast b then 32 else 0
  | 6 => if cLast b then 48 else 0
  | _ => cLen b

/-- Block size of a hash in bytes. -/
def shaBlk (op : Nat) : Nat := if op = 5 then 64 else 128

/-- Lengths and alignment (R356, R357). -/
def cipLengthBad (b : List Byte) : Bool :=
  let op := le b 0 1
  cLen b > 65536 || (isGcm op && cAad b > 4096) || (isXts op && cLen b < 16) ||
  (isSha op && !cLast b && cLen b % shaBlk op != 0) ||
  cSrc b % 16 != 0 || cDst b % 16 != 0 || cAux b % 16 != 0

/-- Do two ranges of bytes, each an address and a length, overlap. -/
def rangesMeet (a b : Nat × Nat) : Bool :=
  decide (0 < a.2) && decide (0 < b.2) && decide (a.1 < b.1 + b.2) && decide (b.1 < a.1 + a.2)

/-- An overlap of output and input other than in place (R356): DST, and a tag or a state record that is written, against the source, an
expected tag and a state record that is read. -/
def cipOverlap (b : List Byte) : Bool :=
  let op := le b 0 1
  let k := if isGcm op then cAad b else 0
  let src := (cSrc b, k + cLen b)
  let dst := (cDst b, cOut b)
  let aux := (cAux b, if isSha op then 80 else if isGcm op then 16 else 0)
  (cDst b != cSrc b + k && rangesMeet dst src) ||
  ((op == 1 || (isSha op && !cLast b)) && rangesMeet aux src) ||
  ((op == 2 || (isSha op && !cFirst b)) && rangesMeet dst aux)

/-- Does a slot's type fit an opcode (R355). -/
def slotFits (op ty : Nat) : Bool := if isGcm op then ty == 1 || ty == 2 else if isXts op then ty == 3 else true

/-- The status that the checks at fetch give, in R358's order; SUCCESS where all hold. -/
def cipValidate (s : State) (owner : Nat) (b : List Byte) : Nat :=
  let op := le b 0 1
  if cipReserved b then stField
  else if op = 0 ∨ op > 6 then stOpcode
  else if cipLengthBad b || cipOverlap b then stField
  else if isSha op then stOk
  else
    let k := keySlotOf s (cSlot b)
    if k.ty = 0 ∨ slotFits op k.ty = false then stField
    else if owner ≠ 0x201 ∧ k.owner ≠ owner then stDenied
    else stOk

/-- Can a CIPHER entry be fetched: a GCM_DEC needs a free hold buffer (R362). -/
def cipAdmits (s : State) (b : List Byte) : Bool := le b 0 1 != 2 || decide (rd s f_CIP_HOLD_INUSE < 256)

/-- Writes free values over a range of an owner's space, where it can be written: an output that the spec leaves undefined. -/
def scatter (s : State) (v : Via) (owner a n : Nat) : State :=
  let (l, s) := freshBytes s n
  (pagePieces (n / 4096 + 2) a n).foldl (fun s p =>
    (runMM s (writeSp v owner p.1 ((l.drop (p.1 - a)).take p.2))).2) s

/-- What a request that ended early may leave: DST and AUX undefined, but a GCM_DEC leaves DST untouched (R363). -/
def cipUndefined (s : State) (e : Entry) : State :=
  let o := furOwner s e.f
  let v := ioOf e
  match e.op with
  | 1 => scatter (scatter s v o (cDst e.b) (cLen e.b)) v o (cAux e.b) 16
  | 3 | 4 => scatter s v o (cDst e.b) (cLen e.b)
  | 5 | 6 => scatter (scatter s v o (cDst e.b) (cOut e.b)) v o (cAux e.b) 80
  | _ => s

/-- What the fetch of a CIPHER entry does beyond the furrow's own: its key is bound, a GCM_DEC takes a hold buffer; a request
that fails a check ends. The entry keeps [holds a buffer, staged, started] in `snap` and the key in `data` (R359, R362). -/
def cipFetched (s : State) (e : Entry) : State :=
  let st := cipValidate s (furOwner s e.f) e.b
  if st ≠ stOk then
    let s := if e.op ≠ 2 ∧ !cipReserved e.b ∧ cipOverlap e.b then cipUndefined s e else s
    endEntry s e.f e.i st 0
  else
    let s := modEntry s e.f e.i (fun x => { x with
      snap := [b2n (e.op == 2), 0, 0]
      data := (keySlotOf s (cSlot e.b)).key })
    if e.op = 2 then
      let s := incF s f_CIP_HOLD_INUSE 1
      peakF s f_CIP_HOLD_PEAK (rd s f_CIP_HOLD_INUSE)
    else s

/-- Ends a request: its hold buffer is zeroed and freed. -/
def cipEnd (s : State) (e : Entry) (st res : Nat) : State :=
  let held := (entryOf s e.f e.i).any (fun x => x.snap.headD 0 == 1)
  let s := if held then wr s f_CIP_HOLD_INUSE (rd s f_CIP_HOLD_INUSE - 1) else s
  modEntry (endEntry s e.f e.i st res) e.f e.i (fun x => { x with snap := [0, 0, 1], data := [] })

/-- Ends a request before its result (R363): FLR, turnout reset and destruction with ABORTED, the drain deadline with FROZEN. -/
def cipAbort (s : State) (e : Entry) (st : Nat) : State := cipEnd (cipUndefined s e) e st noResult

/-- Counts a completed request (CIP_REQ, CIP_FAULT). -/
def cipCounted (s : State) (st : Nat) : State :=
  let s := incF s f_CIP_REQ_V 1
  if st = stFault then incF s f_CIP_FAULT_V 1 else s

/-- SOURCE code of cipher data (R228). -/
def srcCipher : Nat := 8

/-- Runs a request's accesses; a failure other than a page wait ends it (R363). -/
def cipData {α : Type} (s : State) (e : Entry) (x : MM α) (k : α → State → State) : State :=
  match runMM s x with
  | (.ok a, s) => k a s
  | (.error (.wait q), _) => askPort s q
  | (.error (.page t p w), s) =>
    if e.again = some (pageKey p w) then cipAbort s e stDenied
    else raisePage (modEntry s e.f e.i (fun e => { e with ph := .paging })) (.entry e.f e.i) srcCipher t p w
  | (.error .poison, s) => cipAbort (poisonEvent s 0x196) e stFault
  | (.error err, s) => cipAbort s e (merrStatus err)

/-- The targets of a write are translated before anything is read, so that a page wait leaves memory as it was. -/
def ready (v : Via) (owner a n : Nat) : MM Unit := do
  let _ ← writeTargets v owner (pagePieces (n / 4096 + 2) a n)

/-! ### Requests (R355–R357) -/

/-- Runs a request's row: entries of one furrow start in fetch order (R358). -/
def cipRun (f : Fin 262144) (i : Fin 65536) (op : Nat) (s : State) (k : State → Entry → State) : Ans :=
  .next (runEntry s f i clCipher op (fun e =>
    if s.infl.any (fun x => x.f == e.f && decide (x.seq < e.seq) && decide (x.ph = .fetched) && x.snap.getD 2 0 == 0) then s
    else
      let g (e : Entry) : Entry := { e with snap := e.snap.set 2 1 }
      k (modEntry s e.f e.i g) (g e)))

/-- GCM_ENC (R355, R356). -/
def execGcmEnc (f : Fin 262144) (i : Fin 65536) (s : State) : Ans := keepQueue s <|
  cipRun f i 1 s fun s e =>
    let o := furOwner s f
    let iv := (e.b.drop 24).take 12
    cipData s e (do
      ready (ioOf e) o (cDst e.b) (cLen e.b)
      ready (ioOf e) o (cAux e.b) 16
      let d ← readSp (ioOf e) o (cSrc e.b) (cAad e.b + cLen e.b)
      let ct := gcmCrypt e.data iv (d.drop (cAad e.b))
      writeSp (ioOf e) o (cDst e.b) ct
      writeSp (ioOf e) o (cAux e.b) (gcmTag e.data iv (d.take (cAad e.b)) ct)) fun _ s => cipEnd s e stOk (cLen e.b)

/-- GCM_DEC (R362): the plaintext goes into the hold buffer, with the computed tag and the expected one behind it. -/
def execGcmDec (f : Fin 262144) (i : Fin 65536) (s : State) : Ans := keepQueue s <|
  cipRun f i 2 s fun s e =>
    if e.snap.getD 1 0 = 1 then s
    else
      let o := furOwner s f
      let iv := (e.b.drop 24).take 12
      cipData s e (do
        ready (ioOf e) o (cDst e.b) (cLen e.b)
        let d ← readSp (ioOf e) o (cSrc e.b) (cAad e.b + cLen e.b)
        let t ← readSp (ioOf e) o (cAux e.b) 16
        return (gcmCrypt e.data iv (d.drop (cAad e.b)) ++ gcmTag e.data iv (d.take (cAad e.b)) (d.drop (cAad e.b)), t)) fun r s =>
          modEntry s f i (fun x => { x with
            snap := [1, 1, 1]
            data := r.1 ++ r.2
            ph := .running })

/-- The tag verdict (R362). -/
def execTagVerdict (f : Fin 262144) (i : Fin 65536) (s : State) : Ans := keepQueue s <|
  match entryOf s f i with
  | some e =>
    if furClass s f = clCipher ∧ e.op = 2 ∧ e.snap = [1, 1, 1] ∧ (e.ph = .running ∨ e.ph = .fetched) then
      let n := cLen e.b
      if (e.data.drop n).take 16 = e.data.drop (n + 16) then
        .next (cipData s e (writeSp (ioOf e) (furOwner s f) (cDst e.b) (e.data.take n)) fun _ s => cipEnd s e stOk n)
      else .next (cipEnd (incF s f_CIP_AUTHFAIL_V 1) e stAuth 0)
    else .next s
  | none => .next s

/-- An XTS request (R355, R356). -/
def xtsRun (s : State) (e : Entry) (enc : Bool) : State :=
  let o := furOwner s e.f
  cipData s e (do
    ready (ioOf e) o (cDst e.b) (cLen e.b)
    let d ← readSp (ioOf e) o (cSrc e.b) (cLen e.b)
    writeSp (ioOf e) o (cDst e.b) (xtsUnit enc (e.data.take 32) (e.data.drop 32) ((e.b.drop 24).take 16) d)) fun _ s =>
      cipEnd s e stOk (cLen e.b)

/-- XTS_ENC (R355). -/
def execXtsEnc (f : Fin 262144) (i : Fin 65536) (s : State) : Ans := keepQueue s <| cipRun f i 3 s fun s e => xtsRun s e true
/-- XTS_DEC (R355). -/
def execXtsDec (f : Fin 262144) (i : Fin 65536) (s : State) : Ans := keepQueue s <| cipRun f i 4 s fun s e => xtsRun s e false

/-- Bits hashed so far, of a state record. -/
def recBits (r : List Byte) : Nat := leNat ((r.drop 64).take 16)

/-- What a SHA request makes of the record and the data: none where the record breaks R357; else the record or the digest. -/
def shaStep (op : Nat) (first last : Bool) (r d : List Byte) : Option (List Byte) :=
  let n := if first then 0 else recBits r
  let total := n + 8 * d.length
  if op = 5 then
    if (!first && (n % 512 != 0 || !zeroAt r 32 32)) || total ≥ 2 ^ 64 then none
    else
      let h := if first then sha256H.map (BitVec.ofNat 32) else (chunks 4 8 (r.take 32)).map (fun w => BitVec.ofNat 32 (leNat w))
      let h := sha256Absorb h (if last then d ++ shaPad 64 8 (total / 8) else d)
      some (if last then h.flatMap (fun w => natBE 4 w.toNat)
        else h.flatMap (fun w => natLE 4 w.toNat) ++ List.replicate 32 0 ++ natLE 16 total)
  else
    if (!first && n % 1024 != 0) || total ≥ 2 ^ 128 then none
    else
      let h := if first then sha384H.map (BitVec.ofNat 64) else (chunks 8 8 (r.take 64)).map (fun w => BitVec.ofNat 64 (leNat w))
      let h := sha384Absorb h (if last then d ++ shaPad 128 16 (total / 8) else d)
      some (if last then (h.take 6).flatMap (fun w => natBE 8 w.toNat)
        else h.flatMap (fun w => natLE 8 w.toNat) ++ natLE 16 total)

/-- A SHA request (R357). -/
def shaRun (s : State) (e : Entry) : State :=
  let o := furOwner s e.f
  let last := cLast e.b
  cipData s e (do
    ready (ioOf e) o (cAux e.b) 80
    ready (ioOf e) o (cDst e.b) (cOut e.b)
    let r ← if cFirst e.b then pure [] else readSp (ioOf e) o (cAux e.b) 80
    let d ← readSp (ioOf e) o (cSrc e.b) (cLen e.b)
    match shaStep e.op (cFirst e.b) last r d with
    | none => return false
    | some x =>
      writeSp (ioOf e) o (if last then cDst e.b else cAux e.b) x
      return true) fun ok s =>
        if ok then cipEnd (if last then scatter s (ioOf e) o (cAux e.b) 80 else s) e stOk (cOut e.b)
        else cipAbort s e stField

/-- SHA256 (R357). -/
def execSha256 (f : Fin 262144) (i : Fin 65536) (s : State) : Ans := keepQueue s <| cipRun f i 5 s fun s e => shaRun s e
/-- SHA384 (R357). -/
def execSha384 (f : Fin 262144) (i : Fin 65536) (s : State) : Ans := keepQueue s <| cipRun f i 6 s fun s e => shaRun s e

end Sys2Proof.Machine
end

