-- ==== Sys2Proof/Machine/LatHdr.lean ====
section
/-! DEFINITION. Machine/LatHdr.lean: the lateral packet header, its checks, and the arrival of a packet (R318, R326 step 1). -/

namespace Sys2Proof.Machine

/-- TYPE of a lateral packet. -/
def lpType (l : List Byte) : Nat := lef l 0 1 3 0
/-- CLOSE. -/
def lpClose (l : List Byte) : Bool := bit (le l 1 1) 7
/-- STATUS. -/
def lpStatus (l : List Byte) : Nat := le l 2 1
/-- AOP. -/
def lpAop (l : List Byte) : Nat := lef l 3 1 3 0
/-- SRC_NODE. -/
def lpSrc (l : List Byte) : Nat := le l 4 3
/-- DST_NODE. -/
def lpDst (l : List Byte) : Nat := le l 8 3
/-- MSGID. -/
def lpId (l : List Byte) : Nat := le l 12 4
/-- SRC_TRN. -/
def lpSrcTrn (l : List Byte) : Nat := lef l 16 2 8 0
/-- DST_TRN. -/
def lpDstTrn (l : List Byte) : Nat := lef l 18 2 8 0
/-- GROUP. -/
def lpGroup (l : List Byte) : Nat := le l 20 2
/-- GCOUNT. -/
def lpGcount (l : List Byte) : Nat := le l 22 2
/-- PIDX. -/
def lpPidx (l : List Byte) : Nat := le l 24 1
/-- NPKT. -/
def lpNpkt (l : List Byte) : Nat := le l 25 1
/-- DLEN. -/
def lpDlen (l : List Byte) : Nat := lef l 26 2 11 0
/-- KEY. -/
def lpKey (l : List Byte) : Nat := le l 28 4
/-- OFFSET. -/
def lpOff (l : List Byte) : Nat := le l 32 8
/-- T0. -/
def lpT0 (l : List Byte) : Nat := le l 40 8
/-- PLACED of an ACK. -/
def lpPlaced (l : List Byte) : Nat := le l 32 16
/-- OPND: a bitmap, or REFUSED of an ACK. -/
def lpOpnd (l : List Byte) : Nat := le l 48 16
/-- Data. -/
def lpData (l : List Byte) : List Byte := (l.drop 64).take (lpDlen l)

/-- Does a packet break the rules of R318. -/
def lpBad (l : List Byte) : Bool :=
  let ty := lpType l
  let data := ty == 1 || ty == 3
  let ans := ty == 3 || ty == 5 || ty == 6
  l.length < 64 || lef l 0 1 7 4 != 1 || ty == 0 || ty > 6 || lef l 1 1 5 0 != 0 || (ty != 1 && lpClose l) ||
  (if ans then lpStatus l > 3 else lpStatus l != 0) || lef l 3 1 7 4 != 0 || (if ty == 4 then lpAop l > 2 else lpAop l != 0) ||
  le l 7 1 != 0 || le l 11 1 != 0 || lef l 16 2 15 9 != 0 || lef l 18 2 15 9 != 0 || (!lpClose l && lpGcount l != 0) ||
  lpNpkt l == 0 || lpNpkt l > 128 || lpPidx l ≥ lpNpkt l || lef l 26 2 15 12 != 0 || lpDlen l > 2048 ||
  (data && (if lpPidx l + 1 < lpNpkt l then lpDlen l != 2048 else lpDlen l == 0)) || (ty == 2 && (lpDlen l == 0 || lpPidx l != 0)) ||
  ((ty == 4 || ty == 5) && (lpDlen l != 0 || lpNpkt l != 1)) || (ty == 6 && lpDlen l != 0) ||
  (data && (!zeroAt l 48 16 || decide (l.length < 64 + lpDlen l))) || (ty == 5 && !zeroAt l 56 8)

/-- A packet reaches the device's receiver (R326 step 1): one that breaks R318 or is for another node is dropped and counted. -/
def latArrive (s : State) (l : List Byte) : State :=
  if rd s f_LAT_CFG_EN = 0 then s
  else if lpBad l || lpDst l != rd s f_LAT_CFG_NODE then incF s f_LAT_HDR_BAD_V 1
  else { s with lat := { s.lat with rx := s.lat.rx ++ [l] } }

end Sys2Proof.Machine
end

