-- ==== Sys2Proof/Machine/StoreConn.lean ====
section
/-! DEFINITION. Machine/StoreConn.lean: the siphon's connections to the store targets (R365–R367).
Choices beyond the words of the spec: log entries DESIGN CHOICE 50. -/

namespace Sys2Proof.Machine

/-- The connection to a target. -/
def connOf (s : State) (k : Nat) : Option Conn := sget none s.sip.conns k

/-- Replaces the connection to a target. -/
def setConn (s : State) (k : Nat) (c : Option Conn) : State := { s with sip := { s.sip with conns := sput none s.sip.conns k c } }

/-- Is an IP IPv4-mapped. -/
def mappedV4 (ip : Nat) : Bool := ip / 2 ^ 32 == 0xFFFF

/-- Entry `k` of the target table. -/
def targetEntry (s : State) (k : Nat) : Option (List Byte) :=
  if rd s f_SIP_TGTTAB_COUNT ≤ k then none
  else
    let a := rd s f_SIP_TGTTAB_BASE * 4096 + 256 * k
    match areaOf a with
    | .hbm x =>
      let l := memBytes s a 256
      if rd s (f_TRN_EXT_OWNER x) = 0x201 ∧ bit (le l 0 1) 0 then some l else none
    | _ => none

/-- A target entry that is left unconnected with ERR set (R365). -/
def targetBad (s : State) (l : List Byte) : Bool :=
  let q := lef l 1 1 3 0
  lef l 0 1 7 3 != 0 || lef l 1 1 7 4 != 0 || q == 0 || decide (8 < q) || lef l 26 2 14 12 != 0 ||
  (mappedV4 (be l 4 16) && rd s f_SIP_SRCIP4_V == 0)

/-- The split members of the Ethernet-mode links of SIP_LINKS that are up (R365). -/
def sipPorts (s : State) : List Nat :=
  ((List.range 36).filter (fun n => bit (rd s f_SIP_LINKS_V) n && lnkState s n == lsActive && !lnkNative s n)).flatMap (portsOf s)

/-- The ports that a target's queues are pinned to. -/
def pinsOf (s : State) (k : Nat) : List Nat := sget [] s.sip.pins k

/-- Pins the I/O queues of a target to members in round robin (R365); none where no member is up. -/
def pinQueues (s : State) (k queues : Nat) : State :=
  let ps := sipPorts s
  if ps.isEmpty then { s with sip := { s.sip with pins := sput [] s.sip.pins k [] } }
  else { s with sip := { s.sip with
    pins := sput [] s.sip.pins k ((List.range queues).map (fun j => ps.getD ((s.sip.next + j) % ps.length) 0))
    next := s.sip.next + queues } }

/-- The source address of a target's segments (R365). -/
def sipSrc (s : State) (ip : Nat) : List Byte :=
  if mappedV4 ip then natLE 4 (rd s f_SIP_SRCIP4_V)
  else natLE 8 (regv s (f_LAT_SRCIP_V 0).key).toNat ++ natLE 8 (regv s (f_LAT_SRCIP_V 1).key).toNat

/-- Sends a command toward a target by some of its ports, with their MACs and the egress class of SIP_CFG (R365). -/
def toStore (s : State) (k kind ip : Nat) (ports : List Nat) (data : List Byte) : State :=
  emit s (.store k kind ports (ports.map (sget 0 s.boot.macs)) (sipSrc s ip) (rd s f_SIP_CFG_CLASS) data)

/-- The siphon tries to connect a target, or sets its ERR (R365). -/
def tryConnect (s : State) (k : Nat) : State :=
  match targetEntry s k with
  | none => s
  | some l => if targetBad s l then wr s (f_SIP_TGTSTAT_ERR k) 1 else if (connOf s k).isSome then s
    else
      let s := pinQueues s k (lef l 1 1 3 0)
      toStore s k 0 (be l 4 16) (pinsOf s k) l

/-- An event of the siphon (R367, R421). -/
def sipEvent (s : State) (k : Nat) : State := event s 0x197 1 0x12 k

/-- Ends the unended entries of commands toward a target with a status, and drops the commands. -/
def dropCmds (s : State) (k st : Nat) : State :=
  let cs := s.sip.cmds.filter (fun c => c.target == k)
  let s := cs.foldl (fun s c => match entryOf s c.f c.i with
    | some e => if e.ended then s else endEntry s c.f c.i st noResult
    | none => s) s
  { s with sip := { s.sip with cmds := s.sip.cmds.filter (fun c => c.target != k) } }

/-- A connection closes: CONN and QUEUES read 0, and the siphon opens it again (R365). -/
def closeConn (s : State) (k : Nat) : State :=
  let s := toStore s k 4 (((connOf s k).map Conn.ip).getD 0) (pinsOf s k) []
  let s := wr (wr (setConn s k none) (f_SIP_TGTSTAT_CONN k) 0) (f_SIP_TGTSTAT_QUEUES k) 0
  if rd s f_SIP_CFG_EN = 1 then tryConnect s k else s

/-- A connection is lost (R367): its outstanding entries end with DEVICE_FAULT. -/
def connLost (s : State) (k : Nat) : State := sipEvent (closeConn (dropCmds s k stFault) k) k

/-- A link goes down: the connections with a queue pinned to one of its members are lost (R365, R367). -/
def storeLinkDown (s : State) (n : Nat) : State :=
  (List.range 16).foldl (fun s k =>
    if (connOf s k).isSome && (pinsOf s k).any (fun p => p / 8 == n) then connLost s k else s) s

end Sys2Proof.Machine
end

