-- ==== Sys2Proof/Machine/Links.lean ====
section
/-! DEFINITION. Machine/Links.lean: lasers, training, marker lock, native framing with retry and keepalive, sleep, and TIME
exchanges (R276–R294).
Choices beyond the words of the spec: log entries DESIGN CHOICE 39, 40, 44, 98. -/

namespace Sys2Proof.Machine

/-! ### Ports (R289, R295) -/

/-- Is a port number assigned (R295). -/
def portAssigned (s : State) (p : Nat) : Bool := decide (p % 8 < members (lnkMode s (p / 8))) && decide (p < 288)

/-- Is 802.1Qbb on for a port (R289). -/
def pfcOn (s : State) (p : Nat) : Bool := bit (lnkOf s (p / 8)).pfc (p % 8)

/-- FREEBOARD's default of a mode, ps (R313). -/
def freeboardOf (mode : Nat) : Nat :=
  match mode with
  | 1 => 30800 | 2 => 56180 | 3 => 102360 | 4 => 194720 | 5 => 379440 | _ => 0

/-- The fault source of a link (R420). -/
def lnkSrc (n : Nat) : Nat := 0x154 + n

/-- A port leaves ACTIVE: its queued PKT_TX entries end with ABORTED, its other frames are lost (R306, R280). -/
def portDrop (s : State) (p : Nat) : State :=
  (List.range 16).foldl (fun s c =>
    let q := sget [] s.sch.queues (16 * p + c)
    let s := q.foldl (fun s (it : QItem) => match it.ent with
      | some (f, i) => endEntry s f i stAborted noResult
      | none => s) s
    { s with sch := { s.sch with queues := sput [] s.sch.queues (16 * p + c) [], deficit := sput 0 s.sch.deficit (16 * p + c) 0 } }) s

/-- Drops what waits on every port of a link. -/
def portsDrop (s : State) (n : Nat) : State := (List.range 8).foldl (fun s k => portDrop s (8 * n + k)) s

/-! ### The time source (R291–R293) -/

/-- TMB_CTL.ROLE: 0 FREE, 1 PPS, 2 LINK, 3 PTP. -/
def tmbRole (s : State) : Nat := rd s f_TMB_CTL_ROLE

/-- Enters HOLDOVER: the rate is frozen and SYNCED clears (R293). -/
def holdover (s : State) : State :=
  let s := wr (wr s f_TMB_STAT_HOLDOVER 1) f_TMB_STAT_SYNCED 0
  { s with tb := { s.tb with good := 0 } }

/-- Is the loss of the source recorded already. -/
def lossHeld (s : State) : Bool := bits (sget 0 s.flt.cond 0x19A / 2 ^ 24) 7 0 == 0x0C

/-- The source is lost: HOLDOVER, and an event under 19Ah (R293), also where the source's SLEEP has brought HOLDOVER before. -/
def timeLost (s : State) : State := if lossHeld s then holdover s else condEvent (holdover s) 0x19A 0x0C 0

/-- Is a link the time source. -/
def timeSource (s : State) (n : Nat) : Bool := tmbRole s == 2 && rd s f_TMB_CTL_SRC_LINK == n

/-- The source is back: HOLDOVER ends. -/
def timeBack (s : State) : State :=
  if rd s f_TMB_STAT_HOLDOVER = 1 then
    let s := wr s f_TMB_STAT_HOLDOVER 0
    if lossHeld s then clearPresent s 0x19A else s
  else s

/-- Signed 16-bit saturation of an offset, as TMB_STAT.OFFSET holds it. -/
def offset16 (o : Int) : Nat := ((max (-32767) (min 32767 o)) % 65536).toNat

/-- A signed 32-bit field from an offset. -/
def offset32 (o : Int) : Nat := (o % 4294967296).toNat

/-- The servo takes a measured source offset (R290, R292): forward at the next tick, backward at half rate over twice the
offset; its new rate is a free value within ±200 ppm. -/
def servo (s : State) (o : Int) : State :=
  let s := timeBack s
  let s := wr s f_TMB_STAT_OFFSET (offset16 o)
  let (r, s) := freshBelow s 400001
  let t := s.tb
  let good := if o.natAbs ≤ rd s f_TMB_CTL_SYNC_TOL then t.good + 1 else 0
  let s := { s with tb := { t with
    servo := (r : Int) - 200000
    good := good
    set := if o > 0 then some (now s + o.toNat) else t.set
    slew := if o < 0 then t.slew + 2 * o.natAbs else t.slew } }
  if good ≥ 2 then wr s f_TMB_STAT_SYNCED 1 else s

/-! ### Loss and training (R277–R280) -/

/-- A link leaves ACTIVE or TRAINING for a state that is not ACTIVE: its buffers go, the units that depend on it act
(R280, R212, R293, R306, R367). -/
def lnkLeave (s : State) (n st : Nat) : State :=
  let was := lnkState s n
  let s := wr (wr (wr s (f_LNK_STAT_STATE n) st) (f_LNK_STAT_LOCK n) 0) (f_LNK_STAT_GRP_OK n) 0
  let s := modLnk s n (fun l => { l with
    replay := []
    credit := l.trained
    lanes := []
    sleepReq := false
    t1 := none
    t234 := none
    rxTime := none
    join := false
    held := []
    hold := 0 })
  if was = lsActive ∨ was = lsSleep then
    let s := storeLinkDown (portsDrop (barLinkLost s n) n) n
    if timeSource s n then timeLost s else s
  else s

/-- LNK_GRP's code for a link. -/
def lnkGrp (s : State) (n : Nat) : Nat := bits (regv s f_LNK_GRP_QUAD0.key).toNat (2 * (n / 4) + 1) (2 * (n / 4))

/-- The links of a link's group, as its last training took it (R287). -/
def grpLinks (s : State) (n : Nat) : List Nat :=
  match (lnkOf s n).grp with
  | 1 => [n / 2 * 2, n / 2 * 2 + 1]
  | 2 => (List.range 4).map (fun i => n / 4 * 4 + i)
  | _ => [n]

/-- Starts training (R279, R280, R284): MODE takes effect, FREEBOARD takes its default; a disabled, dark or unlit link does not
train. -/
def startTraining (s : State) (n : Nat) : State :=
  let m := rd s (f_LNK_CTL_MODE n)
  let s := lnkLeave s n lsTraining
  let s := modLnk s n (fun l => { l with
    mode := m
    grp := lnkGrp s n
    retryAt := 0 })
  if m = 0 then wr (wr s (f_LNK_STAT_STATE n) lsDisabled) (f_LNK_CTL_RETRAIN n) 0
  else if rd s (f_LNK_CTL_DARK n) = 1 then wr (wr s (f_LNK_STAT_STATE n) lsDark) (f_LNK_CTL_RETRAIN n) 0
  else
    let s := wr (wr s (f_LNK_CTL_RETRAIN n) 1) (f_TMB_LOFS_OFFSET n) 0x80000000
    (List.range 8).foldl (fun s k => wr s (f_SCH_SVC_FREEBOARD (8 * n + k)) (freeboardOf m)) s

/-- A link is lost (R280): code 08h with a detail under its source; it retrains where AUTO = 1. -/
def linkLost (s : State) (n detail : Nat) : State :=
  let s := event (lnkLeave s n lsDown) (lnkSrc n) 1 0x08 detail
  if rd s (f_LNK_CTL_AUTO n) = 1 then startTraining s n else s

/-- Power of ELS m stays low for 10 µs (R277). -/
def execElsLoss (m : Fin 18) (s : State) : Ans := keepQueue s <|
  let s := wr s ⟨f_LNK_ELS_STAT_OK.key, m.val, m.val⟩ 0
  .next ([2 * m.val, 2 * m.val + 1].foldl (fun s n =>
    condEvent (wr (lnkLeave s n lsEls) (f_LNK_CTL_RETRAIN n) 0) (lnkSrc n) 0x09 m) s)

/-- Power of ELS m has stayed good for 1 ms (R277). -/
def execElsRestore (m : Fin 18) (s : State) : Ans := keepQueue s <|
  let s := wr s ⟨f_LNK_ELS_STAT_OK.key, m.val, m.val⟩ 1
  .next ([2 * m.val, 2 * m.val + 1].foldl (fun s n =>
    let s := clearPresent s (lnkSrc n)
    if lnkState s n ≠ lsEls then s
    else if rd s (f_LNK_CTL_AUTO n) = 1 then startTraining s n
    else wr s (f_LNK_STAT_STATE n) lsDown) s)

/-- A write of 1 to RETRAIN, or detected light (R279). -/
def execRetrain (n : Fin 36) (s : State) : Ans := keepQueue s <|
  .next (if rd s (f_LNK_CTL_RETRAIN n) = 1 || lnkState s n == lsEls then s else startTraining s n)

/-- Are all lanes of a link locked (R282). -/
def allLocked (l : Link) : Bool := (List.range 8).all (fun j => (sget Lane.search l.lanes j).locked)

/-- The skew of a locked lane against lane 0, in bits, by the common count (R282). -/
def laneSkew (l : Link) (j : Nat) : Int :=
  let a := sget Lane.search l.lanes 0
  let b := sget Lane.search l.lanes j
  ((b.next : Int) - a.next) - ((((b.cnt : Int) - a.cnt + 128) % 256) - 128) * 5570680

/-- Can the lanes be deskewed: within 80 ns, which is 17,000 bits of a lane (R282). -/
def deskewed (l : Link) : Bool :=
  let k := (List.range 8).map (laneSkew l)
  k.all (fun x => k.all (fun y => decide ((x - y).natAbs ≤ 17000)))

/-- A TIME frame leaves (R292): it returns the arrival of the partner's last one, if one came, as t2, and carries its own departure as t3. -/
def timeFrame (s : State) (n : Nat) : State :=
  let back := match (lnkOf s n).rxTime with
    | some t => natLE 8 t
    | none => []
  modLnk (sendFrame s n 3 0 0 (back ++ natLE 8 (now s))) n (fun l => { l with
    t1 := some (now s)
    rxTime := none
    timeAt := s.clk })

/-- The effect of a measured offset on the time base and on the gates held by R294. -/
def exchange (s : State) (n : Nat) (o : Int) : State :=
  let s := wr s (f_TMB_LOFS_OFFSET n) (offset32 o)
  let src := timeSource s n
  let s := if src then servo s o else s
  let within := decide (1000 * o.natAbs ≤ rd s (f_SCH_SVC_FREEBOARD (8 * n)))
  match (lnkOf s n).hold with
  | 4 => if within then modLnk s n (fun l => { l with hold := 3 })
    else modLnk (incF s (f_LNK_DRIFT_V n) 1) n (fun l => { l with hold := if src then 1 else 2 })
  | 1 => if src ∧ s.tb.good < 2 then s else modLnk s n (fun l => { l with hold := 3 })
  | 2 => if within then modLnk s n (fun l => { l with hold := 3 }) else s
  | _ => s

/-- Do two links report the same partner (R286, R287). -/
def samePeer (s : State) (a b : Nat) : Bool :=
  rd s (f_LNK_STAT_PEER a) == rd s (f_LNK_STAT_PEER b) && rd s (f_LNK_STAT_PEER_NODE a) == rd s (f_LNK_STAT_PEER_NODE b) &&
    rd s (f_LNK_PEERHI_V a) == rd s (f_LNK_PEERHI_V b)

/-- A link that has trained enters its group (R287): it joins a running group at the next marker; where the fibres or the partners differ, the
group fails and each member runs alone. -/
def groupTrained (s : State) (n : Nat) (ok : Bool) : State :=
  if (lnkOf s n).grp = 0 then s
  else
    let others := (grpLinks s n).filter (fun m => m != n && (lnkState s m == lsActive || lnkState s m == lsSleep))
    if ok && others.all (samePeer s n) then
      if others.any (fun m => rd s (f_LNK_STAT_GRP_OK m) == 1) then modLnk s n (fun l => { l with join := true })
      else wr s (f_LNK_STAT_GRP_OK n) 1
    else (grpLinks s n).foldl (fun s m => modLnk (wr s (f_LNK_STAT_GRP_OK m) 0) m (fun l => { l with join := false })) s

/-- Training ends with the first TIME exchange (R279, R284, R286, R311): the mapping found, whether the group's conditions
hold, the partner's type and node, its credits per VC, the round trip and the offset measured. An Ethernet link has locked
its PCS. -/
def execTrainingComplete (n : Fin 36) (remap : LinkEnd) (grp : Bool) (sg1204 : Bool) (node : BitVec 24) (credits : List (BitVec 16))
    (rtt : BitVec 16) (off : BitVec 32) (s : State) : Ans := keepQueue s <|
  let nat_ := lnkNative s n
  if lnkState s n ≠ lsTraining ∨ (nat_ && !(allLocked (lnkOf s n) && deskewed (lnkOf s n))) then .next s
  else
    let s := wr (wr s (f_LNK_STAT_STATE n) lsActive) (f_LNK_CTL_RETRAIN n) 0
    let s := wr s (f_LNK_STAT_REMAP n) remap.remap.toNat
    let s := wr s (f_LNK_STAT_PEER n) (if nat_ then (if sg1204 then 2 else 1) else 0)
    let s := wr s (f_LNK_STAT_PEER_NODE n) (if nat_ then node.toNat % 2 ^ 22 else 0)
    let s := wr s (f_LNK_PEERHI_V n) (if nat_ then node.toNat / 2 ^ 22 else 0)
    let s := if nat_ then groupTrained s n grp else s
    let cr : SMap Nat := (credits.take 8).zipIdx.foldl (fun m p => sput 0 m p.2 p.1.toNat) []
    let s := modLnk s n (fun l => { l with
      exp := 0
      nakOut := false
      nakDue := false
      ackDue := false
      seq := 0
      replay := []
      ackAt := s.clk
      replays := 0
      rtt := rtt.toNat
      rxAt := s.clk
      txAt := s.clk
      dataAt := s.clk
      credit := cr
      trained := cr
      back := []
      pfc := if nat_ then 0 else remap.pfc.toNat
      retryAt := 0 })
    -- the ports enter RECOVERY (R311)
    let s := (portsOf s n).foldl (fun s p =>
      let s := wr s (f_SCH_SVC_SERVICE p) 1
      { s with sch := { s.sch with
        svc := sput 1 s.sch.svc p 1
        cbs := sclear s.sch.cbs (16 * p) 16
        tok := sclear s.sch.tok (16 * p) 16
        upTo := sput 0 s.sch.upTo p s.clk } }) s
    .next (if nat_ then timeFrame (exchange s n off.toInt) n else s)

/-- A training attempt fails (R278). -/
def execTrainingFail (n : Fin 36) (s : State) : Ans := keepQueue s <|
  if lnkState s n ≠ lsTraining then .next s
  else
    let s := incF (wr (lnkLeave s n lsDown) (f_LNK_CTL_RETRAIN n) 0) (f_LNK_TRAINFAIL_V n) 1
    .next (if rd s (f_LNK_CTL_AUTO n) = 1 then modLnk s n (fun l => { l with retryAt := 1 + s.clk + 100000000 }) else s)

/-- A write of DARK (R279): 1 turns lasers and modulators off; 0 relights them, and training follows the detected light. -/
def execLinkDark (n : Fin 36) (dark : Bool) (s : State) : Ans := keepQueue s <|
  if !barOpen s then .next s else
  let s := wr s (f_LNK_CTL_DARK n) (b2n dark)
  if dark then .next (modLnk (wr (lnkLeave s n lsDark) (f_LNK_CTL_RETRAIN n) 0) n (fun l => { l with retryAt := 0 }))
  else .next (if lnkState s n = lsDark then wr s (f_LNK_STAT_STATE n) lsDown else s)

/-- An Ethernet-mode link loses its PCS lock (R279, R280). -/
def execPcsLockLoss (n : Fin 36) (s : State) : Ans := keepQueue s <|
  if lnkState s n ≠ lsActive || lnkNative s n then .next s
  else
    let s := lnkLeave s n lsDown
    .next (if rd s (f_LNK_CTL_AUTO n) = 1 then startTraining s n else s)

/-! ### Alignment markers (R281, R282) -/

/-- The marker pattern. -/
def markerPat : List Nat := [0xC1, 0x6A, 0x3E, 0x95, 0x0F, 0xD2, 0x4B, 0x78, 0xE3, 0x1C, 0xA5, 0x5A]

/-- Bits from one marker of a lane to the next. -/
def markerP : Nat := 5570680

/-- A marker of lane j with a count (R281). -/
def markerBytes (j cnt : Nat) : List Byte :=
  markerPat.map (fun x => BitVec.ofNat 8 (x ^^^ j)) ++ [BitVec.ofNat 8 cnt, BitVec.ofNat 8 (255 - cnt % 256), 0]

/-- Markers that every transmitter has sent by an instant: one every P bits, 26,214 82/85 ns at 212.5 Gb/s; one PLL pair runs them all, so
that they leave in the same cycle (R281, R287). -/
def markerNo (clk : Nat) : Nat := 85 * clk / 2228272

/-- The count of 15 bytes that match lane j's marker. -/
def markerCount (j : Nat) (l : List Byte) : Option Nat :=
  let c := le l 12 1
  if (l.take 12).map BitVec.toNat = markerPat.map (fun x => x ^^^ j) ∧ le l 13 1 = 255 - c then some c else none

/-- What lane j makes of the 120 bits at a position: its new state, and whether lock is lost. A candidate that fails frees its slot, and a match
there opens a new one. -/
def laneStep (j : Nat) (x : Lane) (pos : Nat) (l : List Byte) : Lane × Bool :=
  let m := markerCount j l
  if x.locked then
    if pos ≠ x.next then (x, false)
    else
      let cnt := (x.cnt + 1) % 256
      let miss := if m = some cnt then 0 else x.misses + 1
      if miss ≥ 4 then (Lane.search, true)
      else ({ x with next := pos + markerP, cnt := cnt, misses := miss }, false)
  else
    let live := x.cands.filter (fun c => decide (pos ≤ c.next))
    match live.find? (fun c => c.next == pos) with
    | some c =>
      let rest := live.filter (fun c => c.next != pos)
      if m = some ((c.cnt + 1) % 256) then
        if c.hits + 1 ≥ 3 then (⟨true, pos + markerP, (c.cnt + 1) % 256, 0, []⟩, false)
        else ({ x with cands := rest ++ [⟨pos + markerP, (c.cnt + 1) % 256, c.hits + 1⟩] }, false)
      else match m with
        | some k => ({ x with cands := rest ++ [⟨pos + markerP, k, 1⟩] }, false)
        | none => ({ x with cands := rest }, false)
    | none => match m with
      | some c => if live.length < 32 then ({ x with cands := live ++ [⟨pos + markerP, c, 1⟩] }, false) else ({ x with cands := live }, false)
      | none => ({ x with cands := live }, false)

/-- The 120 bits at a position of a lane, where a marker is looked for (R282). -/
def execAlignmentMarker (n : Fin 36) (j : Fin 8) (pos : BitVec 64) (l : List Byte) (s : State) : Ans := keepQueue s <|
  let st := lnkState s n
  if !lnkNative s n || !(st == lsTraining || st == lsActive || st == lsSleep) then .next s
  else
    let (x, lost) := laneStep j (sget Lane.search (lnkOf s n).lanes j) pos.toNat l
    let s := modLnk s n (fun k => { k with lanes := sput Lane.search k.lanes j x })
    let s := wr s (f_LNK_STAT_LOCK n) (b2n (allLocked (lnkOf s n)))
    .next (if lost && st != lsTraining then linkLost s n 2 else s)

/-! ### Native frames (R283–R285) -/

/-- A received frame's header. -/
structure FrameHdr where
  /-- TYPE. -/
  ty : Nat
  /-- VC. -/
  vc : Nat
  /-- SEQ. -/
  seq : Nat
  /-- NAK. -/
  nak : Bool
  /-- ACK. -/
  ack : Nat
  /-- CREDIT of each VC. -/
  credit : List Nat
  /-- Payload. -/
  data : List Byte
deriving DecidableEq, Repr

/-- A frame that passes its CRC and is valid (R283). -/
def parseFrame (fr : List Byte) : Option FrameHdr :=
  let n := lef fr 5 2 12 0
  if fr.length < 20 + n || n > 4096 || crc32c (fr.take (16 + n)) != le fr (16 + n) 4 then none
  else if lef fr 0 1 7 4 = 0 || lef fr 0 1 7 4 > 5 || lef fr 0 1 3 3 != 0 || lef fr 1 2 15 12 != 0 || lef fr 3 2 15 13 != 0 ||
      lef fr 5 2 15 13 != 0 || le fr 7 1 != 0 then none
  else some ⟨lef fr 0 1 7 4, lef fr 0 1 2 0, lef fr 1 2 11 0, lef fr 3 2 12 12 == 1, lef fr 3 2 11 0,
    (List.range 8).map (fun v => le fr (8 + v) 1), (fr.drop 16).take n⟩

/-- A new DATA frame: it enters the replay buffer and is sent (R284). -/
def sendData (s : State) (n vc : Nat) (data : List Byte) : State :=
  let q := (lnkOf s n).seq
  let s := sendFrame s n 1 vc q data
  modLnk s n (fun l => { l with
    seq := (q + 1) % 4096
    ackAt := if l.replay.isEmpty then s.clk else l.ackAt
    replay := l.replay ++ [⟨q, vc, data⟩]
    credit := sput 0 l.credit vc (sget 0 l.credit vc - slotsFor data.length)
    sleepReq := false })

/-- Can a link take another DATA frame: its replay buffer has room and the VC has credit (R284). -/
def dataRoom (s : State) (n vc len : Nat) : Bool :=
  let l := lnkOf s n
  decide (l.replay.length < 2048) && decide ((l.replay.map (fun f => 64 * slotsFor f.data.length)).sum + 64 * slotsFor len ≤ 2 ^ 20) &&
    decide (slotsFor len ≤ sget 0 l.credit vc)

/-- Replays every unacknowledged frame in order; the eighth replay in a row without progress loses the link (R284). -/
def replay (s : State) (n : Nat) : State :=
  let l := lnkOf s n
  if l.replay.isEmpty then s
  else
    let s := incF s (f_LNK_REPLAY_V n) 1
    if l.replays + 1 ≥ 8 then linkLost s n 1
    else
      let s := l.replay.foldl (fun s f => sendFrame s n 1 f.vc f.seq f.data) s
      modLnk s n (fun l => { l with
        replays := l.replays + 1
        ackAt := s.clk })

/-- What ACK, NAK and CREDIT of any valid frame do (R283, R284). -/
def ackIn (s : State) (n : Nat) (h : FrameHdr) : State :=
  let l := lnkOf s n
  let left := l.replay.filter (fun f => decide (2048 ≤ (h.ack + 4096 - f.seq) % 4096))
  let s := modLnk (linkSeen s n) n (fun l => { l with
    replay := left
    ackAt := if left.length < l.replay.length then s.clk else l.ackAt
    replays := if left.length < l.replay.length then 0 else l.replays
    credit := h.credit.zipIdx.foldl (fun m p => sput 0 m p.2 (sget 0 m p.2 + p.1)) l.credit })
  if h.nak then replay s n else s

/-- A frame of a type arrives on a native link: an invalid one is counted, one of another type is not this command's. -/
def rxFrame (s : State) (n ty : Nat) (fr : List Byte) (k : FrameHdr → State → State) : Ans :=
  let st := lnkState s n
  if !lnkNative s n || !(st == lsActive || st == lsSleep) then .next s
  else match parseFrame fr with
    | none => .next (incF s (f_LNK_CRC_V n) 1)
    | some h => if h.ty ≠ ty then .next s else .next (k h (ackIn s n h))

/-- Inserts a held frame by its transmit slot. -/
def insSkew (x : Skew) : List Skew → List Skew
  | [] => [x]
  | y :: r => if x.slot < y.slot then x :: y :: r else y :: insSkew x r

/-- The payload of an accepted DATA frame goes on (R287): at once, or through the receiver of the link's group. -/
def dataIn (s : State) (n slot : Nat) (data : List Byte) : State :=
  if rd s (f_LNK_STAT_GRP_OK n) = 1 then
    modLnk s ((grpLinks s n).headD n) (fun l => { l with skew := insSkew ⟨slot, s.clk, data⟩ l.skew })
  else latArrive s data

/-- A group's receiver delivers what it has held for 80 ns, and before it every frame of an earlier transmit slot (R287). -/
def deskewOut (s : State) (n : Nat) : State :=
  let q := (lnkOf s n).skew
  let last := ((q.filter (fun x => decide (x.at_ + 80 ≤ s.clk))).getLast?.map Skew.slot).getD 0
  if q.any (fun x => decide (x.at_ + 80 ≤ s.clk)) then
    (q.filter (fun x => decide (x.slot ≤ last))).foldl (fun s x => latArrive s x.data)
      (modLnk s n (fun l => { l with skew := q.filter (fun x => decide (last < x.slot)) }))
  else s

/-- A marker leaves on every lane of a native link that is lit and past step 2 of its training (R281); a link that has retrained joins its
group (R287). -/
def markerOut (s : State) (n : Nat) : State :=
  let st := lnkState s n
  if lnkNative s n && (st == lsTraining || st == lsActive || st == lsSleep) then
    let s := emit s (.link n 8 ((List.range 8).flatMap (fun j => markerBytes j (markerNo s.clk))))
    if (lnkOf s n).join then modLnk (wr s (f_LNK_STAT_GRP_OK n) 1) n (fun l => { l with join := false }) else s
  else s

/-- A DATA frame (R284): in order, a duplicate, or ahead of a loss. -/
def execDataFrame (p : RxSlot) (fr : List Byte) (s : State) : Ans := keepQueue s <|
  let n := p.n.val
  rxFrame s n 1 fr fun h s =>
    if lnkState s n ≠ lsActive then s
    else
      let s := modLnk s n (fun l => { l with
        dataAt := s.clk
        sleepReq := false })
      let l := lnkOf s n
      let d := (h.seq + 4096 - l.exp) % 4096
      if d = 0 then
        let s := modLnk s n (fun l => { l with
          exp := (l.exp + 1) % 4096
          nakOut := false
          back := sput 0 l.back h.vc (sget 0 l.back h.vc + slotsFor h.data.length) })
        if h.vc = 1 ∨ h.vc = 2 then dataIn s n p.slot.toNat h.data else s
      else if d ≥ 2048 then modLnk (incF s (f_LNK_DUP_V n) 1) n (fun l => { l with ackDue := true })
      else if l.nakOut then s
      else modLnk s n (fun l => { l with
        nakOut := true
        nakDue := true })

/-- A valid frame arrives whose payload further operands give: its ACK, NAK and CREDIT act (R283). -/
def rxNat (s : State) (p : RxNat) (k : State → State) : Ans :=
  let st := lnkState s p.n
  if !lnkNative s p.n || !(st == lsActive || st == lsSleep) then .next s
  else .next (k (ackIn s p.n ⟨4, 0, 0, p.nak, p.ack.toNat, p.credit.map BitVec.toNat, []⟩))

/-- A CTRL frame (R285). -/
def execCtrlFrame (n : Fin 36) (fr : List Byte) (s : State) : Ans := keepQueue s <| rxFrame s n 2 fr fun _ s => s

/-- A slot of TYPE 0h (R283): 64 zero bytes are IDLE and have no effect; anything else is discarded and counted. -/
def execIdleSlot (n : Fin 36) (slot : List Byte) (s : State) : Ans := keepQueue s <|
  .next (if lef slot 0 1 7 4 = 0 ∧ (slot.take 64).any (fun b => b != 0) then incF s (f_LNK_CRC_V n) 1 else s)

/-- ACK has not advanced for the replay time (R284, R12). -/
def execReplayTimeout (n : Fin 36) (s : State) : Ans := keepQueue s <|
  let l := lnkOf s n
  .next (if lnkState s n = lsActive ∧ l.replay ≠ [] ∧ overdue s (l.ackAt + l.rtt + 2000) = true then replay s n else s)

/-- No other frame is due for 1 µs (R285); in SLEEP one CTRL frame per marker interval (R288). -/
def execKeepaliveSend (n : Fin 36) (s : State) : Ans := keepQueue s <|
  let gap := if lnkState s n = lsSleep then 26215 else 1000
  .next (if lnkNative s n && (lnkState s n == lsActive || lnkState s n == lsSleep) && decide ((lnkOf s n).txAt + gap ≤ s.clk) then
    sendFrame s n 2 0 0 [] else s)

/-- No frame has passed its CRC for 8 µs, in SLEEP for 64 µs (R285, R288). -/
def execKeepaliveTimeout (n : Fin 36) (s : State) : Ans := keepQueue s <|
  let gap := if lnkState s n = lsSleep then 64000 else 8000
  .next (if lnkNative s n && (lnkState s n == lsActive || lnkState s n == lsSleep) && overdue s ((lnkOf s n).rxAt + gap) then
    linkLost s n 0 else s)

/-! ### BARRIER frames (R211, R212) -/

/-- A root receives ARRIVE on a link (R211): a frame of another generation, of a link not awaited or a second one is
discarded. -/
def execBarrierArriveFrame (p : RxNat) (b : Fin 16) (gen : Byte) (s : State) : Ans := keepQueue s <| rxNat s p fun s =>
  let link := p.n
  let s := barExpire s b
  if rd s (f_SLU_BAR_CFG_EN b) = 0 || rd s (f_SLU_BAR_CFG_ROOT b) = 0 || rd s (f_SLU_BAR_STAT_GEN b) ≠ gen.toNat ||
      !bit (rd s (f_SLU_BAR_LINKS_LINKS b)) link || bit (barOf s b).links link then barDrop s b
  else
    let s := barStart s b
    let x := barOf s b
    barProgress (setBar s b { x with links := x.links ||| 2 ^ link.val }) b false

/-- A member receives RELEASE with a status on its uplink (R211, R212). -/
def execBarrierReleaseFrame (p : RxNat) (b : Fin 16) (gen status : Byte) (s : State) : Ans := keepQueue s <| rxNat s p fun s =>
  let link := p.n
  let s := barExpire s b
  if rd s (f_SLU_BAR_CFG_EN b) = 0 || rd s (f_SLU_BAR_CFG_ROOT b) = 1 || rd s (f_SLU_BAR_STAT_GEN b) ≠ gen.toNat ||
      rd s (f_SLU_BAR_CFG_UPLINK b) ≠ link then barDrop s b
  else barRelease s b status.toNat

/-! ### Sleep (R288, R293, R294) -/

/-- A link enters SLEEP: a time source then goes into HOLDOVER without an event (R293). -/
def enterSleep (s : State) (n : Nat) : State :=
  let s := modLnk (wr s (f_LNK_STAT_STATE n) lsSleep) n (fun l => { l with
    sleepReq := false
    t1 := none
    t234 := none })
  if timeSource s n then holdover s else s

/-- Is the partner an SG1204, which takes CTRL, BARRIER and TIME frames only (R286). -/
def peerSwitch (s : State) (n : Nat) : Bool := rd s (f_LNK_STAT_PEER n) == 2

/-- A link wakes: ACTIVE, its time-gated classes held, a TIME exchange at once (R294). -/
def wakeLink (s : State) (n : Nat) : State :=
  let s0 := s
  let s := modLnk (wr s (f_LNK_STAT_STATE n) lsActive) n (fun l => { l with
    hold := 4
    held := []
    dataAt := s.clk })
  let s := (lnkOf s0 n).held.foldl (fun s d => sendFrame s n 4 0 0 d) s
  if rd s (f_LNK_CTL_TS_EN n) = 1 then timeFrame s n else s

/-- Frames wait on the ports of a link. -/
def dataWaits (s : State) (n : Nat) : Bool :=
  s.sch.queues.any (fun p => p.1 / 128 == n && !p.2.isEmpty)

/-- SLEEP_IDLE has passed without DATA and with an empty replay buffer (R288). -/
def execSleepEntry (n : Fin 36) (s : State) : Ans := keepQueue s <|
  let l := lnkOf s n
  let idle := rd s (f_LNK_CTL_SLEEP_IDLE n)
  if lnkState s n = lsActive ∧ lnkNative s n = true ∧ idle ≠ 0 ∧ peerSwitch s n = false ∧ l.replay = [] ∧ l.dataAt + 1000 * idle ≤ s.clk ∧ l.sleepReq = false ∧
      dataWaits s n = false then
    .next (modLnk (sendFrame s n 5 0 0 [1]) n (fun l => { l with sleepReq := true }))
  else .next s

/-- A SLEEP frame (R288): 01h asks, 02h answers, 03h ends. A side with DATA to send lets a request lapse. -/
def execSleepFrame (n : Fin 36) (fr : List Byte) (s : State) : Ans := keepQueue s <|
  rxFrame s n 5 fr fun h s =>
    if peerSwitch s n then s else
    match le h.data 0 1 with
    | 1 => if lnkState s n = lsActive ∧ dataWaits s n = false ∧ (lnkOf s n).replay = [] then enterSleep (sendFrame s n 5 0 0 [2]) n else s
    | 2 => if lnkState s n = lsActive ∧ (lnkOf s n).sleepReq = true then enterSleep s n else s
    | 3 => if lnkState s n = lsSleep then wakeLink s n else s
    | _ => s

/-- A side with DATA to send wakes the link (R288, R294). -/
def execSleepExit (n : Fin 36) (s : State) : Ans := keepQueue s <|
  .next (if lnkState s n = lsSleep ∧ dataWaits s n = true then wakeLink (sendFrame s n 5 0 0 [3]) n else s)

/-! ### TIME exchanges (R292, R294) -/

/-- A TIME frame arrives, with the partner's t3 and, if this side's frame had reached it, its t2: its arrival is t4, and this side's t2 for the
partner. -/
def execTimeFrame (p : RxNat) (t2 : Option DWord) (t3 : DWord) (s : State) : Ans := keepQueue s <| rxNat s p fun s =>
  if lnkState s p.n ≠ lsActive then s
  else modLnk s p.n (fun l => { l with
    rxTime := some (now s)
    t234 := match t2 with
      | some t => some (t.toNat, t3.toNat, now s)
      | none => l.t234 })

/-- The offset of R292: (t2 − t1) − (t4 − t3) halved, less half of the asymmetry of 1/16 ns units; an odd remainder rounds by a
free value. -/
def measure (s : State) (n t1 t2 t3 t4 : Nat) : Int × State :=
  let asym := (BitVec.ofNat 16 (rd s (f_TMB_ASYM_ASYM n))).toInt
  let x : Int := 16 * (((t2 : Int) - t1) - ((t4 : Int) - t3)) - asym
  let q := x / 32
  if x % 32 = 0 then (q, s)
  else
    let (r, s) := freshBelow s 2
    (q + (r : Int), s)

/-- A TIME exchange completes where the partner has answered: delay and offset are computed (R292). -/
def timeDone (s : State) (n : Nat) : State :=
  match (lnkOf s n).t1, (lnkOf s n).t234 with
  | some t1, some (t2, t3, t4) =>
    let (o, s) := measure s n t1 t2 t3 t4
    exchange (modLnk s n (fun l => { l with
      t1 := none
      t234 := none
      delay := (((t4 : Int) - t1) - ((t3 : Int) - t2)) / 2 })) n o
  | _, _ => s

/-- TIME exchanges of an ACTIVE native link (R292): one whose answer has come completes; 10 µs after the last began, the next begins. -/
def execTimeExchange (n : Fin 36) (s : State) : Ans := keepQueue s <|
  if !lnkNative s n || lnkState s n != lsActive || rd s (f_LNK_CTL_TS_EN n) == 0 then .next s
  else
    let s := timeDone s n
    .next (if (lnkOf s n).timeAt + 10000 ≤ s.clk then timeFrame s n else s)

end Sys2Proof.Machine
end

