-- ==== Sys2Proof/Machine/Parse.lean ====
section
/-! DEFINITION. Machine/Parse.lean: frame arrival, parsing, rule lookup, metering, delivery, and the rule commands
(R289, R295–R305, R307, R308).
Choices beyond the words of the spec: log entries DESIGN CHOICE 41, 43, 73, 74; PRESUMED 42. -/

namespace Sys2Proof.Machine

/-! ### Parsing (R296, R297, R300) -/

/-- The fields that a parse gives to the key (R300). -/
structure PKey where
  /-- VID of the outer tag. -/
  vid1 : Nat
  /-- VID of the inner tag. -/
  vid2 : Nat
  /-- Final EtherType. -/
  etype : Nat
  /-- IP protocol. -/
  proto : Nat
  /-- DSCP. -/
  dscp : Nat
  /-- FRAG. -/
  frag : Bool
  /-- SIP. -/
  sip : Nat
  /-- DIP. -/
  dip : Nat
  /-- SPORT. -/
  sport : Nat
  /-- DPORT. -/
  dport : Nat
  /-- TCP flags. -/
  flags : Nat
  /-- VNI. -/
  vni : Nat
  /-- DEI of the outer tag. -/
  dei : Bool
  /-- IPv6. -/
  v6 : Bool
  /-- UDP was recognised. -/
  udp : Bool
  /-- Bytes after the L4 header, within the IP packet. -/
  rest : List Byte
  /-- Reasons met. -/
  bad : List Nat
deriving DecidableEq, Repr

/-- Nothing recognised yet. -/
def PKey.empty : PKey := ⟨0, 0, 0, 0, 0, false, 0, 0, 0, 0, 0, 0, false, false, false, [], []⟩

/-- Marks a reason. -/
def PKey.mal (k : PKey) (r : Nat) : PKey := { k with bad := k.bad ++ [r] }

/-- The ones'-complement sum of 16-bit big-endian words, a last odd byte padded with zero. -/
def sum16 (l : List Byte) : Nat := (chunks 2 (l.length / 2 + 1) l).foldl (fun a w => a + beNat (padTo 2 w)) 0

/-- Folds a sum to 16 bits. -/
def fold16 (n : Nat) : Nat :=
  let a := n % 65536 + n / 65536
  let b := a % 65536 + a / 65536
  b % 65536 + b / 65536

/-- Is a checksummed region correct: its folded sum is all ones. -/
def sumOk (n : Nat) : Bool := fold16 n == 0xFFFF

/-- The checksum of a region whose sum is `n`. -/
def sumOf (n : Nat) : Nat := 0xFFFF - fold16 n

/-- The pseudo-header's sum: addresses, protocol and length. -/
def pseudo (k : PKey) (proto len : Nat) : Nat :=
  sum16 (if k.v6 then natBE 16 k.sip ++ natBE 16 k.dip else natBE 4 (k.sip % 2 ^ 32) ++ natBE 4 (k.dip % 2 ^ 32)) + proto + len

/-- The L4 headers over an IP payload. A first fragment's are checked over what it holds, since R297 makes no exception for it (DEDUCED, log
entry 42). -/
def parseL4 (k : PKey) (proto : Nat) (p : List Byte) : PKey :=
  if proto = 17 then
    if p.length < 8 then k.mal 1
    else
      let n := be p 4 2
      let sum := be p 6 2
      let k := { k with sport := be p 0 2, dport := be p 2 2, udp := true, rest := (p.take (max 8 n)).drop 8 }
      if (n < 8 || n > p.length || (sum == 0 && k.v6) || (sum != 0 && !sumOk (sum16 (p.take n) + pseudo k 17 n))) then k.mal 7 else k
  else if proto = 6 then
    if p.length < 20 then k.mal 1
    else
      let off := 4 * lef p 12 1 7 4
      let k := { k with sport := be p 0 2, dport := be p 2 2, flags := le p 13 1, rest := p.drop off }
      let k := if off ≥ 20 ∧ off > p.length then k.mal 1 else k
      if off < 20 || !sumOk (sum16 p + pseudo k 6 p.length) then k.mal 8 else k
  else { k with rest := p }

/-- IPv4. -/
def parseV4 (k : PKey) (p : List Byte) : PKey :=
  if p.length < 20 then k.mal 1
  else
    let ihl := 4 * lef p 0 1 3 0
    let tot := be p 2 2
    let fo := be p 6 2
    let k := { k with
      proto := le p 9 1
      dscp := lef p 1 1 7 2
      frag := decide (fo % 8192 ≠ 0)
      sip := 0xFFFF * 2 ^ 32 + be p 12 4
      dip := 0xFFFF * 2 ^ 32 + be p 16 4 }
    let k := if ihl > p.length then k.mal 1 else k
    let k := if lef p 0 1 7 4 ≠ 4 ∨ ihl < 20 ∨ tot < ihl ∨ tot > p.length then k.mal 3 else k
    let k := if sumOk (sum16 (p.take (max 20 ihl))) then k else k.mal 4
    if k.bad ≠ [] ∧ k.bad ≠ [4] then k
    else if k.frag then { k with rest := (p.take tot).drop ihl }
    else parseL4 k k.proto ((p.take tot).drop ihl)

/-- Next-header values that are extension headers but not among the four that are recognised. -/
def unlistedExt : List Nat := [50, 51, 135, 139, 140, 253, 254]

/-- The extension headers of IPv6: fuel bounds their number; the count so far, the next header, the bytes. -/
def parseExt (k : PKey) : Nat → Nat → Nat → List Byte → PKey
  | 0, _, _, _ => k.mal 6
  | f + 1, n, nh, p =>
    if nh = 0 ∨ nh = 43 ∨ nh = 44 ∨ nh = 60 then
      if n ≥ 2 then k.mal 6
      else if p.length < 8 then k.mal 1
      else
        let len := if nh = 44 then 8 else 8 * (le p 1 1 + 1)
        if len > p.length then k.mal 1
        else if nh = 44 then
          let fo := be p 2 2
          if fo / 8 ≠ 0 then { k with proto := le p 0 1, frag := true, rest := p.drop len }
          else parseExt k f (n + 1) (le p 0 1) (p.drop len)
        else parseExt k f (n + 1) (le p 0 1) (p.drop len)
    else if unlistedExt.contains nh then { k with proto := nh }.mal 6
    else parseL4 { k with proto := nh } nh p

/-- IPv6. -/
def parseV6 (k : PKey) (p : List Byte) : PKey :=
  if p.length < 40 then k.mal 1
  else
    let n := be p 4 2
    let k := { k with
      v6 := true
      dscp := bits (be p 0 2) 11 6
      sip := be p 8 16
      dip := be p 24 16 }
    if lef p 0 1 7 4 ≠ 6 ∨ n > p.length - 40 then k.mal 5
    else parseExt k 4 0 (le p 6 1) ((p.drop 40).take n)

/-- The tags of R296: count so far, EtherType, bytes behind it. -/
def parseTags (k : PKey) : Nat → Nat → Nat → List Byte → PKey
  | 0, _, _, _ => k
  | f + 1, n, et, p =>
    if et = 0x88A8 ∨ et = 0x8100 then
      if n ≥ 2 then k.mal 2
      else if p.length < 4 then k.mal 1
      else
        let tci := be p 0 2
        let k := if n = 0 then { k with vid1 := tci % 4096, dei := bit tci 12 } else { k with vid2 := tci % 4096 }
        parseTags k f (n + 1) (be p 2 2) (p.drop 4)
    else
      let k := { k with etype := et, rest := p }
      if et = 0x0800 then parseV4 k p else if et = 0x86DD then parseV6 k p else k

/-- One Ethernet frame. -/
def parseEth (p : List Byte) : PKey :=
  if p.length < 14 then PKey.empty.mal 1 else parseTags PKey.empty 4 0 (be p 12 2) (p.drop 14)

/-- The first reason that applies. -/
def firstBad (l : List Nat) : Nat := l.foldl (fun a r => if a = 0 ∨ r < a then r else a) 0

/-- A frame with its Geneve inner headers (R296): the key, and its reason, 0 for a well-formed frame. -/
def parseFrameEth (geneve : Nat) (p : List Byte) : PKey × Nat :=
  let k := parseEth p
  let r := firstBad k.bad
  if r ≠ 0 then (k, r)
  else if k.udp && k.dport == geneve then
    let g := k.rest
    if g.length < 8 then (k, 1)
    else
      let opt := 4 * lef g 0 1 5 0
      if lef g 0 1 7 6 ≠ 0 ∨ 8 + opt > g.length then (k, 9)
      else
        let vni := be g 4 3
        if be g 2 2 ≠ 0x6558 then ({ PKey.empty with vni := vni, rest := g.drop (8 + opt) }, 0)
        else
          let i := parseEth (g.drop (8 + opt))
          if i.bad ≠ [] then (i, 0x0A) else ({ i with vni := vni }, 0)
  else (k, 0)

/-- The 384-bit key (R300). -/
def keyOf (port : Nat) (k : PKey) : Nat :=
  port % 512 + k.vid1 * 2 ^ 9 + k.vid2 * 2 ^ 21 + k.etype * 2 ^ 33 + k.proto * 2 ^ 49 + k.dscp * 2 ^ 57 + b2n k.frag * 2 ^ 63 +
  k.sip * 2 ^ 64 + k.dip * 2 ^ 192 + k.sport * 2 ^ 320 + k.dport * 2 ^ 336 + k.vni * 2 ^ 352 + k.flags * 2 ^ 376

/-! ### Lookup (R298, R301, R302) -/

/-- An exception action: to the exception furrow, or drop while PAR_EXC_FURROW.EN = 0. -/
def excTo (s : State) (on : Bool) (reason : Nat) (k : PKey) : Parsed :=
  if on && rd s f_PAR_EXC_FURROW_EN == 1 then .deliver (rd s f_PAR_EXC_FURROW_FURROW) true reason none k.dei k.dscp else .drop none false 0

/-- What a rule's result word says (R301). -/
def ruleTo (s : State) (res : Nat) (k : PKey) : Parsed :=
  let m := if bit res 2 then some (bits res 16 3) else none
  match bits res 1 0 with
  | 1 => .deliver (bits res 34 17) false 0 m k.dei k.dscp
  | 2 => match excTo s true 0 k with
    | .deliver f e r _ d c => .deliver f e r m d c
    | _ => .drop m k.dei k.dscp
  | _ => .drop m k.dei k.dscp

/-- Buckets of an exact key (R302). -/
def exactBuckets (key : Nat) : Nat × Nat :=
  let c := crc32c (natLE 48 key)
  let b0 := bits c 15 0
  let b1 := bits c 31 16
  (b0, if b1 = b0 then b0 ^^^ 1 else b1)

/-- The place of an exact key. -/
def exactFind (s : State) (key : Nat) : Option Nat :=
  let (b0, b1) := exactBuckets key
  ([b0, b1].flatMap (fun b => [4 * b, 4 * b + 1, 4 * b + 2, 4 * b + 3])).find? (fun i => match sget none s.par.exact_ i with
    | some (k, _) => k == key
    | none => false)

/-- An error in entry `i` of a table (R304): corrected and counted, or the entry is made invalid and an event recorded, under
source 192h. What an uncorrectable entry holds and the detail's word address, of an array whose layout the spec does not give,
are free values. -/
def tableErr (s : State) (table i : Nat) (unc : Bool) : State :=
  let (w, s) := freshBelow s (2 ^ 24)
  if !unc then event s 0x192 0 0x01 w
  else
    let s := match table with
      | 0 =>
        let (k, s) := freshBytes s 48
        let (m, s) := freshBytes s 48
        let (r, s) := freshBelow s (2 ^ 64)
        let (h, s) := freshBelow s (2 ^ 48)
        { s with par := { s.par with tern := sput Tern.none s.par.tern i ⟨false, leNat k, leNat m, r, h⟩ } }
      | 1 => { s with par := { s.par with exact_ := sput none s.par.exact_ i none } }
      | _ =>
        let (r, s) := freshBelow s (2 ^ 64)
        let (c, s) := freshBelow s (2 ^ 24)
        let (e, s) := freshBelow s (2 ^ 24)
        let (n0, s) := freshBelow s (2 ^ 32)
        let (n1, s) := freshBelow s (2 ^ 32)
        let (n2, s) := freshBelow s (2 ^ 32)
        { s with par := { s.par with meters := sput Meter.none s.par.meters i ⟨false, r, c, e, 0, 0, 0, [n0, n1, n2]⟩ } }
    event s 0x192 1 0x02 w

/-- A lookup (R301): the result word; a ternary hit is counted. An error counts where the lookup reads its entry: an exact one in
a bucket of the key, a ternary one when no exact entry matches (R304). -/
def lookup (s : State) (key : Nat) (err : TabErr) : Option Nat × State :=
  let s := match err with
    | .entry 1 i unc => if i.toNat / 4 = (exactBuckets key).1 ∨ i.toNat / 4 = (exactBuckets key).2 then tableErr s 1 i.toNat unc else s
    | _ => s
  match exactFind s key with
  | some i => ((sget none s.par.exact_ i).map Prod.snd, s)
  | none =>
    let s := match err with
      | .entry 0 i unc => if i.toNat < 16384 then tableErr s 0 i.toNat unc else s
      | _ => s
    match s.par.tern.find? (fun p => p.2.valid && (key ^^^ p.2.key) &&& p.2.mask == 0) with
    | some (i, t) => (some t.res, { s with par := { s.par with
        tern := sput Tern.none s.par.tern i { t with hits := min (t.hits + 1) (2 ^ 48 - 1) } } })
    | none => (none, s)

/-! ### Frames (R289, R299, R305) -/

/-- The ingress buffer of a link. -/
def rxBuf (s : State) (n : Nat) : List RxFrame := sget [] s.par.buf n

/-- Replaces the ingress buffer of a link. -/
def setRxBuf (s : State) (n : Nat) (l : List RxFrame) : State := { s with par := { s.par with buf := sput [] s.par.buf n l } }

/-- Bytes that a priority holds in a link's buffer. -/
def prioBytes (s : State) (n prio : Nat) : Nat :=
  ((rxBuf s n).filter (fun r => r.prio == prio)).foldl (fun a r => a + r.data.length) 0

/-- The PFC thresholds of R299 on a port: pause above 768 KiB, resume below 512 KiB. A PFC frame leaves as kind 7. -/
def pfcPort (s : State) (n prio port : Nat) : State :=
  if !pfcOn s port then s
  else
    let b := prioBytes s n prio
    let k := 8 * port + prio
    if b > 786432 ∧ nin s.par.paused k = false then
      emit { s with par := { s.par with paused := nadd s.par.paused k } } (.link n 7 [BitVec.ofNat 8 (port % 8), BitVec.ofNat 8 prio, 1])
    else if b < 524288 ∧ nin s.par.paused k = true then
      emit { s with par := { s.par with paused := ndel s.par.paused k } } (.link n 7 [BitVec.ofNat 8 (port % 8), BitVec.ofNat 8 prio, 0])
    else s

/-- The thresholds act on every port of the link, whose buffer the ports share. -/
def pfcCheck (s : State) (n prio : Nat) : State := (portsOf s n).foldl (fun s p => pfcPort s n prio p) s

/-- PCP of a frame's outer tag; 0 untagged. -/
def pcpOf (p : List Byte) : Nat := if be p 12 2 = 0x8100 ∨ be p 12 2 = 0x88A8 then bits (be p 14 2) 15 13 else 0

/-- The FCS of a frame (R289): IEEE 802.3's CRC-32. -/
def fcsOf (d : List Byte) : List Byte := natLE 4 (crc32 d)

/-- A frame arrives on an Ethernet port, its FCS included (R289, R297, R299): the MAC counts and drops one with a bad FCS. -/
def execEthFrameArrival (p : Fin 288) (fr : List Byte) (s : State) : Ans := keepQueue s <|
  let n := p.val / 8
  let data := fr.take (fr.length - 4)
  if lnkState s n ≠ lsActive || lnkNative s n || !portAssigned s p || fr.length < 64 || fr.length > 9216 then .next s
  else if fr.drop (fr.length - 4) ≠ fcsOf data then
    .next { s with par := { s.par with badFcs := smod 0 s.par.badFcs p (fun k => k + 1) } }
  else if (rxBuf s n).foldl (fun a r => a + r.data.length) 0 + data.length > 1048576 then .next (incF s (f_PAR_RXDROP_V n) 1)
  else
    let r : RxFrame := ⟨p, now s, s.par.seq, pcpOf data, data, none, 0⟩
    let s := setRxBuf { s with par := { s.par with seq := s.par.seq + 1 } } n (rxBuf s n ++ [r])
    .next (pfcCheck s n r.prio)

/-- An 802.1Qbb frame pauses or resumes priorities of a port (R289): the enable vector and the eight times, in quanta of 512 bit
times. -/
def execPfcFrame (p : Fin 288) (en : BitVec 8) (times : List (BitVec 16)) (s : State) : Ans := keepQueue s <|
  if !pfcOn s p || lnkState s (p.val / 8) != lsActive then .next s
  else
    let rate := 1600 / max 1 (members (lnkMode s (p.val / 8)))
    .next ((List.range 8).foldl (fun s k =>
      if bit en.toNat k then
        let q := ((times.getD k 0).toNat * 512 + rate - 1) / rate
        { s with sch := { s.sch with pause := sput 0 s.sch.pause (8 * p.val + k) (if q = 0 then 0 else now s + q) } }
      else s) s)

/-- Is a frame a segment of an open store connection (R365). -/
def siphonOwns (s : State) (k : PKey) : Bool :=
  k.proto == 6 && !k.frag && s.sip.conns.any (fun p => match p.2 with
    | some c => c.ip == k.sip && c.port == k.sport
    | none => false)

/-- An error of the meter that a delivery names (R304). -/
def meterErr (s : State) (res : Parsed) (err : TabErr) : State :=
  match err, res with
  | .entry 2 i unc, .deliver _ _ _ (some m) _ _ => if i.toNat = m then tableErr s 2 m unc else s
  | .entry 2 i unc, .drop (some m) _ _ => if i.toNat = m then tableErr s 2 m unc else s
  | _, _ => s

/-- Parses and looks up one frame. -/
def parseOne (s : State) (r : RxFrame) (err : TabErr) : Parsed × State :=
  let (k, mal) := parseFrameEth (rd s f_PAR_CFG_GENEVE_PORT) r.data
  if mal ≠ 0 then
    (excTo s (bit (rd s f_PAR_ACT_MAL) (mal - 1)) mal k, incF s (f_PAR_MAL_V mal) 1)
  else if (parseEth r.data).v6 && (parseEth r.data).udp && (parseEth r.data).dport == rd s f_PAR_CFG_LAT_PORT then
    (.lateral (parseEth r.data).rest, s)
  else if siphonOwns s (parseEth r.data) then (.drop none false 0, s)
  else
    match lookup s (keyOf r.port k) err with
    | (some res, s) => (ruleTo s res k, meterErr s (ruleTo s res k) err)
    | (none, s) => (excTo s (rd s f_PAR_ACT_NOMATCH == 1) 0 k, incF s f_PAR_NOMATCH_V 1)

/-- A pipeline parses the oldest unparsed frame of a link (R296–R301). -/
def execFrameParse (n : Fin 36) (err : TabErr) (s : State) : Ans := keepQueue s <|
  let l := rxBuf s n
  match l.findIdx? (fun r => r.res.isNone) with
  | none => .next s
  | some i => match l[i]? with
    | none => .next s
    | some r =>
      let (res, s) := parseOne s r err
      .next (setRxBuf s n (l.set i { r with res := some res }))

/-! ### Meters (R307, R308) -/

/-- The colour a meter gives a frame of `b` bytes at a time; 0 green, 1 yellow, 2 red (RFC 2697, RFC 2698). -/
def meterRun (m : Meter) (t b colour : Nat) : Nat × Meter :=
  let r := m.rec_
  let mode := bits r 63 62
  let cir := bits r 57 36
  let pir := bits r 35 14
  let dt := t - m.at_
  let c := if bit r 61 then colour else 0
  let need := 8000 * b
  if mode = 1 then
    -- tokens fill C first and overflow into E
    let c1 := m.b1 + cir * dt
    let cap := 8000 * m.cbs
    let b1 := min c1 cap
    let b2 := min (m.b2 + (c1 - b1)) (8000 * m.ebs)
    if c = 0 ∧ need ≤ b1 then (0, { m with b1 := b1 - need, b2 := b2, at_ := t })
    else if c ≤ 1 ∧ need ≤ b2 then (1, { m with b1 := b1, b2 := b2 - need, at_ := t })
    else (2, { m with b1 := b1, b2 := b2, at_ := t })
  else
    let b1 := min (m.b1 + cir * dt) (8000 * m.cbs)
    let b2 := min (m.b2 + pir * dt) (8000 * m.ebs)
    if c = 2 ∨ b2 < need then (2, { m with b1 := b1, b2 := b2, at_ := t })
    else if c = 1 ∨ b1 < need then (1, { m with b1 := b1, b2 := b2 - need, at_ := t })
    else (0, { m with b1 := b1 - need, b2 := b2 - need, at_ := t })

/-- The colour a colour-aware meter takes from a frame. -/
def colourIn (r : Nat) (dei : Bool) (dscp : Nat) : Nat :=
  if bit r 60 then (match bits dscp 2 1 with
    | 2 => 1
    | 3 => 2
    | _ => 0)
  else b2n dei

/-- Meters a frame: its colour and whether it is dropped. -/
def meterFrame (s : State) (i : Nat) (r : RxFrame) (dei : Bool) (dscp : Nat) : Nat × Bool × State :=
  let m := sget Meter.none s.par.meters i
  if !m.valid || bits m.rec_ 63 62 == 0 then (0, false, s)
  else
    let (c, m') := meterRun m r.at_ (max 60 r.data.length + 4) (colourIn m.rec_ dei dscp)
    let m' := { m' with cnt := m'.cnt.set c (min (m'.cnt.getD c 0 + 1) (2 ^ 64 - 1)) }
    let s := { s with par := { s.par with meters := sput Meter.none s.par.meters i m' } }
    (c, (c == 1 && bit m.rec_ 59) || (c == 2 && bit m.rec_ 58), s)

/-- Must a metered frame wait: an earlier frame, by arrival and ingress port, may use the same meter (R308). -/
def meterWaits (s : State) (i : Nat) (r : RxFrame) : Bool :=
  s.par.buf.any (fun p => p.2.any (fun q =>
    (decide (q.at_ < r.at_) || (q.at_ == r.at_ && decide (q.port < r.port))) &&
    (match q.res with
      | none => true
      | some (.deliver _ _ _ (some j) _ _) => j == i
      | some (.drop (some j) _ _) => j == i
      | _ => false)))

/-! ### Delivery (R305) -/

/-- BLEN of a POST. -/
def postLen (b : List Byte) : Nat := le b 16 2

/-- The status that a POST's fields give at its fetch (R305, R236). -/
def postValidate (b : List Byte) : Nat :=
  if le b 0 1 ≠ 1 then stOpcode
  else if headerBad b || !zeroAt b 18 30 || !zeroAt b 56 8 || postLen b < 64 || postLen b > 16384 then stField
  else stOk

/-- POST (R305): the entry offers its buffer. -/
def execPost (f : Fin 262144) (i : Fin 65536) (s : State) : Ans := keepQueue s <|
  match entryOf s f i with
  | some e =>
    if e.ph = .fetched ∧ (furClass s f = clRx ∨ furClass s f = clExc) ∧ e.op = 1 then
      .next (modEntry s f i (fun e => { e with ph := .running }))
    else .next s
  | none => .next s

/-- SOURCE code of packet data (R228). -/
def srcPacket : Nat := 9

/-- Removes the head of a link's buffer. -/
def dropHead (s : State) (n : Nat) (r : RxFrame) : State :=
  pfcCheck (setRxBuf s n ((rxBuf s n).drop 1)) n r.prio

/-- Delivers a frame to its furrow's next POST (R305). The frame stays while a POST has been fetched or can be; otherwise it is dropped and
counted. -/
def deliver (s : State) (n : Nat) (r : RxFrame) (f : Nat) (exc : Bool) (reason colour : Nat) : State :=
  let noBuf := dropHead (incF s f_PAR_NOBUF_V 1) n r
  match furOf s f with
  | none => noBuf
  | some x =>
    if !x.enabled || x.cls != (if exc then clExc else clRx) then noBuf
    else match s.infl.find? (fun e => e.f == f && !e.ended) with
      | none => if ringReady x && !flrStops s x.owner then s else noBuf
      | some e =>
        if e.ph ≠ .running then s
        else
          let d := r.data.take (postLen e.b)
          let res := d.length + 2 ^ 14 * b2n (decide (d.length < r.data.length)) + 2 ^ 15 * b2n exc + 2 ^ 16 * reason + 2 ^ 21 * r.port +
            2 ^ 30 * colour
          match runMM s (writeSp (ioOf e) x.owner (le e.b 48 8) d) with
          | (.ok _, s) => endEntry (dropHead s n r) f e.i stOk res
          | (.error (.page t p w), s) =>
            if e.again = some (pageKey p w) then endEntry (dropHead s n r) f e.i stDenied noResult
            else raisePage (modEntry s f e.i (fun e => { e with ph := .paging })) (.entry f e.i) srcPacket t p w
          | (.error err, s) => endEntry (dropHead s n r) f e.i (merrStatus err) noResult

/-- Reordering releases the oldest frame of a link, once it is parsed (R299, R305, R307). -/
def execFrameRelease (n : Fin 36) (s : State) : Ans := keepQueue s <|
  match rxBuf s n with
  | r :: _ => match r.res with
    | none => .next s
    | some (.drop none _ _) => .next (dropHead s n r)
    | some (.drop (some i) dei dscp) => .next (if meterWaits s i r then s else dropHead (meterFrame s i r dei dscp).2.2 n r)
    | some (.lateral l) => .next (latArrive (dropHead s n r) l)
    | some (.deliver f exc reason m dei dscp) =>
      match m with
      | none => .next (deliver s n r f exc reason r.colour)
      | some i =>
        if meterWaits s i r then .next s
        else
          let (c, dr, s) := meterFrame s i r dei dscp
          if dr then .next (dropHead s n r)
          else
            -- it is metered once, however long it waits for a POST
            let r := { r with res := some (.deliver f exc reason none dei dscp), colour := c }
            .next (deliver (setRxBuf s n (r :: (rxBuf s n).drop 1)) n r f exc reason c)
  | [] => .next s

/-! ### Rule commands (R303) -/

/-- A staging register. -/
def stg (s : State) (i : Nat) : Nat := rd s (f_PAR_STG_V i)

/-- Writes a staging register. -/
def setStg (s : State) (i v : Nat) : State := wr s (f_PAR_STG_V i) v

/-- The key, or the mask, in the staging registers. -/
def stgWide (s : State) (lo : Nat) : Nat := (List.range 6).foldl (fun a i => a + stg s (lo + i) * 2 ^ (64 * i)) 0

/-- Writes six staging registers. -/
def setStgWide (s : State) (lo v : Nat) : State := (List.range 6).foldl (fun s i => setStg s (lo + i) (v / 2 ^ (64 * i) % 2 ^ 64)) s

/-- PAR_RULE_CMD.RESULT. -/
def ruleResult (s : State) (st : Nat) : State := wr s f_PAR_RULE_CMD_RESULT st

/-- Is a result word free of reserved bits and codes (R301). -/
def ruleOk (w : Nat) : Bool := bits w 63 35 == 0 && bits w 1 0 != 3

/-- Is a meter record free of reserved bits and codes, CIR above its bound among them (R307; DEDUCED, log entry 43). -/
def meterOk (w : Nat) : Bool := bits w 63 62 != 3 && bits w 13 0 == 0 && decide (bits w 57 36 ≤ 1600000)

/-- A WRITE command (R302, R303). -/
def execRuleWrite (table : BitVec 2) (index : BitVec 14) (s : State) : Ans := keepQueue s <|
  if !barOpen s then .next s else
  let i := index.toNat
  let w := stg s 12
  match table.toNat with
  | 0 =>
    if !ruleOk w then .next (ruleResult s stField)
    else
      let t : Tern := { sget Tern.none s.par.tern i with valid := true, key := stgWide s 0, mask := stgWide s 6, res := w }
      .next (ruleResult { s with par := { s.par with tern := sput Tern.none s.par.tern i t } } stOk)
  | 1 =>
    let key := stgWide s 0
    if !ruleOk w then .next (ruleResult s stField)
    else
      let (b0, b1) := exactBuckets key
      let place := match exactFind s key with
        | some j => some j
        | none => ([b0, b1].flatMap (fun b => [4 * b, 4 * b + 1, 4 * b + 2, 4 * b + 3])).find? (fun j => (sget none s.par.exact_ j).isNone)
      match place with
      | none => .next (ruleResult s stNoRes)
      | some j => .next (ruleResult { s with par := { s.par with exact_ := sput none s.par.exact_ j (some (key, w)) } } stOk)
  | 2 =>
    if !meterOk w then .next (ruleResult s stField)
    else
      let cbs := stg s 0 % 2 ^ 24
      let ebs := stg s 1 % 2 ^ 24
      let m := sget Meter.none s.par.meters i
      let m : Meter := ⟨true, w, cbs, ebs, 8000 * cbs, 8000 * ebs, now s, m.cnt⟩
      .next (ruleResult { s with par := { s.par with meters := sput Meter.none s.par.meters i m } } stOk)
  | _ => .next (writeIgnored s)

/-- A DELETE command (R303). -/
def execRuleDelete (table : BitVec 2) (index : BitVec 14) (s : State) : Ans := keepQueue s <|
  if !barOpen s then .next s else
  let i := index.toNat
  match table.toNat with
  | 0 =>
    let t : Tern := { sget Tern.none s.par.tern i with valid := false }
    .next (ruleResult { s with par := { s.par with tern := sput Tern.none s.par.tern i t } } stOk)
  | 1 => match exactFind s (stgWide s 0) with
    | none => .next (ruleResult s stField)
    | some j => .next (ruleResult { s with par := { s.par with exact_ := sput none s.par.exact_ j none } } stOk)
  | 2 =>
    let m : Meter := { sget Meter.none s.par.meters i with valid := false }
    .next (ruleResult { s with par := { s.par with meters := sput Meter.none s.par.meters i m } } stOk)
  | _ => .next (writeIgnored s)

/-- A READ command (R303, R307). An uncorrectable entry is made invalid first, so an exact key is then absent (R304). -/
def execRuleRead (table : BitVec 2) (index : BitVec 14) (err : Fin 3) (s : State) : Ans := keepQueue s <|
  if !barOpen s then .next s else
  let i := index.toNat
  let seen (s : State) (i : Nat) : State := if err = 0 then s else tableErr s table.toNat i (err == 2)
  match table.toNat with
  | 0 =>
    let s := seen s i
    let t := sget Tern.none s.par.tern i
    .next (ruleResult (setStg (setStg (setStgWide (setStgWide s 0 t.key) 6 t.mask) 12 t.res) 13 t.hits) stOk)
  | 1 => match exactFind s (stgWide s 0) with
    | none => .next (ruleResult s stField)
    | some j => match sget none (seen s j).par.exact_ j with
      | none => .next (ruleResult (seen s j) stField)
      | some p => .next (ruleResult (setStg (seen s j) 12 p.2) stOk)
  | 2 =>
    let s := seen s i
    let m := sget Meter.none s.par.meters i
    let s := setStg (setStg (setStg s 12 m.rec_) 0 m.cbs) 1 m.ebs
    .next (ruleResult ((List.range 3).foldl (fun s k => setStg s (2 + k) (m.cnt.getD k 0)) s) stOk)
  | _ => .next (writeIgnored s)

end Sys2Proof.Machine
end

