-- ==== Sys2Proof/Machine/SchedOps.lean ====
section
/-! DEFINITION. Machine/SchedOps.lean: SEND entries, class queues, selection, weirs, services, gates and histograms
(R305–R314).
Choices beyond the words of the spec: log entries DESIGN CHOICE 41, 44; PRESUMED 42. -/

namespace Sys2Proof.Machine

/-! ### Class queues (R306, R309) -/

/-- A class queue. -/
def queueOf (s : State) (p c : Nat) : List QItem := sget [] s.sch.queues (16 * p + c)

/-- Replaces a class queue. -/
def setQueue (s : State) (p c : Nat) (q : List QItem) : State :=
  { s with sch := { s.sch with queues := sput [] s.sch.queues (16 * p + c) q } }

/-- Is a port on a native link. -/
def portNative (s : State) (p : Nat) : Bool := lnkNative s (p / 8)

/-- B of a frame (R307, R310). -/
def frameB (s : State) (p : Nat) (it : QItem) : Nat :=
  if portNative s p then 20 + it.data.length else max 60 it.data.length + 4

/-- Data rate of a port, bits per ns (R289). -/
def portRate (s : State) (p : Nat) : Nat := 1600 / max 1 (members (lnkMode s (p / 8)))

/-- Time of a frame on the wire, ps (R283, R310). -/
def wireTime (s : State) (p : Nat) (it : QItem) : Nat :=
  if portNative s p then 320 * slotsFor it.data.length else (frameB s p it + 20) * 8000 / portRate s p

/-! ### Gates (R312, R313) -/

/-- Gates, start and length of the entry of a list at an offset within its cycle; fuel is the list. -/
def entryAt (cycle pos : Nat) : Nat → List (Nat × Nat) → Nat × Nat × Nat
  | at_, [] => (0xFFFF, at_, cycle - at_)
  | at_, [(g, _)] => (g, at_, cycle - at_)
  | at_, (g, n) :: r => if pos < at_ + n ∨ cycle ≤ at_ + n then (g, at_, min n (cycle - at_)) else entryAt cycle pos (at_ + n) r

/-- Offset of an instant within a list's cycle. -/
def cyclePos (g : GateList) (t : Nat) : Nat := (((t : Int) - g.base) % (max 1 g.cycle : Nat)).toNat

/-- The OPER list of a port. -/
def operOf (s : State) (p : Nat) : Option GateList := sget none s.sch.oper p

/-- The gates of a list at an instant, and the instant at which its entry ends. -/
def gatesAt (g : GateList) (t : Nat) : Nat × Nat :=
  let pos := cyclePos g t
  let (gs, a, n) := entryAt (max 1 g.cycle) pos 0 g.ents
  (gs, t + (a + n - pos))

/-- The ADMIN list of a port, as its registers give it. -/
def adminOf (s : State) (p : Nat) : GateList :=
  ⟨(regv s (f_SCH_GCL_BASE_V p).key).toNat, rd s (f_SCH_GCL_CYCLE_V p),
    (List.range (min 256 (rd s (f_SCH_GCL_LEN_V p)))).map (fun i =>
      let e := (sget 0 s.sch.admin (256 * p + i)).toNat
      (bits e 63 48, bits e 31 0))⟩

/-- The first instant ≥ CHANGE_AT of the form BASE + k × CYCLE of ADMIN (R312). -/
def changeInstant (s : State) (p : Nat) : Nat :=
  let a := adminOf s p
  let at_ := (regv s (f_SCH_GCL_CHANGE_AT_V p).key).toNat
  let r := cyclePos a at_
  if r = 0 then at_ else at_ + (max 1 a.cycle - r)

/-- Is a class gated: some OPER entry closes it (R312). -/
def classGated (s : State) (p c : Nat) : Bool :=
  match operOf s p with
  | some g => g.ents.any (fun e => !bit e.1 c)
  | none => false

/-- Is a class's gate open now; the classes held by R294 are closed. -/
def gateOpen (s : State) (p c : Nat) : Bool :=
  bit (sget 0xFFFF s.sch.gates p) c && !(classGated s p c && (lnkOf s (p / 8)).hold != 0)

/-- The next instant from `t` on at which a list closes a class: fuel bounds the entries walked. -/
def nextClose (g : GateList) (c : Nat) : Nat → Nat → Option Nat
  | 0, _ => none
  | f + 1, t =>
    let (gs, e) := gatesAt g t
    if bit gs c then nextClose g c f e else some t

/-- The next closing of a class's gate, an armed change included (R312, R313). -/
def closingTime (s : State) (p c : Nat) : Option Nat :=
  let oper := match operOf s p with
    | some g => nextClose g c 520 (now s)
    | none => none
  if nin s.sch.armed p then
    let x := changeInstant s p
    let adm := if (adminOf s p).ents = [] ∨ bit (gatesAt (adminOf s p) x).1 c then none else some x
    match oper, adm with
    | some a, some b => some (min a b)
    | some a, none => if a < x then some a else none
    | none, y => y
  else oper

/-- May a gated class start a frame now (R313): not within the freeboard, and not past its closing. -/
def gateAdmits (s : State) (p c : Nat) (it : QItem) : Bool :=
  match closingTime s p c with
  | none => true
  | some t =>
    let left := 1000 * (t - now s)
    decide (rd s (f_SCH_SVC_FREEBOARD p) < left) && decide (wireTime s p it + 1000 * rd s (f_SCH_SYNC_U_V p) ≤ left)

/-! ### Weirs (R310, R311) -/

/-- Service in effect: 0 NORMAL, 1 RECOVERY, 2 TEST. -/
def portSvc (s : State) (p : Nat) : Nat := sget 1 s.sch.svc p

/-- Brings a port's credits and tokens up to now (R310, R311). -/
def accrue (s : State) (p : Nat) : State :=
  let dt := s.clk - sget 0 s.sch.upTo p
  let svc := portSvc s p
  let s := (List.range 16).foldl (fun s c =>
    let k := 16 * p + c
    if svc = 0 then
      if rd s (f_SCH_CLS_CBS_EN p c) = 0 then s
      else
        let v := sget 0 s.sch.cbs k
        let up : Int := 1600 * (rd s (f_SCH_CLS_IDLE_SLOPE p c) * dt : Nat)
        let v' := if !gateOpen s p c then v
          else if !(queueOf s p c).isEmpty then v + up
          else if v < 0 then min 0 (v + up) else 0
        { s with sch := { s.sch with cbs := sput 0 s.sch.cbs k v' } }
    else
      let cap : Int := (8000 * rd s (f_SCH_BURSTp_c_V p c) : Nat)
      let v : Int := sget 0 s.sch.tok k + (rd s (f_SCH_CLS_TB_RATE p c) * dt : Nat)
      { s with sch := { s.sch with tok := sput 0 s.sch.tok k (min cap v) } }) s
  { s with sch := { s.sch with upTo := sput 0 s.sch.upTo p s.clk } }

/-- Does a class's weir allow a frame (R310, R311). -/
def weirAllows (s : State) (p c : Nat) : Bool :=
  if portSvc s p = 0 then rd s (f_SCH_CLS_CBS_EN p c) == 0 || decide (0 ≤ sget 0 s.sch.cbs (16 * p + c))
  else rd s (f_SCH_CLS_TB_RATE p c) != 0 && decide (0 < sget 0 s.sch.tok (16 * p + c))

/-- What sending a frame takes from a class's weir. -/
def weirTake (s : State) (p c : Nat) (it : QItem) : State :=
  let k := 16 * p + c
  let b := frameB s p it
  if portSvc s p = 0 then
    if rd s (f_SCH_CLS_CBS_EN p c) = 0 then s
    else
      -- sendSlope over the transmission: R is taken here, IDLE_SLOPE accrues with the time
      let v : Int := sget 0 s.sch.cbs k - (12800000 * b : Nat)
      { s with sch := { s.sch with cbs := sput 0 s.sch.cbs k v } }
  else { s with sch := { s.sch with tok := sput 0 s.sch.tok k (sget 0 s.sch.tok k - (8000 * b : Nat)) } }

/-- The queue of a class has emptied: its deficit and a positive credit go (R309, R310). -/
def emptied (s : State) (p c : Nat) : State :=
  if !(queueOf s p c).isEmpty then s
  else
    let k := 16 * p + c
    { s with sch := { s.sch with
      deficit := sput 0 s.sch.deficit k 0
      cbs := sput 0 s.sch.cbs k (min 0 (sget 0 s.sch.cbs k)) } }

/-- Queues a frame; an unassigned port's queues accept nothing (R295). -/
def enqueue (s : State) (p c : Nat) (it : QItem) : State :=
  if !portAssigned s p then s
  else
    let s := accrue s p
    setQueue s p c (queueOf s p c ++ [it])

/-! ### SEND (R306) -/

/-- PORT of a SEND. -/
def txPort (b : List Byte) : Nat := le b 18 2

/-- LEN of a SEND. -/
def txLen (b : List Byte) : Nat := le b 16 2

/-- The status that a SEND's fields give at its fetch (R306, R295). -/
def txValidate (s : State) (owner : Nat) (b : List Byte) : Nat :=
  if le b 0 1 ≠ 1 then stOpcode
  else if headerBad b || !zeroAt b 20 28 || !zeroAt b 56 8 || txLen b < 60 || txLen b > 9212 || !portAssigned s (txPort b) ||
      portNative s (txPort b) then stField
  else if owner < 512 && !bit (rd s (f_SCH_TXMASK_V owner)) (txPort b / 8) then stDenied
  else stOk

/-- Does the class queue of a SEND have room for another fetched entry (R306). -/
def txAdmits (s : State) (sched : Nat) (b : List Byte) : Bool :=
  let same (e : Entry) : Bool := furClass s e.f == clTx && !e.ended && txPort e.b == txPort b &&
    ((furOf s e.f).map Furrow.sched).getD 16 == sched
  decide ((s.infl.filter same).length < 256)

/-- SEND (R306): the frame joins the class queue of its furrow's SCHED. Frames of one furrow keep their order. A port that a MODE change has
unassigned since the fetch accepts nothing (R295). -/
def execSend (f : Fin 262144) (i : Fin 65536) (s : State) : Ans := keepQueue s <|
  .next (runEntry s f i clTx 1 fun e =>
    if s.infl.any (fun x => x.f == e.f && decide (x.seq < e.seq) && (decide (x.ph = .fetched) || decide (x.ph = .paging))) then s
    else if !portAssigned s (txPort e.b) || portNative s (txPort e.b) then endEntry s f i stField noResult
    else withData s e srcPacket (readSp (ioOf e) (furOwner s f) (le e.b 48 8) (txLen e.b)) fun d s =>
      let c := ((furOf s f).map Furrow.sched).getD 0
      enqueue (modEntry s f i (fun e => { e with ph := .running })) (txPort e.b) c ⟨d, 0, some (f.val, i.val), now s, 0⟩)

/-! ### Selection (R309–R313) -/

/-- Is the priority of a frame paused on its port by 802.1Qbb (R289). -/
def pfcHeld (s : State) (p : Nat) (it : QItem) : Bool :=
  pfcOn s p && !portNative s p && decide (now s < sget 0 s.sch.pause (8 * p + pcpOf it.data))

/-- Is a class eligible, and with which head (R309). -/
def eligible (s : State) (p c : Nat) : Option QItem :=
  match queueOf s p c with
  | [] => none
  | it :: _ =>
    if weirAllows s p c && gateOpen s p c && (!classGated s p c || gateAdmits s p c it) && !pfcHeld s p it &&
        (!portNative s p || dataRoom s (p / 8) it.vc it.data.length) then some it else none

/-- QUANTUM of a class. -/
def quantum (s : State) (p c : Nat) : Nat := rd s (f_SCH_CLS_QUANTUM p c)

/-- The weighted group's rounds (R309): fuel, the class looked at, the deficits. Answers the class served and the deficits. -/
def dwrr (s : State) (p : Nat) (some_ : Bool) : Nat → Nat → SMap Int → Option Nat × SMap Int
  | 0, _, d => (none, d)
  | f + 1, c, d =>
    let nxt := if c = 15 then 4 else c + 1
    match eligible s p c with
    | none => dwrr s p some_ f nxt d
    | some it =>
      if quantum s p c = 0 && some_ then dwrr s p some_ f nxt d
      else
        let k := 16 * p + c
        let b : Int := (frameB s p it : Nat)
        if sget 0 d k ≥ b then (some c, sput 0 d k (sget 0 d k - b))
        else dwrr s p some_ f nxt (sput 0 d k (sget 0 d k + (max (quantum s p c) 1 : Nat)))

/-- The one-step Sync of IEEE 1588-2019 (R289): the PCS writes the time base into the originTimestamp of a Sync message over Ethernet that
announces no Follow_Up (PRESUMED from that standard, log entry 42). -/
def syncStamp (s : State) (d : List Byte) : List Byte :=
  let tag (o : Nat) : Nat := if be d o 2 = 0x8100 ∨ be d o 2 = 0x88A8 then o + 4 else o
  let o := tag (tag 12) + 2
  if be d (o - 2) 2 = 0x88F7 ∧ lef d o 1 3 0 = 0 ∧ lef d (o + 6) 1 1 1 = 0 ∧ o + 44 ≤ d.length then
    d.take (o + 34) ++ natBE 6 (now s / 1000000000) ++ natBE 4 (now s % 1000000000) ++ d.drop (o + 44)
  else d

/-- An Ethernet frame as the MAC sends it: stamped, padded to 60 bytes, with its FCS (R289, R306). -/
def macFrame (s : State) (d : List Byte) : List Byte :=
  let d := padTo (max 60 d.length) (syncStamp s d)
  d ++ fcsOf d

/-- Notes that a frame leaves its queue in this ns, for the histograms' sample of the same tick (R314). -/
def noteLeft (s : State) (p c : Nat) (it : QItem) : State :=
  { s with sch := { s.sch with
    left := (if s.sch.leftAt = s.clk then s.sch.left else []) ++ [(16 * p + c, it.data.length, it.at_)]
    leftAt := s.clk } }

/-- A frame leaves (R306): native frames as DATA, Ethernet frames as kind 16 + member. -/
def sendOut (s : State) (p c : Nat) (it : QItem) : State :=
  let s := setQueue (noteLeft s p c it) p c ((queueOf s p c).drop 1)
  let t := wireTime s p it
  let s := weirTake s p c it
  let s := if portNative s p then sendData s (p / 8) it.vc it.data
    else emit s (.link (p / 8) (16 + p % 8) (macFrame s it.data))
  let s := { s with sch := { s.sch with busy := sput 0 s.sch.busy p (1000 * s.clk + t) } }
  let s := match it.ent with
    | some (f, i) => endEntry s f i stOk noResult
    | none => s
  emptied s p c

/-- A change of service takes effect at a frame boundary (R311): buckets and credits start at 0. -/
def takeService (s : State) (p : Nat) : State :=
  let v := rd s (f_SCH_SVC_SERVICE p)
  if v = portSvc s p then s
  else { s with sch := { s.sch with
    svc := sput 1 s.sch.svc p v
    cbs := sclear s.sch.cbs (16 * p) 16
    tok := sclear s.sch.tok (16 * p) 16
    upTo := sput 0 s.sch.upTo p s.clk } }

/-- The gates change to those of the entry in force, and classes held by R294 whose exchange has decided reopen (R312, R294). -/
def gateStep (s : State) (p : Nat) : State :=
  let s := accrue s p
  match operOf s p with
  | none => s
  | some g =>
    let s := { s with sch := { s.sch with gates := sput 0xFFFF s.sch.gates p (gatesAt g (now s)).1 } }
    if (lnkOf s (p / 8)).hold = 3 then modLnk s (p / 8) (fun l => { l with hold := 0 }) else s

/-- ADMIN becomes OPER (R312). -/
def listStep (s : State) (p : Nat) : State :=
  let s := accrue s p
  let a := adminOf s p
  let o := if a.ents = [] then none else some a
  { s with sch := { s.sch with
    armed := ndel s.sch.armed p
    oper := sput none s.sch.oper p o
    gates := sput 0xFFFF s.sch.gates p (match o with
      | some g => (gatesAt g (now s)).1
      | none => 0xFFFF) } }

/-- Has the instant of an armed change come. -/
def changeDue (s : State) (p : Nat) : Bool := nin s.sch.armed p && decide (changeInstant s p ≤ now s)

/-- What the time base has brought to a port's gates before a frame boundary: an armed change, then an entry boundary (R312). -/
def gateSync (s : State) (p : Nat) : State :=
  let s := if changeDue s p then listStep s p else s
  match operOf s p with
  | some g => if sget 0xFFFF s.sch.gates p = (gatesAt g (now s)).1 then s else gateStep s p
  | none => s

/-- Drops what may not be sent any more from a port's queues (R324). -/
def staleDrop (s : State) (p : Nat) : State :=
  (List.range 16).foldl (fun s c =>
    if (queueOf s p c).any (fun it => it.until_ != 0 && decide (it.until_ ≤ now s)) then
      emptied (setQueue s p c ((queueOf s p c).filter (fun it => it.until_ == 0 || decide (now s < it.until_)))) p c
    else s) s

/-- Frame boundary of a port (R309): a port that is not ACTIVE, or that MODE has unassigned, aborts what it dequeues (R306). -/
def execFrameSelect (p : Fin 288) (s : State) : Ans := keepQueue s <|
  if 1000 * s.clk < sget 0 s.sch.busy p then .next s
  else if lnkState s (p.val / 8) = lsSleep then .next s
  else if lnkState s (p.val / 8) ≠ lsActive || !portAssigned s p then .next (portDrop s p)
  else
    let s := takeService (accrue (staleDrop (gateSync s p) p) p) p
    match (List.range 4).find? (fun c => (eligible s p c).isSome) with
    | some c => match eligible s p c with
      | some it => .next (sendOut s p c it)
      | none => .next s
    | none =>
      let grp := (List.range 12).map (fun c => c + 4)
      if !grp.any (fun c => (eligible s p c).isSome) then .next s
      else
        let some_ := grp.any (fun c => (eligible s p c).isSome && quantum s p c != 0)
        let (r, d) := dwrr s p some_ 120000 (sget 4 s.sch.ptr p) s.sch.deficit
        let s := { s with sch := { s.sch with deficit := d } }
        match r with
        | none => .next s
        | some c => match eligible s p c with
          | some it => .next (sendOut { s with sch := { s.sch with ptr := sput 4 s.sch.ptr p c } } p c it)
          | none => .next s

/-- A write of SCH_SVCp.SERVICE (R311, R9). -/
def execServiceWrite (p : Fin 288) (v : BitVec 2) (s : State) : Ans := keepQueue s <|
  if !barOpen s then .next s else
  if v.toNat = 3 ∨ (v.toNat = 0 ∧ lnkState s (p.val / 8) = lsTraining) then .next (writeIgnored s)
  else .next (wr s (f_SCH_SVC_SERVICE p) v.toNat)

/-- An entry of a port's gate list ends (R312). -/
def execGateEntryBoundary (p : Fin 288) (s : State) : Ans := keepQueue s <| .next (gateStep s p)

/-- The armed change arrives (R312): ADMIN becomes OPER. -/
def execGateListChange (p : Fin 288) (s : State) : Ans := keepQueue s <| .next (if changeDue s p then listStep s p else s)

/-! ### Histograms (R314) -/

/-- The bucket of a value in units of `u`. -/
def bucket (u v : Nat) : Nat := if v < u then 0 else min 15 ((v / u).log2 + 1)

/-- Adds 1 to a histogram word, saturating. -/
def histInc (s : State) (k : Nat) : State :=
  let v := (sget 0 s.sch.hist k).toNat
  { s with sch := { s.sch with hist := sput 0 s.sch.hist k (BitVec.ofNat 32 (min (v + 1) (2 ^ 32 - 1))) } }

/-- Raises a running maximum. -/
def histMax (s : State) (k v : Nat) : State :=
  if (sget 0 s.sch.hist k).toNat < v then
    { s with sch := { s.sch with hist := sput 0 s.sch.hist k (BitVec.ofNat 32 (min v (2 ^ 32 - 1))) } }
  else s

/-- SCH_HWIN shows the queue that SCH_HSEL selects, live or as the last snapshot holds it. -/
def histShow (s : State) : State :=
  let q := rd s f_SCH_HSEL_QUEUE
  let src := if rd s f_SCH_HSEL_SHADOW = 1 then s.sch.shadow else s.sch.hist
  (List.range 34).foldl (fun s i => wr s (f_SCH_HWIN_V i) (sget 0 src (34 * q + i)).toNat) s

/-- One queue's sample: depth in bytes and age of its head, as the queue stands at the start of the tick: without the frames queued in it, with
those that have left in it (R314). -/
def histSample (s : State) (p c : Nat) : State :=
  let gone := if s.sch.leftAt = s.clk then (s.sch.left.filter (fun x => x.1 == 16 * p + c)).map Prod.snd else []
  let q := (gone ++ (queueOf s p c).map (fun it => (it.data.length, it.at_))).filter (fun x => decide (x.2 < now s))
  let depth := q.foldl (fun a x => a + x.1) 0
  let age := match q with
    | x :: _ => now s - x.2
    | [] => 0
  let k := 34 * (16 * p + c)
  histMax (histMax (histInc (histInc s (k + bucket 256 depth)) (k + 16 + bucket 100 age)) (k + 32) depth) (k + 33) age

/-- An instant that is a multiple of SAMPLE: every class queue of the port samples (R314). -/
def execQueueHistogramSample (p : Fin 288) (s : State) : Ans := keepQueue s <|
  let n := now s / (1000 * max 1 (rd s (f_SCH_SAMPLE_V p)))
  if n ≤ sget 0 s.sch.sampled p || rd s (f_SCH_SAMPLE_V p) == 0 then .next s
  else
    let s := (List.range 16).foldl (fun s c => histSample s p c) s
    .next (histShow { s with sch := { s.sch with sampled := sput 0 s.sch.sampled p n } })

/-- Was a port's sample taken in this very ns (R12, R314). -/
def sampledNow (s : State) (p : Nat) : Bool :=
  let d := 1000 * rd s (f_SCH_SAMPLE_V p)
  d != 0 && now s % d == 0 && sget 0 s.sch.sampled p == now s / d

/-- A write of SCH_HSEL with bit [31] = 1 clears the selected queue's histograms and maxima; a sample of the same cycle is kept (R314). -/
def execHistogramClear (q : BitVec 13) (shadow : Bool) (s : State) : Ans := keepQueue s <|
  if !barOpen s then .next s else
  let n := q.toNat
  let s := wr (wr s f_SCH_HSEL_QUEUE n) f_SCH_HSEL_SHADOW (b2n shadow)
  let s := { s with sch := { s.sch with hist := sclear s.sch.hist (34 * n) 34 } }
  .next (histShow (if sampledNow s (n / 16) then histSample s (n / 16) (n % 16) else s))

end Sys2Proof.Machine
end

