-- ==== Sys2Proof/Machine/Lateral.lean ====
section
/-! DEFINITION. Machine/Lateral.lean: lateral remote memory transport: entries, windows, sender, receiver, groups (R315–R332).
Choices beyond the words of the spec: log entries DESIGN CHOICE 45. -/

namespace Sys2Proof.Machine

/-! ### Entries (R320–R322) -/

/-- DST_NODE. -/
def lNode (b : List Byte) : Nat := le b 16 3
/-- DST_TRN. -/
def lTrn (b : List Byte) : Nat := lef b 20 2 8 0
/-- GROUP. -/
def lGroup (b : List Byte) : Nat := le b 22 2
/-- CLOSE. -/
def lClose (b : List Byte) : Bool := bit (le b 24 1) 7
/-- PERM. -/
def lPerm (b : List Byte) : Nat := lef b 24 1 6 4
/-- AOP. -/
def lAop (b : List Byte) : Nat := lef b 24 1 3 0
/-- GCOUNT. -/
def lGcount (b : List Byte) : Nat := le b 26 2
/-- KEY. -/
def lKey (b : List Byte) : Nat := le b 28 4
/-- OFFSET. -/
def lOff (b : List Byte) : Nat := le b 32 8
/-- LADDR. -/
def lAddr (b : List Byte) : Nat := le b 40 8
/-- Length of a WRITE or READ. -/
def lLen (b : List Byte) : Nat := lef b 48 8 18 0

/-- A reserved field that is not zero (R10, R320). -/
def latReserved (b : List Byte) : Bool :=
  let op := le b 0 1
  let win := op == 8 || op == 9
  headerBad b || !zeroAt b 25 1 ||
  (if win then !zeroAt b 16 8 || lef b 24 1 7 7 != 0 || lAop b != 0 || !zeroAt b 26 2 || !zeroAt b 48 16 ||
      (op == 9 && (lPerm b != 0 || !zeroAt b 32 16))
    else le b 19 1 != 0 || lef b 20 2 15 9 != 0 || lPerm b != 0 || (op != 1 && (lGroup b != 0 || lClose b)) ||
      (op == 3 && lAop b > 2) || (op != 3 && lAop b != 0) || (!(op == 1 && lClose b) && lGcount b != 0) ||
      (op != 3 && (lef b 48 8 63 19 != 0 || !zeroAt b 56 8)) || (op == 3 && lAop b != 2 && !zeroAt b 48 8))

/-- The rules of R320–R322 that an entry's own fields can break. -/
def latFieldBad (b : List Byte) : Bool :=
  let op := le b 0 1
  match op with
  | 1 | 2 => lLen b < 1 || lLen b > 262144 ||
      (lClose b && (lGroup b == 0 || lLen b > 64 || lOff b % 64 + lLen b > 64))
  | 3 => lOff b % 8 != 0 || lAddr b % 8 != 0
  | 8 => lOff b % 64 != 0 || lAddr b % 64 != 0 || lAddr b == 0 || lAddr b > 2 ^ 40
  | _ => false

/-- Ports over native links whose partner is a node (R316). -/
def nativePorts (s : State) (node : Nat) : List Nat :=
  ((List.range 36).filter (fun n => lnkNative s n && lnkState s n == lsActive && rd s (f_LNK_STAT_PEER n) == 1 &&
    rd s (f_LNK_STAT_PEER_NODE n) + rd s (f_LNK_PEERHI_V n) * 2 ^ 22 == node)).map (fun n => 8 * n)

/-- Ports over the Ethernet links of LAT_ETHMASK (R316). -/
def etherPorts (s : State) : List Nat :=
  ((List.range 36).filter (fun n => bit (rd s f_LAT_ETHMASK_LINKS) n && lnkState s n == lsActive && !lnkNative s n)).flatMap
    (fun n => portsOf s n)

/-- A node table entry (R317); none where it is out of range, invalid or has a reserved bit. -/
def nodeEntry (s : State) (node : Nat) : Option (List Byte) :=
  if node ≥ 2 ^ rd s f_LAT_NODETAB_LOG2N then none
  else
    let a := rd s f_LAT_NODETAB_BASE * 4096 + 32 * node
    match areaOf a with
    | .hbm e =>
      if rd s (f_TRN_EXT_OWNER e) ≠ 0x201 then none
      else
        let l := memBytes s a 32
        if lef l 0 1 0 0 = 0 ∨ lef l 0 1 7 1 ≠ 0 ∨ lef l 24 2 14 12 ≠ 0 ∨ !zeroAt l 26 6 then none else some l
    | _ => none

/-- The status that a LATERAL entry's fields give at its fetch (R317, R320, R321). -/
def latValidate (s : State) (b : List Byte) : Nat :=
  let op := le b 0 1
  if !(op == 1 || op == 2 || op == 3 || op == 8 || op == 9) then stOpcode
  else if latReserved b || latFieldBad b then stField
  else if op < 8 && lNode b != rd s f_LAT_CFG_NODE && (nativePorts s (lNode b)).isEmpty && (nodeEntry s (lNode b)).isNone then stField
  else stOk

/-- Sets LAT_USE from the tracker and the filter. -/
def latUse (s : State) : State := wr (wr s f_LAT_USE_TRACKER s.lat.msgs.length) f_LAT_USE_FILTER s.lat.filt.length

/-- Tracker entries of a turnout. -/
def msgCount (s : State) (owner : Nat) : Nat := (s.lat.msgs.filter (fun m => furOwner s m.f == owner)).length

/-- Can a LATERAL entry be fetched: transport on, a tracker entry and its turnout's quota free, no page stall (R323). -/
def latAdmits (s : State) (f owner : Nat) (b : List Byte) : Bool :=
  rd s f_LAT_CFG_EN == 1 && !s.infl.any (fun e => e.f == f && decide (e.ph = .paging)) &&
  (decide (8 ≤ le b 0 1) || (decide (s.lat.msgs.length < 65536) &&
    (decide (512 ≤ owner) || decide (msgCount s owner < (quotaOf s owner).tracker))))

/-- A window of a turnout. -/
def winOf (s : State) (t key : Nat) : Option Win := s.lat.wins.find? (fun w => w.t == t && w.key == key)

/-- Windows of a turnout. -/
def winCount (s : State) (t : Nat) : Nat := (s.lat.wins.filter (fun w => w.t == t)).length

/-- Removes windows. -/
def dropWins (s : State) (p : Win → Bool) : State := { s with lat := { s.lat with wins := s.lat.wins.filter (fun w => !p w) } }

/-- Packets of a message (R319). -/
def npktOf (b : List Byte) : Nat := if le b 0 1 = 3 then 1 else (lLen b + 2047) / 2048

/-- A tracker packet not yet sent. -/
def TxPkt.fresh : TxPkt := ⟨false, 0, 0, 0, 0, 0⟩

/-- What the fetch of a valid LATERAL entry does: a message takes its tracker entry; WIN_DEREG removes its window (R322, R323). -/
def latFetched (s : State) (e : Entry) : State :=
  let st := latValidate s e.b
  if st ≠ stOk then endEntry s e.f e.i st 0
  else if e.op = 9 then
    match winOf s (furOwner s e.f) (lKey e.b) with
    | none => endEntry s e.f e.i stField 0
    | some _ => dropWins s (fun w => w.t == furOwner s e.f && w.key == lKey e.b)
  else if e.op = 8 then s
  else latUse { s with lat := { s.lat with msgs := s.lat.msgs ++ [⟨e.f, e.i, 0, 0, List.replicate (npktOf e.b) TxPkt.fresh, 0⟩] } }

/-- A completion is posted: the tracker entry is free (R323). -/
def latCompleted (s : State) (f i : Nat) : State :=
  latUse { s with lat := { s.lat with msgs := s.lat.msgs.filter (fun m => !(m.f == f && m.i == i)) } }

/-- The tracker entry of an entry that has not ended. -/
def msgOf (s : State) (f i : Nat) : Option (Entry × Msg) :=
  match entryOf s f i, s.lat.msgs.find? (fun m => m.f == f && m.i == i) with
  | some e, some m => if e.ended then none else some (e, m)
  | _, _ => none

/-- Updates a tracker entry. -/
def modMsg (s : State) (f i : Nat) (g : Msg → Msg) : State :=
  { s with lat := { s.lat with msgs := s.lat.msgs.map (fun m => if m.f == f && m.i == i then g m else m) } }

/-- Bytes of packet `k` of a message. -/
def pktLen (b : List Byte) (k : Nat) : Nat := min 2048 (lLen b - 2048 * k)

/-- Ends a message (R320): the bytes of the packets known to be placed or received, retransmission rounds. -/
def latEnd (s : State) (e : Entry) (m : Msg) (st : Nat) : State :=
  let m := (s.lat.msgs.find? (fun x => x.f == e.f && x.i == e.i)).getD m
  let bytes := if e.op < 3 then m.pkts.zipIdx.foldl (fun a p => if p.1.done then a + pktLen e.b p.2 else a) 0 else 0
  let s := if st = stUncertain then incF s f_LAT_UNCERTAIN_V 1 else s
  endEntry s e.f e.i st (bytes + 2 ^ 24 * min 255 m.rounds)

/-- SOURCE code of lateral sends (R228). -/
def srcSend : Nat := 5
/-- SOURCE code of lateral receives (R228). -/
def srcLateral : Nat := 6

/-- The read through a port that an access waits for, if any. -/
def awaited {α : Type} (s : State) (x : MM α) : Option PortAsk :=
  match (runMM s x).1 with
  | .error (.wait q) => some q
  | _ => none

/-- Starts a message: every page that LADDR covers is translated before the first transmission (R323). -/
def latStart (s : State) (e : Entry) : State :=
  let o := furOwner s e.f
  let n := if e.op = 3 then 8 else lLen e.b
  let pages := pagePieces (n / 4096 + 2) (lAddr e.b) n
  withData s e srcSend (do
    if e.op = 1 then
      pages.forM (fun p => do
        let a ← ownerAddr ioWalker o p.1 false
        let s ← get
        if !rangeOk s o a p.2 then throw .denied)
    else
      let _ ← writeTargets (ioOf e) o pages) fun _ s => modEntry s e.f e.i (fun e => { e with ph := .running })

/-- WRITE (R321, R323). -/
def execLateralWrite (f : Fin 262144) (i : Fin 65536) (s : State) : Ans := keepQueue s <| .next (runEntry s f i clLateral 1 (fun e => latStart s e))
/-- READ (R321, R323). -/
def execLateralRead (f : Fin 262144) (i : Fin 65536) (s : State) : Ans := keepQueue s <| .next (runEntry s f i clLateral 2 (fun e => latStart s e))
/-- ATOMIC of an AOP. -/
def latAtomic (f i : Nat) (aop : Nat) (s : State) : State :=
  runEntry s f i clLateral 3 (fun e => if lAop e.b = aop then latStart s e else s)
/-- ATOMIC FADD (R321). -/
def execAtomicFadd (f : Fin 262144) (i : Fin 65536) (s : State) : Ans := keepQueue s <| .next (latAtomic f i 0 s)
/-- ATOMIC SWAP (R321). -/
def execAtomicSwap (f : Fin 262144) (i : Fin 65536) (s : State) : Ans := keepQueue s <| .next (latAtomic f i 1 s)
/-- ATOMIC CSWAP (R321). -/
def execAtomicCswap (f : Fin 262144) (i : Fin 65536) (s : State) : Ans := keepQueue s <| .next (latAtomic f i 2 s)

/-- WIN_REG (R322). -/
def execWinReg (f : Fin 262144) (i : Fin 65536) (s : State) : Ans := keepQueue s <|
  .next (runEntry s f i clLateral 8 fun e =>
    let t := furOwner s f
    if (winOf s t (lKey e.b)).isSome then endEntry s f i stField 0
    else if (t < 512 && decide ((quotaOf s t).windows ≤ winCount s t)) || decide (1048576 ≤ s.lat.wins.length) then endEntry s f i stNoRes 0
    else endEntry { s with lat := { s.lat with wins := s.lat.wins ++ [⟨t, lKey e.b, lOff e.b, lAddr e.b, lPerm e.b⟩] } } f i stOk 0)

/-- WIN_DEREG (R322): its fetch removed the window; it completes once no packet that passed the check is still held. -/
def execWinDereg (f : Fin 262144) (i : Fin 65536) (s : State) : Ans := keepQueue s <|
  .next (runEntry s f i clLateral 9 fun e =>
    let t := furOwner s f
    if s.lat.grps.any (fun g => g.dst == t && match g.held with
      | some l => lpKey l == lKey e.b
      | none => false) then s
    else endEntry s f i stOk 0)

/-! ### Sending (R316–R319, R323, R324) -/

/-- A lateral header (R318). -/
def latHdr (ty : Nat) (close retx : Bool) (status aop src dst id srcT dstT group gcount pidx npkt dlen key off t0 opnd : Nat) : List Byte :=
  natLE 1 (16 + ty) ++ natLE 1 (128 * b2n close + 64 * b2n retx) ++ natLE 1 status ++ natLE 1 aop ++ natLE 4 src ++ natLE 4 dst ++
  natLE 4 id ++ natLE 2 srcT ++ natLE 2 dstT ++ natLE 2 group ++ natLE 2 gcount ++ natLE 1 pidx ++ natLE 1 npkt ++ natLE 2 dlen ++
  natLE 4 key ++ natLE 8 off ++ natLE 8 t0 ++ natLE 16 opnd

/-- Encapsulates a packet for an Ethernet port (R317): Ethernet II, an optional tag, IPv6, UDP. -/
def latEther (s : State) (p : Nat) (ent l : List Byte) : List Byte :=
  let x := lpId l ^^^ lpPidx l
  let src := natLE 8 (regv s (f_LAT_SRCIP_V 0).key).toNat ++ natLE 8 (regv s (f_LAT_SRCIP_V 1).key).toNat
  let dst := (ent.drop 8).take 16
  let n := 8 + l.length
  let port := rd s f_PAR_CFG_LAT_PORT
  let u0 := natBE 2 (49152 + x % 16384) ++ natBE 2 port ++ natBE 2 n
  let sum := sumOf (sum16 (src ++ dst) + 17 + n + sum16 u0 + sum16 l)
  let udp := u0 ++ natBE 2 (if sum = 0 then 0xFFFF else sum) ++ l
  let ip := natBE 4 (6 * 2 ^ 28 + le ent 1 1 * 2 ^ 20 + ((lpId l % 2 ^ 20) ^^^ lpPidx l) % 2 ^ 20) ++ natBE 2 n ++ [17, 64] ++ src ++ dst
  let tag := if lef ent 24 2 15 15 = 1 then natBE 2 0x8100 ++ natBE 2 (lef ent 24 2 11 0) else []
  (ent.drop 2).take 6 ++ natBE 6 (sget 0 s.boot.macs p) ++ tag ++ natBE 2 0x86DD ++ ip ++ udp

/-- The ports over which a packet for a node may leave (R316). -/
def latPorts (s : State) (node : Nat) : List Nat :=
  let n := nativePorts s node
  if n.isEmpty then etherPorts s else n

/-- Sends a packet toward a node over a port; its class is that of a port queue, its VC 1 for requests and 2 for answers. -/
def latQueue (s : State) (node p cls vc until_ : Nat) (l : List Byte) : State :=
  if portNative s p then enqueue s p cls ⟨l, vc, none, now s, until_⟩
  else match nodeEntry s node with
    | some e => enqueue s p cls ⟨latEther s p e l, vc, none, now s, until_⟩
    | none => s

/-- Sprays a packet: the next eligible port in round robin, another one than `avoid` where there is a choice. Answers the port. -/
def latSend (s : State) (node cls vc until_ : Nat) (avoid : Option Nat) (l : List Byte) : Option (Nat × State) :=
  if node = rd s f_LAT_CFG_NODE then some (0, latArrive s l)
  else
    let ps := latPorts s node
    if ps.isEmpty then none
    else
      let k := s.lat.rr % ps.length
      let p := ps.getD k 0
      let p := if some p = avoid ∧ 1 < ps.length then ps.getD ((k + 1) % ps.length) 0 else p
      some (p, latQueue { s with lat := { s.lat with rr := s.lat.rr + 1 } } node p cls vc until_ l)

/-- Packets that a READ still wants. -/
def wanted (m : Msg) : Nat := m.pkts.zipIdx.foldl (fun a p => if p.1.done then a else a + 2 ^ p.2) 0

/-- The request packet `k` of a message (R318, R319); the source data of a WRITE are read now (R321). -/
def reqPacket (e : Entry) (m : Msg) (k : Nat) (retx : Bool) : MM (List Byte) := do
  let s ← get
  let b := e.b
  let own := rd s f_LAT_CFG_NODE
  let t := furOwner s e.f
  let n := npktOf b
  match e.op with
  | 1 =>
    let d ← readSp (ioOf e) t (lAddr b + 2048 * k) (pktLen b k)
    return latHdr 1 (lClose b) retx 0 0 own (lNode b) m.id t (lTrn b) (lGroup b) (lGcount b) k n d.length (lKey b) (lOff b + 2048 * k) (m.t0 - 1) 0 ++ d
  | 2 => return latHdr 2 false retx 0 0 own (lNode b) m.id t (lTrn b) 0 0 0 n (pktLen b (n - 1)) (lKey b) (lOff b) (m.t0 - 1) (wanted m)
  | _ => return latHdr 4 false retx 0 (lAop b) own (lNode b) m.id t (lTrn b) 0 0 0 1 0 (lKey b) (lOff b) (m.t0 - 1) (le b 48 16)

/-- The interval after `k` retransmissions, ns (R324). -/
def rtoAfter (s : State) (k : Nat) : Nat := 1000 * min (rd s f_LAT_CFG_RTO * 2 ^ k) (16 * rd s f_LAT_CFG_RTO)

/-- Packets that a message's request side transmits: one READ_REQ stands for all of a READ. -/
def txList (e : Entry) : List Nat := if e.op = 1 then List.range (npktOf e.b) else [0]

/-- The class queue of a furrow's requests. -/
def reqClass (s : State) (f : Nat) : Nat := ((furOf s f).map Furrow.sched).getD 0

/-- The instant T0 + 1.5 ms of a message. -/
def msgEnd (m : Msg) : Nat := m.t0 - 1 + 1500000

/-- Sends packet `k`, whose source data have been read, and arms its retransmission; none where no port is eligible. A failed read ends the message (R332). -/
def sendPkt (s : State) (e : Entry) (k : Nat) (retx : Bool) : Option State :=
  match msgOf s e.f e.i with
  | none => some s
  | some (_, m) =>
    match runMM s (reqPacket e m k retx) with
    | (.ok l, s) =>
      let prev := (if e.op = 2 then (m.pkts.filter (fun x => !x.done)).head? else m.pkts[k]?).map TxPkt.port
      (latSend s (lNode e.b) (reqClass s e.f) 1 (msgEnd m) (if retx then prev else none) l).map (fun r =>
        let upd (x : TxPkt) : TxPkt := { x with
          due := s.clk + rtoAfter s (x.tries + b2n retx)
          tries := x.tries + b2n retx
          port := r.1 }
        let s := modMsg r.2 e.f e.i (fun m => { m with
          pkts := m.pkts.mapIdx (fun j x => if x.done then x else if e.op = 2 ∨ j = k then upd x else x) })
        if retx then incF (modMsg s e.f e.i (fun m => { m with rounds := m.pkts.foldl (fun a x => max a x.tries) 0 })) f_LAT_RETX_V 1 else s)
    | (.error err, s) => some (latEnd s e m (merrStatus err))

/-- Sends a list of packets. -/
def sendPkts (e : Entry) (retx : Bool) : List Nat → State → Option State
  | [], s => some s
  | k :: r, s => (sendPkt s e k retx).bind (sendPkts e retx r)

/-- The first transmission (R323): T0 is fixed and every packet sent. It waits while no link is eligible (R316). -/
def execFirstTransmission (f : Fin 262144) (i : Fin 65536) (s : State) : Ans := keepQueue s <|
  match msgOf s f i with
  | none => .next s
  | some (e, m) =>
    if e.ph ≠ .running ∨ m.t0 ≠ 0 then .next s
    else
      match (txList e).findSome? (fun k => awaited s (reqPacket e m k false)) with
      | some q => .next (askPort s q)
      | none =>
      let s1 := modMsg { s with lat := { s.lat with msgid := (s.lat.msgid + 1) % 2 ^ 32 } } f i (fun m => { m with
        t0 := 1 + now s
        id := s.lat.msgid })
      match sendPkts e false (txList e) s1 with
      | some s => .next s
      | none => .next s

/-- A retransmission interval expires (R324). -/
def execPacketRetransmit (f : Fin 262144) (i : Fin 65536) (k : Fin 128) (s : State) : Ans := keepQueue s <|
  match msgOf s f i with
  | none => .next s
  | some (e, m) =>
    let k' := if e.op = 1 then k.val else 0
    let x := if e.op = 2 then (m.pkts.filter (fun x => !x.done)).head? else m.pkts[k']?
    match x with
    | none => .next s
    | some x =>
      if m.t0 = 0 ∨ x.done = true ∨ s.clk < x.due ∨ msgEnd m ≤ now s then .next s
      else match awaited s (reqPacket e m k' true) with
        | some q => .next (askPort s q)
        | none => match sendPkt s e k' true with
          | some s => .next s
          | none => .next s

/-- The undefined bytes at LADDR of the packets that a READ has not received take free values (R332), in device memory. -/
def undefRest (s : State) (e : Entry) (m : Msg) : State :=
  if e.op ≠ 2 then s
  else m.pkts.zipIdx.foldl (fun s p =>
    if p.1.done then s else undefBytes s e (lAddr e.b + 2048 * p.2) (pktLen e.b p.2)) s

/-- A message whose deadline has passed ends (R325): PAGE_WAIT_TIMEOUT when the latest answer to each missing packet was PAGE_WAIT, otherwise
UNCERTAIN. -/
def msgTimeout (s : State) (e : Entry) (m : Msg) : State :=
  latEnd (undefRest s e m) e m (if (m.pkts.filter (fun x => !x.done)).all (fun x => x.ans == 1) then stPage else stUncertain)

/-- T0 + 1.5 ms has passed; an answer in the very instant still counts (R12, R325). -/
def execMessageDeadline (f : Fin 262144) (i : Fin 65536) (s : State) : Ans := keepQueue s <|
  match msgOf s f i with
  | none => .next s
  | some (e, m) =>
    if m.t0 = 0 ∨ now s ≤ msgEnd m then .next s
    else .next (msgTimeout s e m)

/-! ### Answers at the requester (R324, R325, R332) -/

/-- Takes the oldest arrived packet of a TYPE. -/
def takeRx (s : State) (ty : Nat) (k : List Byte → State → State) : Ans :=
  match s.lat.rx.findIdx? (fun l => lpType l == ty) with
  | none => .next s
  | some i => match s.lat.rx[i]? with
    | none => .next s
    | some l => .next (k l { s with lat := { s.lat with rx := s.lat.rx.eraseIdx i } })

/-- The live message that an answer names. -/
def msgById (s : State) (id : Nat) : Option (Entry × Msg) :=
  match s.lat.msgs.find? (fun m => m.t0 != 0 && m.id == id && (msgOf s m.f m.i).isSome) with
  | some m => msgOf s m.f m.i
  | none => none

/-- An answer meets the message that it names (R325, R332): none, and it is discarded; one past its deadline, and the message ends. -/
def onMsg (s : State) (l : List Byte) (k : Entry → Msg → State → State) : State :=
  match msgById s (lpId l) with
  | none => s
  | some (e, m) => if msgEnd m < now s then msgTimeout s e m else k e m s

/-- Ends a message all of whose packets are done. -/
def latCheck (s : State) (f i : Nat) : State :=
  match msgOf s f i with
  | some (e, m) => if m.pkts.all TxPkt.done then latEnd s e m stOk else s
  | none => s

/-- An ACK (R324, R325): placed packets, or a refusal of the packets that REFUSED names. -/
def execAckPacket (s : State) : Ans := keepQueue s <|
  takeRx s 6 fun l s => onMsg s l fun e m s =>
      let named (j : Nat) : Bool := bit (lpOpnd l) j
      let s := if e.op = 1 then modMsg s e.f e.i (fun m => { m with
        pkts := m.pkts.mapIdx (fun j x => if bit (lpPlaced l) j then { x with done := true } else x) }) else s
      match lpStatus l with
      | 3 => latEnd s e m stDenied
      | 1 => modMsg s e.f e.i (fun m => { m with pkts := m.pkts.mapIdx (fun j x =>
          if named j && !x.done then { x with ans := 1, due := s.clk + 50000 } else x) })
      | 2 => modMsg s e.f e.i (fun m => { m with pkts := m.pkts.mapIdx (fun j x =>
          if named j && !x.done then
            let w := if x.busy = 0 then 10 else min 160 (2 * x.busy)
            { x with ans := 2, busy := w, due := s.clk + 1000 * w }
          else x) })
      | _ => latCheck s e.f e.i

/-- Writes a response at LADDR and marks its packet (R332). A page that is missing now leaves the packet to a retransmission. -/
def latRespond (s : State) (e : Entry) (m : Msg) (k a : Nat) (d : List Byte) : State :=
  match runMM s (writeSp (ioOf e) (furOwner s e.f) a d) with
  | (.ok _, s) => latCheck (modMsg s e.f e.i (fun m => { m with
      pkts := m.pkts.mapIdx (fun j x => if j = k then { x with done := true } else x) })) e.f e.i
  | (.error (.page _ _ _), s) => s
  | (.error err, s) => latEnd s e m (merrStatus err)

/-- A READ_RSP (R332). -/
def execReadRspPacket (s : State) : Ans := keepQueue s <|
  takeRx s 3 fun l s => onMsg s l fun e m s =>
      let k := lpPidx l
      if e.op ≠ 2 ∨ k ≥ m.pkts.length ∨ (m.pkts[k]?).any TxPkt.done = true ∨ lpDlen l ≠ pktLen e.b k then s
      else latRespond s e m k (lAddr e.b + 2048 * k) (lpData l)

/-- An ATOMIC_RSP (R332). -/
def execAtomicRspPacket (s : State) : Ans := keepQueue s <|
  takeRx s 5 fun l s => onMsg s l fun e m s =>
    if e.op ≠ 3 then s else latRespond s e m 0 (lAddr e.b) ((l.drop 48).take 8)

/-! ### The receiver (R326–R331) -/

/-- Answers a request: TYPE, STATUS, fields that differ from the request's, data. -/
def answer (s : State) (l : List Byte) (ty status pidx dlen off t0 opnd : Nat) (d : List Byte) : State :=
  let h := latHdr ty false false status 0 (rd s f_LAT_CFG_NODE) (lpSrc l) (lpId l) (lpSrcTrn l) (lpDstTrn l) (lpGroup l) 0 pidx (lpNpkt l)
    dlen (lpKey l) off t0 opnd
  match latSend s (lpSrc l) (rd s f_LAT_CLS_ACK_CLASS) 2 0 none (h ++ d) with
  | some (_, s) => s
  | none => s

/-- The filter entry of a message. -/
def filtOf (s : State) (node id : Nat) : Option Filt := s.lat.filt.find? (fun x => x.node == node && x.id == id)

/-- Updates a filter entry. -/
def modFilt (s : State) (node id : Nat) (g : Filt → Filt) : State :=
  { s with lat := { s.lat with filt := s.lat.filt.map (fun x => if x.node == node && x.id == id then g x else x) } }

/-- What the receiver's own deadlines have ended by now (R327, R330, R331): an entry or a held closing write counts in the instant of its
expiry (R12). -/
def latPurge (s : State) : State :=
  let late (g : Grp) : Bool := match g.held with
    | some l => decide (lpT0 l + 1900000 < now s)
    | none => false
  latUse { s with lat := { s.lat with
    filt := s.lat.filt.filter (fun x => decide (now s ≤ x.at_ + 2000000))
    grps := (s.lat.grps.filter (fun g => decide (now s ≤ g.at_ + 100000000))).map (fun g => if late g then { g with held := none } else g) } }

/-- An ACK with the cumulative PLACED bitmap. -/
def sendAck (s : State) (l : List Byte) (placed : Nat) : State :=
  answer s l 6 0 0 0 (placed % 2 ^ 64) (placed / 2 ^ 64) 0 []

/-- A refusal of a request's packets. -/
def refuse (s : State) (l : List Byte) (status : Nat) : State :=
  let placed := ((filtOf s (lpSrc l) (lpId l)).map Filt.placed).getD 0
  let named := if lpType l = 2 then lpOpnd l else 2 ^ lpPidx l
  let s := incF s (match status with
    | 1 => f_LAT_PAGEWAIT_V
    | 2 => f_LAT_BUSY_V
    | _ => f_LAT_DENIED_V) 1
  answer s l 6 status 0 0 (placed % 2 ^ 64) (placed / 2 ^ 64) named []

/-- A group. -/
def grpOf (s : State) (l : List Byte) : Option Grp :=
  s.lat.grps.find? (fun g => g.node == lpSrc l && g.src == lpSrcTrn l && g.dst == lpDstTrn l && g.g == lpGroup l)

/-- Updates the group of a packet. -/
def modGrp (s : State) (l : List Byte) (k : Grp → Grp) : State :=
  { s with lat := { s.lat with grps := s.lat.grps.map (fun g =>
    if g.node == lpSrc l && g.src == lpSrcTrn l && g.dst == lpDstTrn l && g.g == lpGroup l then k g else g) } }

/-- Bytes of the window that a request touches (R319). -/
def reqSpan (l : List Byte) : Nat :=
  match lpType l with
  | 2 => 2048 * (lpNpkt l - 1) + lpDlen l
  | 4 => 8
  | _ => lpDlen l

/-- Steps 2 to 5 of R326 for a request of a permission bit: where they pass, its target TA and the state with the filter and group
entries it needs. -/
def latSteps (s : State) (l : List Byte) (perm : Nat) (k : Nat → State → State) : State :=
  let s := latPurge s
  let w := lpType l != 2
  let old := filtOf s (lpSrc l) (lpId l)
  let placed := (old.map Filt.placed).getD 0
  if lpT0 l + 1900000 < now s then incF s f_LAT_AGED_V 1
  else if w && bit placed (lpPidx l) then
    let s := incF s f_LAT_DUP_V 1
    if lpType l = 4 then answer s l 5 0 0 0 (lpOff l) (lpT0 l) (((old.bind Filt.old)).getD 0) []
    else sendAck s l placed
  else match winOf s (lpDstTrn l) (lpKey l) with
    | none => refuse s l 3
    | some x =>
      if !bit x.perm perm || decide (x.len < lpOff l + reqSpan l) then refuse s l 3
      else
        let needG := lpType l == 1 && lpGroup l != 0 && (grpOf s l).isNone
        let needF := w && old.isNone
        if (needF && decide (262144 ≤ s.lat.filt.length)) || (needG && decide (16384 ≤ s.lat.grps.length)) then refuse s l 2
        else
          let s := if needF then latUse { s with lat := { s.lat with
            filt := s.lat.filt ++ [⟨lpSrc l, lpId l, now s, 0, lpNpkt l, none, false, 0, l⟩] } } else s
          let s := if needG then { s with lat := { s.lat with
            grps := s.lat.grps ++ [⟨lpSrc l, lpSrcTrn l, lpDstTrn l, lpGroup l, 0, none, 0, now s⟩] } } else s
          k (x.base + lpOff l) s

/-- Runs the memory access of a request (step 6): a missing page raises a request and answers PAGE_WAIT; poisoned data get no
answer. While the completion of a read through a port is awaited, the packet stays. -/
def latAccess {α : Type} (s : State) (l : List Byte) (x : MM α) (k : α → State → State) : State :=
  let done (s : State) : State := dropAsks s (fun w => decide (w = .remote))
  match runMM s x with
  | (.ok a, s) => k a (done s)
  | (.error (.wait q), _) => askPort { s with lat := { s.lat with rx := l :: s.lat.rx } } q
  | (.error (.page t p w), s) => refuse (raisePage (done s) .remote srcLateral t p w) l 1
  | (.error .denied, s) => refuse (done s) l 3
  | (.error _, s) => done s

/-- Records a placed packet; the ACK becomes due (R326, R327). -/
def placedNow (s : State) (l : List Byte) : State :=
  let s := modFilt s (lpSrc l) (lpId l) (fun x => { x with
    placed := x.placed ||| 2 ^ lpPidx l
    ack := true
    ackAt := if x.ack then x.ackAt else s.clk
    hdr := l.take 64 })
  let full := match filtOf s (lpSrc l) (lpId l) with
    | some x => x.placed == 2 ^ x.npkt - 1
    | none => false
  if lpGroup l ≠ 0 ∧ lpClose l = false ∧ full = true then modGrp s l (fun g => { g with
    placed := g.placed + 1
    at_ := now s })
  else s

/-- A WRITE packet (R326, R330). -/
def execWritePacket (s : State) : Ans := keepQueue s <|
  takeRx s 1 fun l s =>
    -- a duplicate of a held closing write is not answered (R330)
    let held := match (grpOf (latPurge s) l).bind Grp.held with
      | some h => lpId h == lpId l
      | none => false
    if lpClose l && held && decide (now s ≤ lpT0 l + 1900000) then s
    else latSteps s l 1 fun ta s =>
      if lpClose l then
        latAccess s l (writeTargets (ioFor .remote) (lpDstTrn l) (pagePieces 2 ta (lpDlen l))) fun _ s =>
          modGrp s l (fun g => { g with
            held := some l
            heldTa := ta
            at_ := now s })
      else latAccess s l (writeSp (ioFor .remote) (lpDstTrn l) ta (lpData l)) fun _ s => placedNow s l

/-- The data of packet `k` of a READ. -/
def rspData (l : List Byte) (ta k : Nat) : MM (List Byte) :=
  readSp (ioFor .remote) (lpDstTrn l) (ta + 2048 * k) (if k + 1 < lpNpkt l then 2048 else lpDlen l)

/-- Sends the wanted READ_RSP packets; poisoned data are not sent (R332). -/
def readRsps (l : List Byte) (ta : Nat) : List Nat → State → State
  | [], s => s
  | k :: r, s =>
    let n := if k + 1 < lpNpkt l then 2048 else lpDlen l
    match runMM s (rspData l ta k) with
    | (.ok d, s) => readRsps l ta r (answer s l 3 0 k n (lpOff l + 2048 * k) (lpT0 l) 0 d)
    | (.error _, s) => readRsps l ta r s

/-- A READ_REQ packet (R326). -/
def execReadReqPacket (s : State) : Ans := keepQueue s <|
  takeRx s 2 fun l s =>
    latSteps s l 0 fun ta s =>
      latAccess s l ((pagePieces 66 ta (reqSpan l)).forM (fun p => do
        let a ← ownerAddr ioWalker (lpDstTrn l) p.1 false
        let s ← get
        if !rangeOk s (lpDstTrn l) a p.2 then throw .denied)) fun _ _ =>
        let ks := (List.range (lpNpkt l)).filter (fun k => bit (lpOpnd l) k)
        match ks.findSome? (fun k => awaited s (rspData l ta k)) with
        | some q => askPort { s with lat := { s.lat with rx := l :: s.lat.rx } } q
        | none => dropAsks (readRsps l ta ks s) (fun w => decide (w = .remote))

/-- The new value of an atomic's word (R321). -/
def atomicNew (aop old cmp opnd : Nat) : Nat :=
  match aop with
  | 0 => (old + opnd) % 2 ^ 64
  | 1 => opnd
  | _ => if old = cmp then opnd else old

/-- An ATOMIC packet (R321, R326, R327). -/
def execAtomicPacket (s : State) : Ans := keepQueue s <|
  takeRx s 4 fun l s =>
    latSteps s l 2 fun ta s =>
      latAccess s l (do
        let _ ← writeTargets (ioFor .remote) (lpDstTrn l) [(ta, 8)]
        let d ← readSp (ioFor .remote) (lpDstTrn l) ta 8
        writeSp (ioFor .remote) (lpDstTrn l) ta (natLE 8 (atomicNew (lpAop l) (leNat d) (le l 48 8) (le l 56 8)))
        return leNat d) fun old s =>
          let s := modFilt s (lpSrc l) (lpId l) (fun x => { x with
            placed := 1
            old := some old })
          answer s l 5 0 0 0 (lpOff l) (lpT0 l) old []

/-- The coalescing interval of a message's ACKs ends (R326). -/
def execAckSend (node : BitVec 24) (id : Word) (s : State) : Ans := keepQueue s <|
  match filtOf s node.toNat id.toNat with
  | some x => if x.ack then .next (sendAck (modFilt s x.node x.id (fun x => { x with ack := false })) x.hdr x.placed) else .next s
  | none => .next s

/-- A filter entry is 2 ms old (R327). -/
def execFilterEntryExpiry (node : BitVec 24) (id : Word) (s : State) : Ans := keepQueue s <|
  match filtOf s node.toNat id.toNat with
  | some x =>
    if now s ≤ x.at_ + 2000000 then .next s
    else .next (latUse { s with lat := { s.lat with filt := s.lat.filt.filter (fun y => !(y.node == x.node && y.id == x.id)) } })
  | none => .next s

/-- The group of four numbers. -/
def grpBy (s : State) (node src dst g : Nat) : Option Grp :=
  s.lat.grps.find? (fun x => x.node == node && x.src == src && x.dst == dst && x.g == g)

/-- Removes a group. -/
def dropGrp (s : State) (x : Grp) : State :=
  { s with lat := { s.lat with grps := s.lat.grps.filter (fun y => !(y.node == x.node && y.src == x.src && y.dst == x.dst && y.g == x.g)) } }

/-- The group's placed count has reached GCOUNT (R330): the held closing write is written as one line access and acknowledged, and the
group is free. -/
def execClosingWriteRelease (node : BitVec 24) (src dst : Fin 512) (g : BitVec 16) (s : State) : Ans := keepQueue s <|
  match grpBy s node.toNat src dst g.toNat with
  | none => .next s
  | some x => match x.held with
    | none => .next s
    | some l =>
      if x.placed < lpGcount l ∨ lpT0 l + 1900000 < now s then .next s
      else match runMM s (writeSp (ioFor .remote) dst x.heldTa (lpData l)) with
        | (.error (.page t p w), s) => .next (raisePage s .remote srcLateral t p w)
        | (.error .denied, s) => .next (refuse (dropGrp s x) l 3)
        | (.error _, s) => .next s
        | (.ok _, s) =>
          let s := placedNow (dropGrp s x) l
          let s := modFilt s (lpSrc l) (lpId l) (fun x => { x with ack := false })
          .next (sendAck s l (((filtOf s (lpSrc l) (lpId l)).map Filt.placed).getD 1))

/-- A held closing write reaches its T0 + 1.9 ms (R330). -/
def execClosingWriteDiscard (node : BitVec 24) (src dst : Fin 512) (g : BitVec 16) (s : State) : Ans := keepQueue s <|
  match grpBy s node.toNat src dst g.toNat with
  | none => .next s
  | some x => match x.held with
    | none => .next s
    | some l => .next (if now s ≤ lpT0 l + 1900000 then s else modGrp s l (fun g => { g with held := none }))

/-- A group entry has not changed for 100 ms (R331). -/
def execGroupEntryExpiry (node : BitVec 24) (src dst : Fin 512) (g : BitVec 16) (s : State) : Ans := keepQueue s <|
  match grpBy s node.toNat src dst g.toNat with
  | none => .next s
  | some x => .next (if now s ≤ x.at_ + 100000000 then s else dropGrp s x)

end Sys2Proof.Machine
end

