-- ==== Sys2Proof/Machine/Levee.lean ====
section
/-! DEFINITION. Machine/Levee.lean: owners of memory, translation, on-demand paging, doorbells and furrow commands
(R217–R241, R384, R468).
Choices beyond the words of the spec: log entries DESIGN CHOICE 33, 34, 35; DEDUCED 32. -/

namespace Sys2Proof.Machine

/-! ### Owners and scrubs (R221, R241, R384) -/

/-- What an owner write does (R221). -/
inductive OwnAct
  | none | refuse | give | free
deriving DecidableEq, Repr

/-- The rule of R221 and R384 for a write of owner `v` over owner `cur`. -/
def ownAct (s : State) (scrub : Bool) (cur v : Nat) : OwnAct :=
  if scrub then .refuse
  else if v = cur then .none
  else if cur = 0x200 then
    if v < 0x200 then (if turnActive s v then .give else .refuse)
    else if v = 0x201 then .give else .refuse
  else if (cur < 0x200 || cur = 0x201) && v = 0x200 then .free
  else .refuse

/-- A write to TRN_EXTe.OWNER (R221). -/
def execExtentOwnerWrite (e : Fin 1024) (v : BitVec 10) (s : State) : Ans := keepQueue s <|
  if !barOpen s then .next s else
  match ownAct s (rd s (f_TRN_EXT_SCRUB e) == 1) (rd s (f_TRN_EXT_OWNER e)) v.toNat with
  | .none => .next s
  | .refuse => .next (writeIgnored s)
  | .give => .next (wr s (f_TRN_EXT_OWNER e) v.toNat)
  | .free => .next (wr s (f_TRN_EXT_SCRUB e) 1)

/-- A write to TRN_GRANg.OWNER (R221). -/
def execGranuleOwnerWrite (g : Fin 4096) (v : BitVec 10) (s : State) : Ans := keepQueue s <|
  if !barOpen s then .next s else
  match ownAct s (rd s (f_TRN_GRAN_SCRUB g) == 1) (rd s (f_TRN_GRAN_OWNER g)) v.toNat with
  | .none => .next s
  | .refuse => .next (writeIgnored s)
  | .give => .next (wr s (f_TRN_GRAN_OWNER g) v.toNat)
  | .free => .next (wr s (f_TRN_GRAN_SCRUB g) 1)

/-- An extent has been overwritten with zeros under the 200h key (R241). -/
def extentScrubbed (s : State) (e : Nat) : State :=
  let s := { s with m := { s.m with
    hbm := sclear s.m.hbm (e * 0x1000_0000) 0x1000_0000
    ecc := sclear s.m.ecc (e * 0x200_0000) 0x200_0000
    zeroed := sput 0 s.m.zeroed e (keyNum s 0x200 + 1) } }
  wr (wr s (f_TRN_EXT_SCRUB e) 0) (f_TRN_EXT_OWNER e) 0x200

/-- The scrub of an extent ends (R241). -/
def execExtentScrubDone (e : Fin 1024) (s : State) : Ans := keepQueue s <|
  .next (if rd s (f_TRN_EXT_SCRUB e) = 1 then extentScrubbed s e else s)

/-- A granule has been overwritten with zeros with valid check bits (R241). -/
def granuleScrubbed (s : State) (g : Nat) : State :=
  let a := 0x100_0000_0000 + g * 0x10_0000
  let s := { s with m := { s.m with sram := sclear s.m.sram a 0x10_0000, ecc := sclear s.m.ecc (a / 8) 0x2_0000 } }
  wr (wr s (f_TRN_GRAN_SCRUB g) 0) (f_TRN_GRAN_OWNER g) 0x200

/-- The scrub of a granule ends (R241). -/
def execGranuleScrubDone (g : Fin 4096) (s : State) : Ans := keepQueue s <|
  .next (if rd s (f_TRN_GRAN_SCRUB g) = 1 then granuleScrubbed s g else s)

/-! ### Walks and invalidations (R222–R224, R227) -/

/-- A walk for a turnout address by a walker for a requester (R222–R224, R227): its leaf is cached, a miss on an entry with
PR = 1 raises or joins a page request. -/
def execTranslationWalk (wk : Fin 17) (t : Fin 512) (ta : BitVec 48) (w : Bool) (who : PReq) (source : Fin 10) (s : State) : Ans := keepQueue s <|
  match runMM s (walkRoot t ta.toNat w) with
  | (.ok l, s) =>
    let sz := 2 ^ l.sh
    let e : TlbEntry := ⟨wk, t, ta.toNat / sz * sz, sz, l.pa, l.r, l.w⟩
    .next { s with lev := { s.lev with tlb := e :: s.lev.tlb.filter (fun x => !(x.wk == e.wk && x.t == e.t && x.ta == e.ta)) } }
  | (.error (.page t p w), s) => .next (raisePage s who source t p w)
  | (.error _, s) => .next s

/-- Bytes of a SCOPE; all of the turnout for 3h. -/
def scopeBits (sc : Nat) : Nat :=
  match sc with
  | 0 => 12 | 1 => 21 | 2 => 30 | _ => 48

/-- A write of 1 to TRN_INV_CTL.GO (R224). A reserved SCOPE leaves the field as it was (R9). -/
def execTrnInv (scope : BitVec 4) (t : Fin 512) (s : State) : Ans := keepQueue s <|
  if !barOpen s then .next s else
  if rd s f_TRN_INV_CTL_GO = 1 then .next (writeIgnored s)
  else
    let s := if scope.toNat < 4 then wr s f_TRN_INV_CTL_SCOPE scope.toNat else writeIgnored s
    .next (wr (wr s f_TRN_INV_CTL_TURNOUT t) f_TRN_INV_CTL_GO 1)

/-- Does the invalidation in progress cover a range of a turnout's addresses. -/
def invCovers (s : State) (t ta size : Nat) : Bool :=
  let sc := scopeBits (rd s f_TRN_INV_CTL_SCOPE)
  let lo := rd s f_TRN_INV_ADDR_TA * 4096 / 2 ^ sc * 2 ^ sc
  rd s f_TRN_INV_CTL_TURNOUT == t && decide (ta < lo + 2 ^ sc) && decide (lo < ta + size)

/-- Does the invalidation cover a turnout address that an access of a cell was translated from. -/
def cellCovers (s : State) (c : Nat) (ta : Option Nat) (n : Nat) : Bool :=
  match ta with
  | some ta => invCovers s (cellOf s c).turnout.toNat ta n
  | none => false

/-- Is a translated access of a cell in flight that the invalidation must wait for: of its core, by the mapping that it was issued with
(R226), or of a DMA descriptor that waits for a response. -/
def accessOpen (s : State) (c : Nat) : Bool :=
  (match (cellOf s c).k.run with
    | .access a => a.tag != 0 && cellCovers s c (winTA a.win a.addr.toNat) 4
    | _ => false) ||
  (cellOf s c).dma.q.any (fun it => match it with
    | .desc b _ _ (.unanswered dl h) => inTime s dl &&
        (cellCovers s c ((dFrom b).bind (fun a => winTA h.src (a + h.moved))) 4 || cellCovers s c (winTA h.dst (dDst b + h.moved)) 4)
    | _ => false)

/-- Is a read outstanding at a port that was translated from a turnout address which the invalidation covers. -/
def readOpen (s : State) : Bool :=
  s.pcie.reqs.any (fun r => decide (r.who ≠ .gone) && (match r.ta with
    | some ta => invCovers s r.owner ta r.len
    | none => false))

/-- Drops the cached translations that an invalidation covers (R224). -/
def invalidate (s : State) : State :=
  { s with lev := { s.lev with tlb := s.lev.tlb.filter (fun e => !invCovers s e.t e.ta e.size) } }

/-- The invalidation completes once no access translated through an old entry is open (R224). -/
def execTrnInvComplete (s : State) : Ans := keepQueue s <|
  if rd s f_TRN_INV_CTL_GO = 0 || s.cells.any (fun p => accessOpen s p.1) || readOpen s then .next s
  else .next (wr (invalidate s) f_TRN_INV_CTL_GO 0)

/-! ### Page requests (R227–R229) -/

/-- The record of a page request as completion `cqt` of the PRQ ring (R228). -/
def prqBytes (q : PageReq) (cqt depth : Nat) : List Byte :=
  natLE 4 (q.gen * 4096 + q.slot) ++ natLE 5 q.page ++ natLE 2 (q.turnout + 512 * b2n q.w) ++ natLE 1 q.source ++ [0, 0] ++
    natLE 2 (if cqt / depth % 2 = 0 then 0x8000 else 0)

/-- A record is written once the PRQ furrow is ENABLED and its completion ring has room (R228, R229). -/
def execPrqRecordWrite (s : State) : Ans := keepQueue s <|
  let f := rd s f_TRN_PRQ_FURROW_FURROW
  match furOf s f, s.lev.prq.find? (fun q => !q.sent && q.waiters.any (fun w => inTime s w.2)) with
  | some x, some q =>
    if !x.enabled || x.cls != clPrq || decide (x.depth ≤ (x.cqt - x.cqh).toNat) then .next s
    else match ringPost s f (prqBytes q) true with
      | (s, .ok) => .next { s with lev := { s.lev with prq := s.lev.prq.map (fun p => if p.slot == q.slot then { p with sent := true } else p) } }
      | (s, _) => .next s
  | _, _ => .next s

/-- The end of a page request for one requester (R229): served, refused, or past its deadline. -/
def pageOutcome (s : State) (who : PReq) (key : Nat) (out : Option Bool) : State :=
  match who with
  | .remote => s
  | .core c => coreRewalk s c (out == some true)
  | .dma c k => dmaPaged s c k out
  | .flume _ _ | .firmware | .debug | .gone => s
  | .ring f =>
    if out = some true then
      let s := modFur s f (fun x => { x with paging := 2 + key })
      flushWait s f
    else ringFault s f
  | .entry f i =>
    match entryOf s f i with
    | some e =>
      if e.ph ≠ .paging then s
      else match out with
        | some true => modEntry s f i (fun e => { e with ph := .fetched, again := some key })
        | some false => endEntry s f i stDenied noResult
        | none => endEntry s f i stPage noResult
    | none => s

/-- Is a PR_DONE entry malformed (R228). -/
def prDoneBad (b : List Byte) : Bool :=
  le b 0 1 != 1 || headerBad b || !zeroAt b 21 43 || le b 20 1 > 1

/-- What a PR_DONE gives a requester: its RESULT, or the outcome of a deadline that has passed (R12, R229). -/
def prOutcome (s : State) (served : Bool) (deadline : Nat) : Option Bool := if inTime s deadline then some served else none

/-- PR_DONE (R228, R229): the oldest fetched entry of the PRQ furrow. The PRQ furrow posts no completion for it. A request whose last
deadline has passed is outstanding no more: the answer is stale. -/
def execPrDone (s : State) : Ans := keepQueue s <|
  let f := rd s f_TRN_PRQ_FURROW_FURROW
  match s.infl.find? (fun e => e.f == f && furClass s f == clPrq) with
  | none => .next s
  | some e =>
    let s := dropEntry s f e.i
    let id := le e.b 16 4
    match s.lev.prq.find? (fun q => q.gen * 4096 + q.slot == id && q.waiters.any (fun w => inTime s w.2)) with
    | some q =>
      if prDoneBad e.b then .next (incF s f_TRN_PRQ_STALE_V 1)
      else
        let s := freeReqs s (fun p => p.slot == q.slot)
        .next (q.waiters.foldl (fun s w =>
          pageOutcome s w.1 (pageKey q.page q.w) (prOutcome s (le e.b 20 1 == 0) w.2)) s)
    | none => .next (incF s f_TRN_PRQ_STALE_V 1)

/-- A requester's deadline has passed (R229, R12): it leaves its request, and the last one frees the slot. -/
def execPageRequestDeadline (who : PReq) (s : State) : Ans := keepQueue s <|
  let due (w : PReq × Nat) : Bool := decide (w.1 = who) && overdue s w.2
  match s.lev.prq.find? (fun q => q.waiters.any due) with
  | some q =>
    let s := freeReqs { s with lev := { s.lev with prq := s.lev.prq.map (fun p =>
      if p.slot == q.slot then { p with waiters := p.waiters.filter (fun w => !due w) } else p) } } (fun p => p.waiters.isEmpty)
    .next (pageOutcome s who (pageKey q.page q.w) none)
  | none =>
    match s.lev.prqWait.find? (fun m => due (m.who, m.deadline)) with
    | some m =>
      let s := { s with lev := { s.lev with prqWait := s.lev.prqWait.erase m } }
      .next (pageOutcome s who (pageKey m.page m.w) none)
    | none => .next s

/-! ### Doorbells (R233, R234, R251, R261) -/

/-- The furrow that a doorbell location names. -/
def dbFurrow (s : State) : DbLoc → Option Nat
  | .vf t sl | .slice t sl => furAtSlot s t sl
  | .global f => (furOf s f).map (fun _ => f.val)
  | .reserved => none

/-- Does a doorbell write reach the device: a VF's BAR2 refuses in FLR, in D3hot or when the VF does not exist, and an
accelerator reaches only its own hierarchy (R245, R251, R260, R261, R272). -/
def dbReaches (s : State) (loc : DbLoc) (link : Option (Fin 16)) : Bool :=
  let asg (k : Fin 16) : Nat := bits (rd s f_HEP_TOPO_ASSIGN) (2 * (k.val % 8) + 1) (2 * (k.val % 8))
  if rd s f_GEN_STATE_STATE = 7 then false else
  match loc with
  | .vf t _ => vfExists s t && !inFlr s t && !(fnOf s t).d3 &&
      (match link with
        | some k => asg k == t.val / 256 + 1
        | none => true)
  | _ => !(fnOf s fnPF0).d3 && (match link with
      | some k => asg k == rd s f_HEP_TOPO_MGR_UP + 1
      | none => true)

/-- A doorbell write discarded and counted (R234). -/
def dbBad (s : State) : State := incF s f_DSP_DB_BAD_COUNT 1

/-- Is a value equal to the current one or behind it by no more than the depth (R234). -/
def dbStale (cur v : Word) (depth : Nat) : Bool := decide ((cur - v).toNat ≤ depth)

/-- The PI field of a doorbell write (R234): `form` says that the write has an accepted form; `link` is the downstream link
it came from, none for a host. -/
def execDoorbellPi (loc : DbLoc) (link : Option (Fin 16)) (form : Bool) (v : Word) (s : State) : Ans := keepQueue s <|
  if !dbReaches s loc link then .next s
  else match dbFurrow s loc with
    | none => .next (dbBad s)
    | some f => match furOf s f with
      | none => .next (dbBad s)
      | some x =>
        if !form then .next (dbBad s)
        else if 0 < (v - x.head).toNat ∧ (v - x.head).toNat ≤ x.depth ∧ 0 < (v - x.pi).toNat ∧ (v - x.pi).toNat < 2 ^ 31 then
          .next (modFur s f (fun x => { x with
            pi := v, rang := x.rang ++ [(v.toNat, match link with | some k => k.val + 1 | none => 0)] }))
        else if dbStale x.pi v x.depth then .next s
        else .next (dbBad s)

/-- The CQH field of a doorbell write (R234). -/
def execDoorbellCqh (loc : DbLoc) (link : Option (Fin 16)) (form : Bool) (v : Word) (s : State) : Ans := keepQueue s <|
  if !dbReaches s loc link then .next s
  else match dbFurrow s loc with
    | none => .next (dbBad s)
    | some f => match furOf s f with
      | none => .next (dbBad s)
      | some x =>
        if !form then .next (dbBad s)
        else if 0 < (v - x.cqh).toNat ∧ (v - x.cqh).toNat ≤ (x.cqt - x.cqh).toNat then
          .next (modFur s f (fun x => { x with cqh := v }))
        else if dbStale x.cqh v x.depth then .next s
        else .next (dbBad s)

/-! ### Furrow commands (R237) -/

/-- DSP_FCTX register n. -/
def fctx (s : State) (n : Nat) : Nat := (regv s (0x900020 + 8 * n)).toNat

/-- DSP_FCMD.RESULT. -/
def fresult (s : State) (st : Nat) : State := wr s f_DSP_FCMD_RESULT st

/-- MSI-X vectors of an owner's function (R249). -/
def ownerVecs (owner : Nat) : Nat := if owner < 512 then 256 else 2048

/-- Furrow quotas that turnouts hold and have not used (R383). -/
def unusedQuota (s : State) : Nat :=
  s.trn.q.foldl (fun n p => n + (p.2.furrows - furCount s p.1)) 0

/-- Furrow IDs in use. -/
def fursInUse (s : State) : Nat := (s.fur.filter (fun p => p.2.isSome)).length

/-- CREATE's checks after the ID (R237 steps 2–5). -/
def createStatus (s : State) : Nat :=
  let c0 := fctx s 0
  let c1 := fctx s 1
  let c2 := fctx s 2
  let own := bits c2 63 54
  let cls := bits c2 53 50
  let lg := bits c2 49 45
  if bits c0 63 52 != 0 || bits c0 11 0 != 0 || bits c1 63 52 != 0 || bits c1 11 0 != 0 || bits c2 15 0 != 0 ||
      cls > 8 || lg < 4 || lg > 16 || !(own < 0x200 || own == 0x201) || (cls ≥ 7 && own != 0x201) ||
      (own < 0x200 && !turnActive s own) then stField
  else if bits c2 44 34 ≥ ownerVecs own then stField
  else if (furAtSlot s own (bits c2 33 20)).isSome then stField
  else if own < 0x200 then (if furCount s own ≥ (quotaOf s own).furrows then stNoRes else stOk)
  else if fursInUse s + 1 + unusedQuota s > 262144 then stNoRes else stOk

/-- CREATE (R237): a refused one changes RESULT alone. -/
def execFurrowCreate (s : State) : Ans := keepQueue s <|
  if !barOpen s then .next s else
  let f := rd s f_DSP_FSEL_FURROW
  match furOf s f with
  | some _ => .next (fresult s stField)
  | none =>
    let st := createStatus s
    let c2 := fctx s 2
    let s := fresult s st
    if st ≠ stOk then .next s
    else .next (setFur s f (some ⟨bits c2 63 54, bits c2 53 50, fctx s 0, fctx s 1, bits c2 49 45, bits c2 44 34, bits c2 33 20,
      bits c2 19 16, false, false, 0, 0, 0, 0, [], 0, [], []⟩))

/-- ENABLE (R237, R468): held completions are written before any new fetch. -/
def execFurrowEnable (s : State) : Ans := keepQueue s <|
  if !barOpen s then .next s else
  let f := rd s f_DSP_FSEL_FURROW
  match furOf s f with
  | none => .next (fresult s stField)
  | some x =>
    if x.owner ≠ 0x201 && !turnActive s x.owner then .next (fresult s stField)
    else
      let s := fresult s stOk
      if x.enabled then .next s
      else .next (flushHeld s f)

/-- FREEZE (R237). -/
def execFurrowFreeze (s : State) : Ans := keepQueue s <|
  if !barOpen s then .next s else
  let f := rd s f_DSP_FSEL_FURROW
  match furOf s f with
  | none => .next (fresult s stField)
  | some _ => .next (modFur (fresult s stOk) f (fun x => { x with enabled := false }))

/-- Has every fetched entry of a furrow ended and been posted or held (R237). -/
def furIdle (s : State) (f : Nat) : Bool := !s.infl.any (fun e => e.f == f)

/-- RELEASE (R237, R238). -/
def execFurrowRelease (s : State) : Ans := keepQueue s <|
  if !barOpen s then .next s else
  let f := rd s f_DSP_FSEL_FURROW
  match furOf s f with
  | none => .next (fresult s stField)
  | some x =>
    if x.enabled then .next (fresult s stField)
    else if !furIdle s f then .next (fresult s stBusy)
    else .next (cplFreed (setFur (dropWaiters (fresult s stOk) (fun w => decide (w = .ring f))) f none))

/-- READ (R237). -/
def execFurrowRead (s : State) : Ans := keepQueue s <|
  if !barOpen s then .next s else
  let f := rd s f_DSP_FSEL_FURROW
  match furOf s f with
  | none => .next (fresult s stField)
  | some x =>
    let s := fresult s stOk
    let c2 := x.owner * 2 ^ 54 + x.cls * 2 ^ 50 + x.log2 * 2 ^ 45 + x.vec * 2 ^ 34 + x.slot * 2 ^ 20 + x.sched * 2 ^ 16
    .next (setReg (setReg (setReg (setReg s 0x900020 (BitVec.ofNat 64 x.sq)) 0x900028 (BitVec.ofNat 64 x.cq)) 0x900030
      (BitVec.ofNat 64 c2)) 0x900038 (x.pi ++ x.head))

end Sys2Proof.Machine
end

