-- ==== Sys2Proof/Machine/Pcie.lean ====
section
/-! DEFINITION. Machine/Pcie.lean: host ports, resets of ports and functions, slots, containment and power management
(R242–R275, R403).
Choices beyond the words of the spec: log entries DESIGN CHOICE 36, 37, 97; PRESUMED 5. -/

namespace Sys2Proof.Machine

/-! ### Updates -/

/-- Updates a function's configuration state. -/
def modFn (s : State) (fn : Nat) (g : PFun → PFun) : State :=
  { s with pcie := { s.pcie with fns := sput PFun.reset s.pcie.fns fn (g (fnOf s fn)) } }

/-- Updates an upstream port. -/
def modUp (s : State) (p : Nat) (g : UpPort → UpPort) : State :=
  { s with pcie := { s.pcie with ups := sput UpPort.reset s.pcie.ups p (g (upOf s p)) } }

/-- Updates a downstream link. -/
def modDp (s : State) (k : Nat) (g : DpLink → DpLink) : State :=
  { s with pcie := { s.pcie with dps := sput DpLink.reset s.pcie.dps k (g (dpOf s k)) } }

/-- A slot. -/
def hpSlot (s : State) (n : Nat) : Slot := sget Slot.reset s.pcie.slots n

/-- Updates a slot. -/
def modSlot (s : State) (n : Nat) (g : Slot → Slot) : State :=
  { s with pcie := { s.pcie with slots := sput Slot.reset s.pcie.slots n (g (hpSlot s n)) } }

/-- Logs an AER uncorrectable error of a function or switch port (R250). -/
def aerLog (s : State) (fn bitNo : Nat) : State := modFn s fn (fun f => { f with aerUnc := f.aerUnc ||| 2 ^ bitNo })

/-- Does a downstream link exist: its DP is assigned, and bifurcated for a second half (R242, R243). -/
def linkExists (s : State) (k : Nat) : Bool :=
  (dpUp s (k % 8)).isSome && (decide (k < 8) || bit (rd s f_HEP_TOPO_BIFUR) (k - 8))

/-- The VFs that SR-IOV of an upstream port has enabled, by turnout. -/
def vfsOf (s : State) (p : Nat) : List Nat :=
  if (upOf s p).vfEn then (List.range (upOf s p).numVfs).map (fun i => 256 * p + i) else []

/-- Sets a source's SEEN bit (R407). -/
def seen (s : State) (i : Nat) : State := wr s f_RST_CAUSE_SEEN (rd s f_RST_CAUSE_SEEN ||| 2 ^ i)

/-! ### Non-posted requests (R252, R253) -/

/-- Keeps an answer, in the order of addresses. -/
def insAns (g : PAns) : List PAns → List PAns
  | [] => [g]
  | x :: r => if g.addr < x.addr then g :: x :: r else x :: insAns g r

/-- A flume read whose completions are all in is answered (R78, R253): STATUS 3h when one of them brought no data, 1h when data are
poisoned. -/
def flumeEnd (s : State) (src tag owner : Nat) : State :=
  let w : PReq := .flume src tag
  if s.pcie.reqs.any (fun r => decide (r.who = w)) then s
  else
    let l := s.pcie.got.filter (fun g => decide (g.who = w))
    let st : Nat := if l.any (fun g => g.st == 3) then 3 else if l.any (fun g => g.st == 1) then 1 else 0
    let d := if st = 3 then [] else l.flatMap PAns.data
    send (dropAsks s (fun x => decide (x = w))) ⟨src, ioEntry src, 2, st, owner, tag, 0, d.length, d, if st = 1 then BitVec.allOnes 33 else 0, 0, 0⟩

/-- The end of an outstanding request, by STATUS (R253): the answer waits for the unit that asked; a flume request and a DMA descriptor go
on at once. -/
def npReply (s : State) (r : NpReq) (status : Nat) (l : List Byte) : State :=
  let s := { s with pcie := { s.pcie with
    reqs := s.pcie.reqs.filter (fun q => !(q.tag == r.tag && q.port == r.port))
    got := if r.who = .gone then s.pcie.got else insAns ⟨r.who, r.addr, status, l, r.len⟩ s.pcie.got } }
  match r.who with
  | .flume src tag => flumeEnd s src tag r.owner
  | .dma c k => dmaRead s c k
  | _ => s

/-- Ends every outstanding request that satisfies a predicate with STATUS 3h. -/
def npLost (s : State) (p : NpReq → Bool) : State :=
  (s.pcie.reqs.filter p).foldl (fun s r => npReply s r 3 []) s

/-- The request that a completion answers. -/
def npFind (s : State) (port tag : Nat) : Option NpReq := s.pcie.reqs.find? (fun q => q.port == port && q.tag == tag)

/-- A PCIe completion for a device-issued request (R253): `st` 0 successful, 1 Unsupported Request, 2 Completer Abort. A completion without a
request, as one that comes after its request has timed out, is discarded and logged as an unexpected completion. -/
def execPcieCompletion (port : Fin 34) (tag : Fin 16384) (st : Fin 3) (poison : Bool) (data : List Byte) (s : State) : Ans := keepQueue s <|
  match npFind s port tag with
  | none => .next (aerLog s (portFn port) 16)
  | some r =>
    if st ≠ 0 then .next (npReply s r 3 [])
    else
      let s := if poison then aerLog s (issuer s port r.owner) 12 else s
      .next (npReply s r (b2n poison) (padTo r.len data))

/-- The least time after which a request may time out, ns, by its function's Completion Timeout Value: ranges A and B (R250; PRESUMED, log
entry 5). -/
def cplTimeout (v : Nat) : Nat :=
  match v with
  | 2 => 1_000_000
  | 5 => 16_000_000
  | 6 => 65_000_000
  | _ => 50_000

/-- A device-issued request times out (R250, R253), unless Completion Timeout is disabled. -/
def execPcieCompletionTimeout (port : Fin 34) (tag : Fin 16384) (s : State) : Ans := keepQueue s <|
  match npFind s port tag with
  | none => .next s
  | some r =>
    let f := fnOf s (issuer s port r.owner)
    if bit f.devCtl2 4 || !overdue s (r.at_ + cplTimeout (bits f.devCtl2 3 0)) then .next s
    else .next (npReply (aerLog s (issuer s port r.owner) 14) r 3 [])

/-! ### FLR (R260–R262) -/

/-- The VF of turnout `t` enters FLR: its BARs refuse; within 0.1 to 0.3 µs its furrows stop fetching (R260 steps 1 and 2). -/
def flrEnter (s : State) (t : Nat) : State :=
  let (d, s) := freshBelow s 201
  { s with pcie := { s.pcie with flr := sput none s.pcie.flr t (some ⟨s.clk, false, s.clk + 100 + d⟩) } }

/-- An FLR of the VF of turnout `t` is requested: one in progress absorbs it, with a record under its port (R261, R407; DESIGN CHOICE, log
entry 97). -/
def flrStart (s : State) (t : Nat) : State :=
  let absorbed (s : State) : State := infoEvent s (0x178 + t / 256) 0x07 (rstDetail 1 true) (rstFlag true)
  if inFlr s t then absorbed s
  -- a destruction absorbs it, but for the silencing of its TLPs (R391)
  else if turnState s t = 4 then flrEnter (absorbed s) t
  else flrEnter s t

/-- A PORT reset reaches the VF of turnout `t`: it takes an FLR in progress over (R259, R261). -/
def flrTakeOver (s : State) (t : Nat) : State :=
  flrEnter (if inFlr s t then infoEvent s (0x178 + t / 256) 0x07 (rstDetail 5 false) (rstFlag false) else s) t

/-- Initiate FLR of a VF is accepted (R260, R261). -/
def execFlrInitiate (t : Fin 512) (s : State) : Ans := keepQueue s <|
  if vfExists s t then .next (seen (flrStart s t) 8) else .next s

/-- 2 µs after the FLR no further TLP of the VF leaves (R260 step 3): what it would still issue is discarded and counted, and its reads
return STATUS 3h (`physRead`, `physWrite`); a read that has left is completed. -/
def execFlrTlpCutoff (t : Fin 512) (s : State) : Ans := keepQueue s <|
  match sget none s.pcie.flr t with
  | some f =>
    if inTime s (f.at_ + 2000) then .next s
    else .next { s with pcie := { s.pcie with flr := sput none s.pcie.flr t (some { f with cut := true }) } }
  | none => .next s

/-- Clears the MSI-X state of a function. -/
def msixClear (s : State) (fn : Nat) : State :=
  { s with pcie := { s.pcie with
    msixOn := sclear s.pcie.msixOn (fn * 4096) 4096
    msixTab := sclear s.pcie.msixTab (fn * 16384) 16384
    pba := sclear s.pcie.pba (fn * 4096) 4096 } }

/-- A function's configuration space and MSI-X return to their reset values. -/
def fnReset (s : State) (fn : Nat) : State :=
  msixClear { s with pcie := { s.pcie with fns := sput PFun.reset s.pcie.fns fn PFun.reset } } fn

/-- SR-IOV of a port returns to its reset values, which is an FLR of every VF (R262). -/
def sriovReset (s : State) (p : Nat) : State :=
  let s := (vfsOf s p).foldl flrStart s
  modUp s p (fun u => { u with vfEn := false, numVfs := 0 })

/-- A function's configuration space returns to reset values, but for the PME context while the auxiliary domain holds it, the port in L2
(R272–R275; DESIGN CHOICE, log entry 97). -/
def fnResetKeep (s : State) (p fn : Nat) : State :=
  let f := fnOf s fn
  let s := fnReset s fn
  if (upOf s p).l2 then modFn s fn (fun g => { g with pmeEn := f.pmeEn, pmeSt := f.pmeSt }) else s

/-- VF Enable is cleared (`n` = 0) or NumVFs reduced to `n` (R262): every VF above the new count is removed as an FLR does. -/
def execVfDisable (p : Fin 2) (n : Fin 257) (s : State) : Ans := keepQueue s <|
  let u := upOf s p
  if !u.vfEn || u.numVfs ≤ n.val then .next s
  else
    let s := ((vfsOf s p).filter (fun t => decide (n.val ≤ t % 256))).foldl flrStart s
    .next (modUp s p (fun u => { u with vfEn := decide (0 < n.val), numVfs := n }))

/-! ### Port resets (R258, R259, R403, R407) -/

/-- The slot registers that a PORT reset returns: not power and indicators (R259), nor what the auxiliary domain holds for wakes while the
port is in L2. -/
def slotPortReset (l2 : Bool) (x : Slot) : Slot :=
  { x with ibDis := false, hpIrq := false, sAttn := x.sAttn && l2, sFault := x.sFault && l2, sPres := x.sPres && l2, sCmd := false,
           hpWake := x.hpWake && l2, woke := if l2 then x.woke else 0 }

/-- A PORT reset of UPx (R259). -/
def portReset (s : State) (p : Nat) : State :=
  let l2 := (upOf s p).l2
  let s := (vfsOf s p).foldl flrTakeOver s
  let s := modUp s p (fun u => { u with vfEn := false, numVfs := 0, turnOff := false })
  let s := fnReset (fnReset (fnResetKeep s p (pf0Of s p)) (1024 + p)) (intFn p)
  (List.range 16).foldl (fun s k =>
    if dpUp s (k % 8) = some p ∧ linkExists s k = true then
      let s := fnReset s (1032 + k)
      let s := modDp s k (fun d => { d with dpcCtl := 0, dpcTrig := false, dllsc := false })
      let s := emit s (.tlp (2 + k) 1 [])
      if k < 8 then modSlot s k (slotPortReset l2) else s
    else s) s

/-- A source that reaches PORT, CHIP or FULL acts for upstream port `p` (R403). -/
def portSource (s : State) (i p : Nat) : State :=
  match sourceLevel s i with
  | 0 => s
  | 5 => portReset (seen s i) p
  | l => raiseChip s i l

/-- PERSTx_N goes low (R258, R406): the filter acts on a pulse of 1.04 µs, ignores one shorter than 0.96 µs, and between them it is free
whether it acts; then the reset holds for the rest of the low time, and for 10 µs at least. -/
def execPerstAssert (e : PerstEdge) (s : State) : Ans := keepQueue s <|
  let (d, s) := freshBelow s 81
  let d := 960 + d
  if e.width.toNat < d then .next s
  else
    let s := modUp s e.p (fun u => { u with perst := true, link := false, perstHold := s.clk + max (e.width.toNat - d) 10000 })
    .next (portSource s (2 + e.p) e.p)

/-- Withdraws the pending wakes that a predicate names (R275): HEP_WAKE latches each, WAKE_N is released. -/
def withdraw (s : State) (q : Wake → Bool) : State :=
  let hit := s.pcie.wakes.filter q
  let rest := s.pcie.wakes.filter (fun w => !q w)
  let s := hit.foldl (fun s w =>
    setReg s f_HEP_WAKE_VALID.key (BitVec.ofNat 64
      (2 ^ 31 + 2 ^ 30 + w.port * 256 + (if 2 ≤ w.reason ∧ w.reason ≤ 4 then w.slot * 16 else 0) + w.reason))) s
  { s with pcie := { s.pcie with wakes := rest, waken := rest.any Wake.waken } }

/-- Are the PCIe controllers released: step 5 of the bring-up has ended (R397, R405). -/
def controllersUp (s : State) : Bool := !s.boot.inRst && (decide (s.boot.stage = .test) || decide (s.boot.stage = .done))

/-- PERSTx_N goes high, through the same filter (R258, R273, R275, R406): the port leaves reset, L2 or D3cold, and a pending wake of it is
withdrawn; its functions are ready within 100 ms. -/
def execPerstDeassert (e : PerstEdge) (s : State) : Ans := keepQueue s <|
  let u := upOf s e.p
  let (w, s) := freshBelow s 81
  if !u.perst || decide (e.width.toNat < 960 + w) || decide (s.clk < u.perstHold) then .next s
  else
    let s := if u.l2 || s.pcie.cold then withdraw s (fun w => w.port == e.p.val) else s
    let (d, s) := freshBelow s 100_000_001
    .next (modUp s e.p (fun u => { u with perst := false, perstAt := s.clk + 1, link := controllersUp s, l2 := false, readyAt := s.clk + d }))

/-- An in-band hot reset on an upstream port (R258). -/
def execHotReset (p : Fin 2) (s : State) : Ans := keepQueue s <|
  if (upOf s p).link then .next (portSource s (4 + p) p) else .next s

/-- The link of an upstream port goes down (R258); entry into L2 is no source (R273). -/
def execUpLinkDown (p : Fin 2) (s : State) : Ans := keepQueue s <|
  if (upOf s p).link then
    .next (portSource (modUp s p (fun u => { u with link := false })) (6 + p) p)
  else .next s

/-- A PORT reset (R259). -/
def execPortReset (p : Fin 2) (s : State) : Ans := keepQueue s <| .next (portReset s p)

/-! ### Power management (R272–R275) -/

/-- PME_TO_Ack once all functions of a port that has received PME_Turn_Off are in D3hot; the link enters L2 (R273). -/
def pmeAck (s : State) (p : Nat) : State :=
  if (upOf s p).turnOff && (upOf s p).link && (fnOf s (pf0Of s p)).d3 && (vfsOf s p).all (fun t => (fnOf s t).d3) then
    modUp (emit s (.tlp p 2 [])) p (fun u => { u with l2 := true, link := false, turnOff := false })
  else s

/-- A PowerState write of D3hot (R272, R274). -/
def execPowerStateWrite (fn : Fin 514) (s : State) : Ans := keepQueue s <|
  if fn.val < 512 && !vfExists s fn then .next s
  else
    let s := modFn s fn (fun f => { f with d3 := true })
    let s := if fn.val < 512 then s
      else (List.range 8).foldl (fun s n =>
        if dpUp s n = some (upOfFn s fn) then modSlot s n (fun x => { x with hpWake := x.hpIrq }) else s) s
    .next (pmeAck s (upOfFn s fn))

/-- PME_Turn_Off (R273): answered once all functions of the port are in D3hot. -/
def execPmeTurnOff (p : Fin 2) (s : State) : Ans := keepQueue s <|
  if (upOf s p).link then .next (pmeAck (modUp s p (fun u => { u with turnOff := true })) p) else .next s

/-- The functions of a port have pending vectors of a function. -/
def fnHeld (s : State) (fn : Nat) : Bool :=
  s.pcie.pba.any (fun q => decide (fn * 4096 ≤ q.1) && decide (q.1 < (fn + 1) * 4096))

/-- Has a wake's cause occurred, without a wake for that event before (R272, R274, R275): a held message becomes a PME while PME_Status is
0; a slot event has one wake. -/
def wakeCause (s : State) (reason slot fn : Nat) : Bool :=
  let x := hpSlot s slot
  match reason with
  | 1 => (fnOf s fn).d3 && (fnOf s fn).pmeEn && fnHeld s fn && !(fnOf s fn).pmeSt
  | 2 => x.sPres && x.hpWake && !bit x.woke 2
  | 3 => x.sAttn && x.hpWake && !bit x.woke 3
  | 4 => x.sFault && x.hpWake && !bit x.woke 4
  | 5 => true
  | _ => false

/-- The port by which a wake is signalled. -/
def wakePort (s : State) (reason slot fn : Nat) : Nat :=
  match reason with
  | 1 => upOfFn s fn
  | 2 | 3 | 4 => (dpUp s slot).getD (rd s f_HEP_TOPO_MGR_UP)
  | _ => rd s f_HEP_TOPO_MGR_UP

/-- A wake is decided (R274): PME_Status is set, and it is signalled by WAKE_N while the port is in L2 or the device in D3cold, otherwise by
a PME message, which the port transmits when its link is up. -/
def execWake (reason : Fin 6) (slot : Fin 8) (fn : Fin 514) (s : State) : Ans := keepQueue s <|
  let p := wakePort s reason slot fn
  let owner := if reason.val = 1 then fn.val else pf0Of s p
  let n := (upOf s p).l2 || s.pcie.cold
  if !wakeCause s reason slot fn || s.pcie.wakes.any (fun w => w.reason == reason.val && w.slot == slot.val && w.fn == owner) ||
      ((upOf s p).perst && !n) then .next s
  else
    let s := modFn s owner (fun f => { f with pmeSt := true })
    let s := if 2 ≤ reason.val ∧ reason.val ≤ 4 then modSlot s slot (fun x => { x with woke := x.woke ||| 2 ^ reason.val }) else s
    .next { s with pcie := { s.pcie with wakes := s.pcie.wakes ++ [⟨reason, p, slot, owner, n⟩], waken := s.pcie.waken || n } }

/-- The pending PME messages of ports whose link is up are transmitted (R274, R275). -/
def sendPmes (s : State) : State :=
  let now := s.pcie.wakes.filter (fun w => !w.waken && (upOf s w.port).link)
  let s := now.foldl (fun s w => emit s (.tlp w.port 3 (natLE 2 w.fn))) s
  { s with pcie := { s.pcie with wakes := s.pcie.wakes.filter (fun w => w.waken || !(upOf s w.port).link) } }

/-- A function's held MSI-X messages are sent as far as they are open (R249, R272). -/
def sendHeld (s : State) (fn : Nat) : State :=
  let vs := (s.pcie.pba.filter (fun q => decide (fn * 4096 ≤ q.1) && decide (q.1 < (fn + 1) * 4096))).map (fun q => q.1 - fn * 4096)
  vs.foldl (fun s v => if msixOpen s fn v then
    emit { s with pcie := { s.pcie with pba := ndel s.pcie.pba (fn * 4096 + v) } } (.msix fn v) else s) s

/-- A configuration write sets a function's PowerState to D0 (R272, R275): its pending wakes and its port's are withdrawn. -/
def execHostResume (fn : Fin 514) (s : State) : Ans := keepQueue s <|
  if !(fnOf s fn).d3 then .next s
  else
    let p := upOfFn s fn
    let s := withdraw s (fun w => w.fn == fn.val || w.port == p)
    let s := if fn.val < 512 then s
      else (List.range 8).foldl (fun s n => if dpUp s n = some p then modSlot s n (fun x => { x with hpWake := false, woke := 0 }) else s) s
    .next (sendHeld (modFn s fn (fun f => { f with d3 := false })) fn)

end Sys2Proof.Machine
end

