-- ==== Sys2Proof/Machine/Storage.lean ====
section
/-! DEFINITION. Machine/Storage.lean: namespaces, STORAGE commands, NVMe commands, power states, errors and the context
store (R333–R354).
Choices beyond the words of the spec: log entries DESIGN CHOICE 47, 48, 99; PRESUMED 46. -/

namespace Sys2Proof.Machine

/-! ### Namespaces and the medium (R335–R337) -/

/-- Bytes of a unit and of a slab. -/
def unitBytes : Nat := 2 ^ 26
/-- Blocks of a unit. -/
def unitBlocks : Nat := 16384

/-- A namespace. -/
def nsOf (s : State) (n : Nat) : Option Ns := sget none s.sto.ns n

/-- Replaces a namespace. -/
def setNs (s : State) (n : Nat) (x : Option Ns) : State := { s with sto := { s.sto with ns := sput none s.sto.ns n x } }

/-- Updates a namespace. -/
def modNs (s : State) (n : Nat) (g : Ns → Ns) : State :=
  match nsOf s n with
  | some x => setNs s n (some (g x))
  | none => s

/-- Is a drive ready (R333). -/
def drvReady (s : State) (d : Nat) : Bool := rd s (f_CQS_DRV_PRESENT d) == 1 && rd s (f_CQS_DRV_READY d) == 1

/-- Is a drive worn (R334). -/
def drvWorn (s : State) (d : Nat) : Bool := rd s (f_CQS_DRV_WORN d) == 1

/-- The medium address of a byte of a namespace; none without a slab. -/
def nsByteKey (x : Ns) (off : Nat) : Option Nat :=
  (sget none x.units (off / unitBytes)).map (fun u => u / 2 ^ 24 * 2 ^ 50 + u % 2 ^ 24 * 2 ^ 26 + off % unitBytes)

/-- A byte of a namespace: zero where its block was never written (R336). -/
def nsByte (s : State) (x : Ns) (off : Nat) : Byte :=
  match nsByteKey x off with
  | some k => if nin x.written (off / 4096) then sget 0 s.sto.disk k else 0
  | none => 0

/-- Bytes of a namespace. -/
def nsBytes (s : State) (x : Ns) (off : Nat) : Nat → List Byte
  | 0 => []
  | n + 1 => nsByte s x off :: nsBytes s x (off + 1) n

/-- Writes bytes of a block that has a slab; the change is undone by a power loss until a FLUSH covers it (R341). -/
def blockPut (s : State) (n : Nat) (off : Nat) (l : List Byte) : State :=
  match nsOf s n with
  | none => s
  | some x =>
    let b := off / 4096 * 4096
    match nsByteKey x b with
    | none => s
    | some k =>
      let old := nsBytes s x b 4096
      let new := putAt old (off - b) l
      let s := { s with sto := { s.sto with
        undo := s.sto.undo ++ [⟨s.seq, k / 2 ^ 50, n, b, old⟩]
        disk := putBytes 0 s.sto.disk k new } }
      modNs s n (fun x => { x with written := nadd x.written (b / 4096) })

/-- Writes bytes of a namespace, block by block: fuel is the number of blocks touched. -/
def nsPut (n : Nat) : Nat → Nat → List Byte → State → State
  | 0, _, _, s => s
  | f + 1, off, l, s =>
    if l.isEmpty then s
    else
      let k := 4096 - off % 4096
      nsPut n f (off + k) (l.drop k) (blockPut s n off (l.take k))

/-- Writes bytes of a namespace. -/
def nsWrite (s : State) (n off : Nat) (l : List Byte) : State := nsPut n (l.length / 4096 + 2) off l s

/-- Clears the written bits of blocks: they read as zeros (R336). -/
def nsZero (s : State) (n lo cnt : Nat) : State :=
  match nsOf s n with
  | none => s
  | some x =>
    let hit := x.written.filter (fun p => decide (lo ≤ p.1) && decide (p.1 < lo + cnt))
    let s := { s with sto := { s.sto with undo := s.sto.undo ++ hit.map (fun p =>
      ⟨s.seq, ((nsByteKey x (4096 * p.1)).getD 0) / 2 ^ 50, n, 4096 * p.1, nsBytes s x (4096 * p.1) 4096⟩) } }
    modNs s n (fun x => { x with written := sclear x.written lo cnt })

/-- Slabs of the pool in use on a drive. -/
def usedOn (s : State) (d : Nat) : Nat := (s.sto.used.filter (fun p => p.1 / 2 ^ 24 == d)).length

/-- Refreshes CQS_DRVn.FREE: every slab but slab 0 and those in use. -/
def drvFree (s : State) (d : Nat) : State := wr s (f_CQS_DRV_FREE d) (rd s (f_CQS_DRV_SLABS d) - 1 - usedOn s d)

/-- The drive that gives the next slab: ready, not worn, most free slabs, the lower number on a tie (R335). -/
def slabDrive (s : State) : Option Nat :=
  (List.range 16).foldl (fun b d =>
    if drvReady s d && !drvWorn s d && decide (0 < rd s (f_CQS_DRV_FREE d)) then
      match b with
      | some e => if rd s (f_CQS_DRV_FREE e) < rd s (f_CQS_DRV_FREE d) then some d else b
      | none => some d
    else b) none

/-- Blocks of slabs that a turnout's namespaces hold. -/
def blocksOf (s : State) (t : Nat) : Nat :=
  s.sto.ns.foldl (fun a p => match p.2 with
    | some x => if x.owner = t then a + unitBlocks * x.units.length else a
    | none => a) 0

/-- Gives a unit a slab (R335): none when the pool or the turnout's block quota cannot supply it (R351). -/
def giveSlab (s : State) (n u : Nat) : Option State :=
  match nsOf s n with
  | none => none
  | some x =>
    if (sget none x.units u).isSome then some s
    else if blocksOf s x.owner + unitBlocks > (quotaOf s x.owner).blocks then none
    else match slabDrive s with
      | none => none
      | some d =>
        match findBelow (fun k => decide (0 < k) && !nin s.sto.used (d * 2 ^ 24 + k)) (rd s (f_CQS_DRV_SLABS d)) with
        | none => none
        | some k =>
          let s := { s with sto := { s.sto with used := nadd s.sto.used (d * 2 ^ 24 + k) } }
          some (drvFree (modNs s n (fun x => { x with units := sput none x.units u (some (d * 2 ^ 24 + k)) })) d)

/-- Gives slabs to a run of units, all or none: fuel is their number. -/
def giveSlabs (n : Nat) : Nat → Nat → State → Option State
  | 0, _, s => some s
  | f + 1, u, s => (giveSlab s n u).bind (giveSlabs n f (u + 1))

/-- Returns a unit's slab to the pool (R336). -/
def freeUnit (s : State) (n u : Nat) : State :=
  match nsOf s n with
  | none => s
  | some x => match sget none x.units u with
    | none => s
    | some k =>
      let d := k / 2 ^ 24
      let s := { s with sto := { s.sto with
        used := ndel s.sto.used k
        disk := sclear s.sto.disk (d * 2 ^ 50 + k % 2 ^ 24 * 2 ^ 26) unitBytes
        undo := s.sto.undo.filter (fun q => !(q.ns == n && q.off / unitBytes == u)) } }
      drvFree (modNs s n (fun x => { x with units := sput none x.units u none, written := sclear x.written (u * unitBlocks) unitBlocks })) d

/-- Removes a namespace and returns its slabs (R338). -/
def dropNs (s : State) (n : Nat) : State :=
  match nsOf s n with
  | none => s
  | some x => setNs (x.units.foldl (fun s p => freeUnit s n p.1) s) n none

/-! ### Entries (R339, R340) -/

/-- Opcodes with a meaning. -/
def stoOps : List Nat := [0x01, 0x02, 0x03, 0x04, 0x05, 0x06, 0x07, 0x80, 0x81, 0x82, 0x83, 0x84]

/-- NSID. -/
def eNs (b : List Byte) : Nat := le b 16 4
/-- SLBA. -/
def eSlba (b : List Byte) : Nat := le b 24 8
/-- COUNT. -/
def eCount (b : List Byte) : Nat := le b 32 4
/-- CONTEXT. -/
def eCtx (b : List Byte) : Nat := le b 36 4
/-- ADDR. -/
def eAddr (b : List Byte) : Nat := le b 48 8

/-- Does an opcode use a field: 0 NSID, 1 KIND, 2 SLBA, 3 COUNT, 4 CONTEXT, 5 SLOT and MODE, 6 ADDR (R339). -/
def stoUses (op fld : Nat) : Bool :=
  match op with
  | 0x01 | 0x02 => fld == 0 || fld == 2 || fld == 3 || fld == 6
  | 0x03 | 0x81 => fld == 0
  | 0x04 | 0x05 => fld == 0 || fld == 2 || fld == 3
  | 0x06 | 0x07 => fld == 0 || fld == 2 || fld == 3 || fld == 4 || fld == 6
  | 0x80 => fld == 1 || fld == 2
  | 0x82 => fld == 3 || fld == 6
  | 0x83 => fld == 5
  | 0x84 => fld == 0 || fld == 3 || fld == 6
  | _ => false

/-- A reserved field or value that is not zero (R10, R339). -/
def stoReserved (b : List Byte) : Bool :=
  let op := le b 0 1
  let u := stoUses op
  headerBad b || lef b 20 1 6 1 != 0 || !zeroAt b 21 3 || !zeroAt b 43 5 || !zeroAt b 56 8 ||
  (!u 0 && !zeroAt b 16 4) || (!u 1 && lef b 20 1 0 0 != 0) || (!u 2 && !zeroAt b 24 8) || (!u 3 && !zeroAt b 32 4) ||
  (!u 4 && !zeroAt b 36 4) || (!u 5 && !zeroAt b 40 3) || (!u 6 && !zeroAt b 48 8) ||
  (u 5 && (lef b 40 2 15 14 != 0 || lef b 42 1 7 1 != 0)) || ((op == 6 || op == 7) && lef b 24 8 63 48 != 0) ||
  (u 6 && eAddr b % 64 != 0)

/-- COUNT's bounds (R339). -/
def stoCountBad (b : List Byte) : Bool :=
  let n := eCount b
  match le b 0 1 with
  | 0x01 | 0x02 => n < 1 || n > 1024
  | 0x04 | 0x05 => n < 1 || n > 2 ^ 24
  | 0x06 => n < 64 || n > 65536 || n % 64 != 0
  | 0x80 => eSlba b < 16384 || eSlba b > 2 ^ 40
  | _ => false

/-- The status that a STORAGE entry's fields give at its fetch (R337, R339, R353); 0 where they are valid. -/
def stoValidate (s : State) (t : Nat) (b : List Byte) : Nat :=
  let op := le b 0 1
  if !stoOps.contains op then stOpcode
  else if stoReserved b || stoCountBad b then stField
  else if !stoUses op 0 then stOk
  else match nsOf s (eNs b) with
    | none => stField
    | some x =>
      let blk := op == 1 || op == 2 || op == 4 || op == 5
      let cx := op == 6 || op == 7 || op == 0x84
      if x.owner != t || x.gone || (blk && x.ctx) || (cx && !x.ctx) then stField
      else if blk && decide (eSlba b + eCount b > x.nsze) then stField
      else if (op == 6 || op == 7) && !x.indexed then stField
      else if op == 6 && (sget none s.mim.ctxs (t * 2 ^ 32 + eCtx b)).isSome then stField
      else stOk

/-- Does an opcode take a range lock (R343). -/
def stoLocks (op : Nat) : Bool := op == 1 || op == 2 || op == 4 || op == 5

/-- Do two locks conflict (R343). -/
def lockHit (a b : RLock) : Bool :=
  a.ns == b.ns && !(a.rd && b.rd) && decide (a.lo < b.lo + b.n) && decide (b.lo < a.lo + a.n)

/-- Does an earlier-fetched command that still holds its entry overlap this lock. -/
def lockBlocked (s : State) (l : RLock) : Bool := s.sto.locks.any (fun m => decide (m.seq < l.seq) && lockHit l m)

/-- Takes a range lock at the fetch of an entry (R343). -/
def takeLock (s : State) (f i seq : Nat) (b : List Byte) : State :=
  let l : RLock := ⟨f, i, seq, eNs b, eSlba b, eCount b, le b 0 1 == 1⟩
  let blocked := lockBlocked s l
  let s := lockCount { s with sto := { s.sto with locks := s.sto.locks ++ [l] } }
  if blocked then incF (modEntry s f i (fun e => { e with snap := [1] })) f_CQS_CNT_RLWAIT_V 1 else s

/-- A waiting command starts once nothing it overlaps remains ahead of it (R343). -/
def execRangeLockGrant (f : Fin 262144) (i : Fin 65536) (s : State) : Ans := keepQueue s <|
  match s.sto.locks.find? (fun l => l.f == f.val && l.i == i.val) with
  | some l => .next (if lockBlocked s l then s else modEntry s f i (fun e => { e with snap := e.snap.set 0 0 }))
  | none => .next s

/-- Entries of class STORAGE that are in flight. -/
def stoBusy (s : State) : Bool := s.infl.any (fun e => furClass s e.f == clStorage)

/-- A lower power state is entered once every fetched command has completed (R347). -/
def psStart (s : State) : State :=
  let q := rd s f_CQS_PS_REQ
  if rd s f_CQS_PS_BUSY = 0 ∧ q ≠ rd s f_CQS_PS_CUR ∧ (q = 0 ∨ stoBusy s = false) then
    let s := wr s f_CQS_PS_BUSY 1
    { s with sto := { s.sto with psTo := q } }
  else s

/-- A fetched command brings the function back to PS0 (R348). -/
def psWake (s : State) : State :=
  if rd s f_CQS_PS_CUR ≠ 0 ∨ rd s f_CQS_PS_BUSY = 1 then psStart (wr s f_CQS_PS_REQ 0) else s

/-- Has an entry started: from then on it waits for pages, ports or drives, but no longer for other entries (R342). -/
def stoStarted (e : Entry) : Bool := e.snap.headD 0 == 2

/-- Entries of an entry's furrow that were fetched before it and have not completed. -/
def stoBefore (s : State) (e : Entry) : List Entry := s.infl.filter (fun x => x.f == e.f && decide (x.seq < e.seq))

/-- Can a fetched entry start: PS0, every earlier entry of its furrow has started, no ordering rule in its way, its range granted
(R342, R343, R348). -/
def stoCanStart (s : State) (e : Entry) : Bool :=
  let ordered (x : Entry) : Bool := lef x.b 20 1 7 7 == 1
  let before := stoBefore s e
  rd s f_CQS_PS_CUR == 0 && rd s f_CQS_PS_BUSY == 0 && e.snap.headD 0 != 1 && !(before.any ordered) &&
  (!ordered e || before.isEmpty) && before.all (fun x => stoStarted x || decide (x.ph ≠ .fetched))

/-- Runs a STORAGE row on an entry that has started or can start. -/
def stoRun (f : Fin 262144) (i : Fin 65536) (op : Nat) (s : State) (k : State → Entry → State) : Ans :=
  .next (runEntry s f i clStorage op (fun e =>
    if stoStarted e then k s e
    else if stoCanStart s e then k (modEntry s e.f e.i (fun e => { e with snap := [2] })) { e with snap := [2] }
    else s))

/-- Drives that hold a slab of a namespace. -/
def nsDrives (x : Ns) : List Nat := (List.range 16).filter (fun d => x.units.any (fun p => match p.2 with
  | some k => k / 2 ^ 24 == d
  | none => false))

/-- Cuts a byte range of a namespace at the unit boundaries: fuel, offset, bytes. -/
def unitPieces : Nat → Nat → Nat → List (Nat × Nat)
  | 0, _, _ => []
  | f + 1, off, n =>
    if n = 0 then []
    else
      let k := min n (unitBytes - off % unitBytes)
      (off, k) :: unitPieces f (off + k) (n - k)

/-- The pieces that have a slab, with their drives. -/
def slabPieces (x : Ns) (off n : Nat) : List (Nat × Nat × Nat) :=
  (unitPieces (n / unitBytes + 2) off n).filterMap (fun p =>
    (sget none x.units (p.1 / unitBytes)).map (fun k => (k / 2 ^ 24, p.1, p.2)))

/-- Is a drive's command identifier free (16 queues of depth 1,024, R333). -/
def nvId (s : State) (d : Nat) : Option Nat := findBelow (fun k => s.sto.cmds.all (fun c => !(c.drive == d && c.id == k))) 16384

/-- Submits an NVMe command; one without a free identifier is not submitted. -/
def nvIssue (s : State) (d f i : Nat) (kind : NvKind) (n off len : Nat) (data : List Byte) (ent : Option CtxRec) : State :=
  match nvId s d with
  | some k => { s with sto := { s.sto with cmds := s.sto.cmds ++ [⟨d, k, f, i, kind, n, off, len, data, ent, s.clk, false⟩] } }
  | none => s

/-- Does no drive of a list activate (R350), and has each a free identifier for the commands wanted. -/
def drvsFree (s : State) (ds : List Nat) : Bool :=
  ds.all (fun d => rd s (f_CQS_DRV_ACTIVATING d) == 0 &&
    decide ((s.sto.cmds.filter (fun c => c.drive == d)).length + ds.length ≤ 16384))

/-- The engine's note on an entry: that it started, the drive that failed plus 1, its Status Field, the first block of the failing
command, the status, and a result kept for the end. -/
def stoNote (drv nvst lba st res : Nat) : List Nat := [2, drv, nvst, lba, st, res]

/-- Issues the commands of an entry over its pieces, or goes on at once where there is none. A drive that is not ready ends it with
DEVICE_FAULT (R340); it waits in `s0` for one that activates (R350). -/
def stoIssue (s0 s : State) (e : Entry) (ps : List (Nat × Nat × Nat)) (kind : NvKind) (n : Nat) (data : Nat → List Byte)
    (ent : Option CtxRec) (res : Nat) (done : State → State) : State :=
  match ps.find? (fun p => !drvReady s p.1) with
  | some p => endEntry (modEntry s0 e.f e.i (fun e => { e with snap := stoNote (p.1 + 1) 0 (p.2.1 / 4096) 0 0 })) e.f e.i stFault noResult
  | none =>
    if !drvsFree s (ps.map (fun p => p.1)) then s0
    else if ps.isEmpty then done s
    else modEntry (ps.foldl (fun s p => nvIssue s p.1 e.f e.i kind n p.2.1 p.2.2 ((data p.2.1).take p.2.2) ent) s) e.f e.i
      (fun e => { e with ph := .running, snap := stoNote 0 0 0 0 res })

/-- SOURCE code of storage data (R228). -/
def srcStorage : Nat := 4

/-- Data read from the drives are written to ADDR; `ok` goes on. -/
def bufDone (s : State) (e : Entry) (l : List Byte) (ok : State → State) : State :=
  match runMM s (writeSp (ioOf e) (furOwner s e.f) (eAddr e.b) l) with
  | (.ok _, s) => ok s
  | (.error err, s) => endEntry s e.f e.i (merrStatus err) noResult

/-- The data of a READ are written to ADDR and the entry ends. -/
def readDone (s : State) (e : Entry) (x : Ns) : State :=
  bufDone s e (nsBytes s x (4096 * eSlba e.b) (4096 * eCount e.b)) fun s => endEntry s e.f e.i stOk (eCount e.b)

/-- Runs an entry whose buffer of `n` bytes at ADDR has been translated for a write (R229). -/
def bufReady (s : State) (e : Entry) (n : Nat) (k : State → State) : State :=
  withData s e srcStorage (writeTargets (ioOf e) (furOwner s e.f) (pagePieces (n / 4096 + 2) (eAddr e.b) n)) fun _ s => k s

/-- READ (R339, R336). The buffer's pages are translated before a drive is asked. -/
def execRead (f : Fin 262144) (i : Fin 65536) (s : State) : Ans := keepQueue s <|
  stoRun f i 0x01 s fun s e =>
    match nsOf s (eNs e.b) with
    | none => endEntry s f i stField noResult
    | some x =>
      let n := 4096 * eCount e.b
      bufReady s e n fun s =>
        stoIssue s s e (slabPieces x (4096 * eSlba e.b) n) .read (eNs e.b) (fun _ => []) none 0 (fun s => readDone s e x)

/-- NO_SPACE with a worn ready drive makes the namespace READ_ONLY (R351). -/
def noSpace (s : State) (f i n : Nat) : State :=
  let s := endEntry s f i stNoSpace noResult
  if (List.range 16).any (fun d => drvReady s d && drvWorn s d) then
    event (incF (modNs s n (fun x => { x with ro := true })) f_CQS_CNT_NOSPACE_V 1) 0x195 1 0x0E n
  else s

/-- First unit and number of units of a byte range. -/
def unitRange (off n : Nat) : Nat × Nat := (off / unitBytes, (off + n + unitBytes - 1) / unitBytes - off / unitBytes)

/-- WRITE (R339, R351). -/
def execWrite (f : Fin 262144) (i : Fin 65536) (s : State) : Ans := keepQueue s <|
  stoRun f i 0x02 s fun s e =>
    match nsOf s (eNs e.b) with
    | none => endEntry s f i stField noResult
    | some x =>
      let n := eCount e.b
      let off := 4096 * eSlba e.b
      if x.ro then endEntry s f i stReadOnly noResult
      else withData s e srcStorage (readSp (ioOf e) (furOwner s f) (eAddr e.b) (4096 * n)) fun d s1 =>
        let (u, k) := unitRange off (4096 * n)
        match giveSlabs (eNs e.b) k u s1 with
        | none => noSpace s1 f i (eNs e.b)
        | some s2 => match nsOf s2 (eNs e.b) with
          | none => s2
          | some y => stoIssue s2 s2 e (slabPieces y off (4096 * n)) .write (eNs e.b) (fun o => d.drop (o - off)) none 0
              (fun s => endEntry s f i stOk n)

/-- FLUSH (R341): it waits until every earlier entry of its furrow has completed. -/
def execFlush (f : Fin 262144) (i : Fin 65536) (s : State) : Ans := keepQueue s <|
  stoRun f i 0x03 s fun s e =>
    if !(stoBefore s e).isEmpty then s
    else match nsOf s (eNs e.b) with
      | none => endEntry s f i stField noResult
      | some x => stoIssue s s e ((nsDrives x).map (fun d => (d, 0, 0))) .flush (eNs e.b) (fun _ => []) none 0
          (fun s => endEntry s f i stOk 0)

/-- WRITE_ZEROES (R339, R351). -/
def execWriteZeroes (f : Fin 262144) (i : Fin 65536) (s : State) : Ans := keepQueue s <|
  stoRun f i 0x04 s fun s e =>
    match nsOf s (eNs e.b) with
    | none => endEntry s f i stField noResult
    | some x =>
      let n := eCount e.b
      let off := 4096 * eSlba e.b
      if x.ro then endEntry s f i stReadOnly noResult
      else
        let (u, k) := unitRange off (4096 * n)
        match giveSlabs (eNs e.b) k u s with
        | none => noSpace s f i (eNs e.b)
        | some s2 => match nsOf s2 (eNs e.b) with
          | none => s2
          | some y => stoIssue s2 s2 e (slabPieces y off (4096 * n)) .zero (eNs e.b) (fun _ => []) none 0 (fun s => endEntry s f i stOk n)

/-- TRIM (R336, R351). -/
def execTrim (f : Fin 262144) (i : Fin 65536) (s : State) : Ans := keepQueue s <|
  stoRun f i 0x05 s fun s e =>
    match nsOf s (eNs e.b) with
    | none => endEntry s f i stField noResult
    | some x =>
      let n := eCount e.b
      if x.ro then endEntry s f i stReadOnly noResult
      else stoIssue s s e (slabPieces x (4096 * eSlba e.b) (4096 * n)) .dealloc (eNs e.b) (fun _ => []) none 0
        (fun s => endEntry s f i stOk n)

/-! ### The context store (R352–R354) -/

/-- SYNC of a record. -/
def ctxSync : List Byte := [0xD2, 0xC4, 0x7B, 0x0F, 0xE1, 0x96, 0x3C, 0x5A]

/-- A record: header, payload, zeros up to the next 64-byte boundary (R352). -/
def ctxRecord (ty pfmt t ctx page tokens seq : Nat) (payload : List Byte) : List Byte :=
  let h := ctxSync ++ natLE 1 (16 + ty) ++ natLE 1 pfmt ++ natLE 2 t ++ natLE 4 ctx ++ natLE 6 page ++ natLE 1 tokens ++ [0] ++
    natLE 8 seq ++ natLE 4 payload.length ++ natLE 4 (if payload.isEmpty then 0 else crc32c payload) ++ List.replicate 20 0
  let r := h ++ natLE 4 (crc32c h) ++ payload
  padTo (alignUp r.length 64) r

/-- Prepares the log for a record of `n` bytes: its offset, opening a segment with its SEGMENT record where the current one has
no room (R352); none where no slab can be had. -/
def ctxRoom (s : State) (ns n : Nat) : Option (State × Nat) :=
  match nsOf s ns with
  | none => none
  | some x =>
    if x.head ≠ 0 ∧ x.head % unitBytes + n ≤ unitBytes ∧ x.head % unitBytes ≠ 0 then some (s, x.head)
    else
      match findBelow (fun u => (sget none x.units u).isNone) (x.nsze / unitBlocks) with
      | none => none
      | some u => (giveSlab s ns u).map (fun s =>
          let r := ctxRecord 3 0 x.owner 0 0 0 x.seq []
          let s := nsWrite s ns (u * unitBytes) r
          (modNs s ns (fun x => { x with seq := x.seq + 1, head := u * unitBytes + r.length }), u * unitBytes + r.length))

/-- Appends a record, for the engine's own use: Mimin's demotions and compaction. The index takes it at once. -/
def ctxAppend (s : State) (ns ty pfmt ctx page tokens : Nat) (payload : List Byte) : Option State :=
  match ctxRoom s ns (64 + alignUp payload.length 64) with
  | none => none
  | some (s, off) => match nsOf s ns with
    | none => none
    | some x =>
      let r := ctxRecord ty (if ty = 1 then pfmt else 0) x.owner ctx page tokens x.seq payload
      let s := nsWrite s ns off r
      some (modNs s ns (fun x => { x with
        seq := x.seq + 1, head := off + r.length,
        index := x.index ++ [⟨x.owner, ctx, page, x.seq, off, payload.length, ty == 2, pfmt⟩] }))

/-- The index entry of highest SEQ for a page. -/
def ctxFind (x : Ns) (t ctx page : Nat) : Option CtxRec :=
  (x.index.filter (fun r => r.t == t && r.ctx == ctx && r.page == page)).foldl (fun b r =>
    match b with
    | some q => if q.seq < r.seq then some r else b
    | none => some r) none

/-- A span that RECOVER reports (R354). -/
structure Span where
  /-- OFFSET. -/
  off : Nat
  /-- LENGTH. -/
  len : Nat
  /-- HEADER_KNOWN, CONTEXT, PAGEID and SEQ_LO of a known header. -/
  known : Option (Nat × Nat × Nat)
  /-- SEQ_LO of a span whose header is unknown. -/
  seqLo : Nat
deriving DecidableEq, Repr

/-- Are a candidate header's fields valid (R354). -/
def ctxValid (h : List Byte) : Bool :=
  let ty := lef h 8 1 3 0
  lef h 8 1 7 4 == 1 && (ty == 1 || ty == 2 || ty == 3) && lef h 9 1 7 5 == 0 && (ty != 1 || lef h 9 1 4 0 < 0x14) && lef h 10 2 15 9 == 0 &&
  lef h 22 1 7 7 == 0 && lef h 22 1 6 0 ≤ 64 && zeroAt h 23 1 && le h 32 4 ≤ 65536 && zeroAt h 40 20

/-- What a scan has gathered: index entries, spans, the open skipped span's start, the last SEQ. -/
structure Scan where
  /-- Index entries, newest first. -/
  recs : List CtxRec
  /-- Spans, newest first. -/
  spans : List Span
  /-- 1 + the start of the bytes being skipped. -/
  skip : Nat
  /-- SEQ of the preceding record. -/
  last : Nat
deriving DecidableEq, Repr

/-- Closes a skipped span: it is reported where it holds a non-zero byte (R354). -/
def scanClose (s : State) (x : Ns) (g : Scan) (pos : Nat) : Scan :=
  if g.skip = 0 then g
  else
    let a := g.skip - 1
    if (nsBytes s x a (pos - a)).all (fun b => b == 0) then { g with skip := 0 }
    else { g with skip := 0, spans := ⟨a, pos - a, none, (g.last + 1) % 2 ^ 32⟩ :: g.spans }

/-- The scan of a segment (R354): fuel, position. -/
def scanSeg (s : State) (x : Ns) (hi : Nat) : Nat → Nat → Scan → Scan
  | 0, pos, g => scanClose s x g pos
  | f + 1, pos, g =>
    if pos + 64 > hi then scanClose s x (if g.skip = 0 ∧ pos < hi then { g with skip := pos + 1 } else g) hi
    else
      let h := nsBytes s x pos 64
      if h.take 8 == ctxSync && le h 60 4 == crc32c (h.take 60) && ctxValid h then
        let g := scanClose s x g pos
        let len := le h 32 4
        let n := 64 + alignUp len 64
        let p := nsBytes s x (pos + 64) len
        let g := if le h 36 4 = (if len = 0 then 0 else crc32c p) then
            (if lef h 8 1 3 0 = 3 then g
              else { g with recs := ⟨lef h 10 2 8 0, le h 12 4, le h 16 6, le h 24 8, pos, len, lef h 8 1 3 0 == 2, lef h 9 1 4 0⟩ :: g.recs })
          else { g with spans := ⟨pos, n, some (le h 12 4, le h 16 6, le h 24 4), 0⟩ :: g.spans }
        scanSeg s x hi f (pos + n) { g with last := le h 24 8 }
      else scanSeg s x hi f (pos + 1) (if g.skip = 0 then { g with skip := pos + 1 } else g)

/-- A span entry of the report: 32 bytes (R354). -/
def spanBytes (p : Span) : List Byte :=
  let (ctx, page, sq) := p.known.getD (0, 0, p.seqLo)
  natLE 8 p.off ++ natLE 4 p.len ++ natLE 1 (b2n p.known.isSome) ++ [0, 0, 0] ++ natLE 4 ctx ++ natLE 6 page ++ [0, 0] ++ natLE 4 sq

/-- CTX_GET ends once its drives have given the record (R353). -/
def getDone (s : State) (e : Entry) (x : Ns) (seq : Nat) : State :=
  match x.index.find? (fun r => r.seq == seq) with
  | some r => bufDone s e (nsBytes s x (r.off + 64) r.len) fun s => endEntry s e.f e.i stOk (seq % 2 ^ 32)
  | none => endEntry s e.f e.i stField noResult

/-- RECOVER ends once its drives have given every segment: the index is rebuilt and the log head set after the record of highest SEQ,
or after a CTX_PUT's that is on its way (R354). -/
def recoverDone (s : State) (e : Entry) (x : Ns) : State :=
  let n := eNs e.b
  let g := x.units.foldl (fun g p => scanSeg s x ((p.1 + 1) * unitBytes) unitBytes (p.1 * unitBytes) g) ⟨[], [], 0, 0⟩
  let recs := g.recs.reverse
  let spans := g.spans.reverse
  let rep := natLE 8 recs.length ++ natLE 8 spans.length ++ (spans.take ((eCount e.b - 16) / 32)).flatMap spanBytes
  bufDone s e (rep.take (eCount e.b)) fun s =>
    let top := (recs ++ s.sto.cmds.filterMap (fun c => if c.ns = n then c.entry else none)).foldl (fun b r => match b with
      | some q => if q.seq < r.seq then some r else b
      | none => some r) (none : Option CtxRec)
    let s := modNs s n (fun x => { x with
      indexed := true, index := recs,
      seq := (top.map (fun r => r.seq + 1)).getD x.seq,
      head := (top.map (fun r => r.off + 64 + alignUp r.len 64)).getD x.head })
    endEntry (incF s f_CQS_CNT_LOST_V spans.length) e.f e.i stOk spans.length

/-! ### NVMe completions (R340, R346, R350) -/

/-- Updates an NVMe command list: removes one command. -/
def nvDrop (s : State) (c : Nvme) : State :=
  { s with sto := { s.sto with cmds := s.sto.cmds.filter (fun q => !(q.drive == c.drive && q.id == c.id)) } }

/-- Does a deallocation cover every block that its unit has (R336). -/
def wholeUnit (x : Ns) (c : Nvme) : Bool := c.off % unitBytes == 0 && (c.len == unitBytes || c.off + c.len == 4096 * x.nsze)

/-- Commits what a command did to the medium, and the index entry of a CTX_PUT. -/
def nvCommit (s : State) (c : Nvme) (seq : Nat) : State :=
  match c.kind with
  | .read => s
  | .write =>
    let s := nsWrite s c.ns c.off c.data
    match c.entry with
    | some r => modNs s c.ns (fun x => { x with index := x.index ++ [r] })
    | none => s
  | .zero => nsZero s c.ns (c.off / 4096) (c.len / 4096)
  | .dealloc => match nsOf s c.ns with
    | some x =>
      -- the drive's share of a namespace that is being deleted (R338)
      if c.len = 0 then x.units.foldl (fun s p => match p.2 with
        | some k => if k / 2 ^ 24 = c.drive then freeUnit s c.ns p.1 else s
        | none => s) s
      else if wholeUnit x c then freeUnit s c.ns (c.off / unitBytes)
      else nsZero s c.ns (c.off / 4096) (c.len / 4096)
    | none => s
  | .flush => { s with sto := { s.sto with undo := s.sto.undo.filter (fun u => !(u.drive == c.drive && decide (u.stamp ≤ seq))) } }

/-- A write that failed leaves each block old or new, whole (R340): fuel is the number of blocks. -/
def nvTorn (c : Nvme) : Nat → Nat → List Byte → State → State
  | 0, _, _, s => s
  | f + 1, off, l, s =>
    if l.isEmpty then s
    else
      let (b, s) := freshBelow s 2
      let k := 4096 - off % 4096
      let s := if b = 1 then blockPut s c.ns off (l.take k) else s
      nvTorn c f (off + k) (l.drop k) s

/-- A failed command leaves each block of its range old or new, whole (R340, R349); a deallocation or a write of zeros likewise. -/
def nvFail (s : State) (c : Nvme) : State :=
  match c.kind with
  | .write => nvTorn c (c.len / 4096 + 2) c.off c.data s
  | .zero | .dealloc => (List.range (c.len / 4096)).foldl (fun s k =>
      let (b, s) := freshBelow s 2
      if b = 1 then nsZero s c.ns (c.off / 4096 + k) 1 else s) s
  | .read | .flush => s

/-- The status a drive's Status Field gives: success, media error for a write fault or an unrecovered read error, otherwise a
device fault. Status Code in [7:0], Status Code Type in [10:8]. -/
def nvStatus (st : Nat) : Nat :=
  if bits st 10 0 = 0 then stOk
  else if bits st 10 8 = 2 ∧ (bits st 7 0 = 0x80 ∨ bits st 7 0 = 0x81) then stMedia
  else stFault

/-- All commands of an entry have ended: it ends. -/
def stoFinish (s : State) (e : Entry) : State :=
  if s.sto.cmds.any (fun c => c.f == e.f && c.i == e.i) || e.ph != .running then s
  else
    let st := e.snap.getD 4 0
    if st ≠ 0 then endEntry s e.f e.i st noResult
    else match e.op with
      | 0x01 => match nsOf s (eNs e.b) with
        | some x => readDone s e x
        | none => endEntry s e.f e.i stFault noResult
      | 0x07 => match nsOf s (eNs e.b) with
        | some x => getDone s e x (e.snap.getD 5 0)
        | none => endEntry s e.f e.i stFault noResult
      | 0x84 => match nsOf s (eNs e.b) with
        | some x => recoverDone s e x
        | none => endEntry s e.f e.i stFault noResult
      | 0x81 => endEntry (dropNs s (eNs e.b)) e.f e.i stOk 0
      | 0x02 | 0x04 | 0x05 => endEntry s e.f e.i stOk (eCount e.b)
      | 0x06 => endEntry s e.f e.i stOk (e.snap.getD 5 0)
      | _ => endEntry s e.f e.i stOk 0

/-- Records the first failure of an entry: drive, Status Field, first block, status. -/
def stoFail (s : State) (c : Nvme) (nvst st : Nat) : State :=
  modEntry s c.f c.i (fun e => if e.snap.getD 4 0 ≠ 0 then e else { e with snap := stoNote (c.drive + 1) nvst (c.off / 4096) st (e.snap.getD 5 0) })

/-- TMO of the storage engine in ns. -/
def stoTmo (s : State) : Nat := 1_000_000 * rd s f_CQS_CFG_TMO

/-- Has a command passed its deadline, or, once aborted, a further TMO (R346); the instant itself still counts (R12). Deadlines stand
still while the drive activates (R350). -/
def nvLate (s : State) (c : Nvme) : Bool :=
  rd s (f_CQS_DRV_ACTIVATING c.drive) == 0 && overdue s (c.at_ + (if c.aborted then 2 else 1) * stoTmo s)

/-- A command's deadline has passed (R346): an NVMe Abort goes out, and its entry ends with TIMEOUT. -/
def nvExpire (s : State) (c : Nvme) : State :=
  let s := { s with sto := { s.sto with cmds := s.sto.cmds.map (fun q =>
    if q.drive == c.drive && q.id == c.id then { q with aborted := true } else q) } }
  let s := incF (event s (0x182 + c.drive) 1 0x0B 1) f_CQS_CNT_TMO_V 1
  let s := stoFail s c 0 stTimeout
  match entryOf s c.f c.i with
  | some e => if e.ph = .running then endEntry s c.f c.i stTimeout noResult else s
  | none => s

/-- A command ends without its drive's completion or with a failure: `st` is the entry's status. -/
def nvEndBad (s : State) (c : Nvme) (nvst st : Nat) : State :=
  let s := stoFail (nvFail (nvDrop s c) c) c nvst st
  match entryOf s c.f c.i with
  | some e => stoFinish s e
  | none => s

/-- A drive's controller is reset (R346): every command on it ends, and it is not ready until its controller starts again. -/
def ctlReset (s : State) (d : Nat) : State :=
  (s.sto.cmds.filter (fun c => c.drive == d)).foldl (fun s c => nvEndBad s c 0 stFault) (wr s (f_CQS_DRV_READY d) 0)

/-- A drive ends an NVMe command with a Status Field, bits [15:1] (R340). -/
def nvComplete (s : State) (c : Nvme) (st : Nat) : State :=
  let r := nvStatus st
  if r ≠ stOk then nvEndBad (if r = stMedia then incF s f_CQS_CNT_MEDIA_V 1 else s) c st r
  else
    let seq := ((entryOf s c.f c.i).map Entry.seq).getD 0
    let s := nvCommit (nvDrop s c) c seq
    match entryOf s c.f c.i with
    | some e => stoFinish s e
    | none => s

/-- A drive completes an NVMe command (R340): `st` is the Status Field, bits [15:1]. One that comes after its deadline finds what that
deadline has done (R346, R12). -/
def execNvmeCompletion (d : Fin 16) (id : Fin 16384) (st : BitVec 15) (s : State) : Ans := keepQueue s <|
  match s.sto.cmds.find? (fun c => c.drive == d.val && c.id == id.val) with
  | none => .next s
  | some c =>
    if !nvLate s c then .next (nvComplete s c st.toNat)
    else if c.aborted then .next (ctlReset s d)
    else .next (nvComplete (nvExpire s c) { c with aborted := true } st.toNat)

/-- An NVMe command reaches TMO (R346): it is aborted, and its entry completes with TIMEOUT. -/
def execNvmeTimeout (d : Fin 16) (id : Fin 16384) (s : State) : Ans := keepQueue s <|
  match s.sto.cmds.find? (fun c => c.drive == d.val && c.id == id.val) with
  | none => .next s
  | some c => .next (if c.aborted || !nvLate s c then s else nvExpire s c)

/-- A drive that has not ended a command a further TMO after its abort has its controller reset (R346). -/
def execDriveControllerReset (d : Fin 16) (s : State) : Ans := keepQueue s <|
  .next (if s.sto.cmds.any (fun c => c.drive == d.val && c.aborted && nvLate s c) then ctlReset s d else s)

/-- The storage engine starts the controller of a drive that answers (R333): `ok` says that every required feature is there;
`slabs` is the number of slabs of its namespace. -/
def execDriveControllerStart (d : Fin 16) (ok worn : Bool) (slabs : BitVec 24) (s : State) : Ans := keepQueue s <|
  let s := wr s (f_CQS_DRV_PRESENT d) 1
  if !ok then .next (condEvent (wr s (f_CQS_DRV_READY d) 0) (0x182 + d) 0x0B 0)
  else
    let s := clearPresent (wr s (f_CQS_DRV_READY d) 1) (0x182 + d)
    .next (drvFree (wr (wr s (f_CQS_DRV_SLABS d) slabs.toNat) (f_CQS_DRV_WORN d) (b2n worn)) d)

/-- The SMART log is read (R334): `warn` is its Critical Warning byte. -/
def execSmartPoll (d : Fin 16) (warn : BitVec 8) (s : State) : Ans := keepQueue s <|
  .next (if drvReady s d then wr s (f_CQS_DRV_WORN d) (b2n (warn.getLsbD 0 || warn.getLsbD 3)) else s)

/-- A drive's controller reports ready after firmware activation (R350): deadlines resume, and commands that waited go out. -/
def execDriveActivationDone (d : Fin 16) (s : State) : Ans := keepQueue s <| .next (wr s (f_CQS_DRV_ACTIVATING d) 0)

/-- One ns for the drives (R350): the deadlines of commands on a drive that activates stand still, and the firmware's component 4 may
begin to activate a drive's firmware; when it does is a free value (DESIGN CHOICE, log entry 99). -/
def tickDrives (s : State) : State :=
  let s := if s.sto.cmds.any (fun c => rd s (f_CQS_DRV_ACTIVATING c.drive) == 1) then
      { s with sto := { s.sto with cmds := s.sto.cmds.map (fun c =>
        if rd s (f_CQS_DRV_ACTIVATING c.drive) = 1 then { c with at_ := c.at_ + 1 } else c) } }
    else s
  if !fwLoaded s || compStopped s 4 || !(List.range 16).any (drvReady s) then s
  else
    let (m, s) := freshBelow s (2 ^ 16)
    (List.range 16).foldl (fun s d => if drvReady s d && m.testBit d then wr s (f_CQS_DRV_ACTIVATING d) 1 else s) s

/-! ### Power states (R347, R348) -/

/-- A write of CQS_PS.REQ (R347). -/
def execStoragePowerRequest (req : Fin 4) (s : State) : Ans := keepQueue s <|
  if !barOpen s then .next s else .next (psStart (wr s f_CQS_PS_REQ req))

/-- A storage power state transition completes (R347); a command held meanwhile starts the return to PS0 (R348). -/
def execStoragePowerTransition (s : State) : Ans := keepQueue s <|
  if rd s f_CQS_PS_BUSY = 0 then .next s
  else .next (psStart (wr (wr s f_CQS_PS_CUR s.sto.psTo) f_CQS_PS_BUSY 0))

/-! ### Error log and restart (R344, R345) -/

/-- The error log entry of an entry that ends with a status (R344). -/
def logEntry (s : State) (t : Nat) (e : Entry) (st : Nat) : List Byte :=
  natLE 8 (sget 0 s.sto.errno t + 1) ++ natLE 8 (now s) ++ natLE 4 e.cid ++ natLE 3 e.f ++ natLE 1 e.op ++ natLE 1 st ++
  natLE 1 (if e.snap.getD 1 0 = 0 then 0xFF else e.snap.getD 1 0 - 1) ++ natLE 2 (e.snap.getD 2 0) ++ natLE 4 (eNs e.b) ++
  natLE 8 (if e.snap.getD 1 0 = 0 then eSlba e.b else e.snap.getD 3 0) ++ List.replicate 8 0

/-- An unsuccessful entry, whose furrow froze as its status was decided, adds a log entry before its completion is posted (R344). The
buffer of a READ is then undefined: free values (R340). -/
def stoError (s : State) (e : Entry) (st : Nat) : State :=
  if st = stOk then s
  else
    let t := furOwner s e.f
    let s := if e.op = 1 ∧ stoCountBad e.b = false then undefBytes s e (eAddr e.b) (4096 * eCount e.b) else s
    let l := (logEntry s t e st :: sget [] s.sto.logs t).take 64
    { s with sto := { s.sto with
      logs := sput [] s.sto.logs t l
      errno := sput 0 s.sto.errno t (sget 0 s.sto.errno t + 1) } }

/-- GET_LOG (R344). -/
def execGetLog (f : Fin 262144) (i : Fin 65536) (s : State) : Ans := keepQueue s <|
  stoRun f i 0x82 s fun s e =>
    let l := (sget [] s.sto.logs (furOwner s f)).take (eCount e.b / 48)
    withData s e srcStorage (writeSp (ioOf e) (furOwner s f) (eAddr e.b) l.flatten) fun _ s => endEntry s f i stOk l.length

/-- The frozen STORAGE furrow of the same turnout that RESTART_QUEUE names (R345). -/
def restartTarget (s : State) (t slot : Nat) : Option Nat :=
  match furAtSlot s t slot with
  | some g => match furOf s g with
    | some x => if x.cls = clStorage ∧ x.enabled = false then some g else none
    | none => none
  | none => none

/-- Enables a furrow: held completions first (R237, R468). -/
def enableFur (s : State) (g : Nat) : State :=
  flushHeld s g

/-- RESTART_QUEUE with MODE 0 (R345). -/
def execRestartQueueResume (f : Fin 262144) (i : Fin 65536) (s : State) : Ans := keepQueue s <|
  stoRun f i 0x83 s fun s e =>
    if lef e.b 42 1 0 0 ≠ 0 then s
    else match restartTarget s (furOwner s f) (lef e.b 40 2 13 0) with
      | some g => endEntry (enableFur s g) f i stOk 0
      | none => endEntry s f i stField noResult

/-- How a run of discarded entries stands. -/
inductive Discard
  /-- Every entry has completed. -/
  | all
  /-- It waits for room in the completion ring, a page, or a port. -/
  | waits
  /-- The ring could not be read. -/
  | fault
deriving DecidableEq, Repr

/-- Entries from HEAD on are fetched and complete with FROZEN without being executed (R345), each when the completion ring has room for
it (R235): fuel is their number. Gives how many were discarded. -/
def discardEntries (g : Nat) : Nat → State → State × Nat × Discard
  | 0, s => (s, 0, .all)
  | n + 1, s =>
    match furOf s g with
    | none => (s, 0, .fault)
    | some x =>
      if (x.head - x.cqh).toNat ≥ x.depth ∨ x.paging = 1 ∨ x.waitq ≠ [] then (s, 0, .waits)
      else match runMM s (readSp (ioFor (.ring g)) x.owner (x.sq + 64 * (x.head.toNat % x.depth)) 64) with
        | (.ok b, s) =>
          let s := modFur s g (fun x => { x with
            head := x.head + 1
            paging := 0
            rang := x.rang.filter (fun p => decide (1 < (BitVec.ofNat 32 p.1 - x.head).toNat)) })
          let s := postCpl { s with seq := s.seq + 1 } g ⟨le b 4 4, 0, (x.head + 1).toNat, stFrozen, bit (le b 1 1) 7, s.seq⟩
          let (s, k, r) := discardEntries g n (dropAsks s (fun w => decide (w = .ring g)))
          (s, k + 1, r)
        | (.error (.wait q), _) => (askPort s q, 0, .waits)
        | (.error (.page t p w), s) => (ringMiss s g x t p w, 0, if x.paging = 2 + pageKey p w then .fault else .waits)
        | (.error _, s) => (ringFault s g, 0, .fault)

/-- RESTART_QUEUE with MODE 1 (R345): the PI of the moment at which it starts bounds the entries discarded. -/
def execRestartQueueDiscard (f : Fin 262144) (i : Fin 65536) (s : State) : Ans := keepQueue s <|
  stoRun f i 0x83 s fun s e =>
    if lef e.b 42 1 0 0 ≠ 1 then s
    else match restartTarget s (furOwner s f) (lef e.b 40 2 13 0) with
      | none => endEntry s f i stField noResult
      | some g =>
        let hd := ((furOf s g).map Furrow.head).getD 0
        let pi := if e.snap.length = 1 then ((furOf s g).map Furrow.pi).getD 0 else BitVec.ofNat 32 (e.snap.getD 1 0)
        let (s, k, r) := discardEntries g (pi - hd).toNat s
        let k := e.snap.getD 2 0 + k
        match r with
        | .all => endEntry (enableFur s g) f i stOk k
        | .waits => modEntry s f i (fun e => { e with snap := [2, pi.toNat, k] })
        | .fault => endEntry s f i stOk k

/-! ### Namespace commands (R338) -/

/-- Namespaces of a turnout. -/
def nsCount (s : State) (t : Nat) : Nat := (s.sto.ns.filter (fun p => match p.2 with
  | some x => x.owner == t
  | none => false)).length

/-- NS_CREATE (R338). -/
def execNsCreate (f : Fin 262144) (i : Fin 65536) (s : State) : Ans := keepQueue s <|
  stoRun f i 0x80 s fun s e =>
    let t := furOwner s f
    if nsCount s t ≥ (quotaOf s t).namespaces then endEntry s f i stNoRes noResult
    else match findBelow (fun k => decide (0 < k) && (nsOf s k).isNone) 8193 with
      | none => endEntry s f i stNoRes noResult
      | some n =>
        let cx := lef e.b 20 1 0 0 == 1
        endEntry (setNs s n (some ⟨t, cx, eSlba e.b, false, [], [], 1, 0, true, [], false⟩)) f i stOk n

/-- Does an entry name a namespace. -/
def namesNs (n : Nat) (e : Entry) : Bool := stoUses e.op 0 && eNs e.b == n

/-- NS_DELETE (R338): it completes once every command fetched earlier that names the namespace has completed and its drives have
deallocated its slabs, one command to each. Its fetch marked the namespace as gone. -/
def execNsDelete (f : Fin 262144) (i : Fin 65536) (s : State) : Ans := keepQueue s <|
  stoRun f i 0x81 s fun s e =>
    let n := eNs e.b
    if s.infl.any (fun x => furClass s x.f == clStorage && decide (x.seq < e.seq) && namesNs n x) then s
    else match nsOf s n with
      | none => endEntry s f i stField noResult
      | some x => stoIssue s s e ((nsDrives x).map (fun d => (d, 0, 0))) .dealloc n (fun _ => []) none 0
          (fun s => endEntry (dropNs s n) f i stOk 0)

/-! ### Commands of the context store (R353, R354) -/

/-- CTX_PUT (R353, R351): TOKENS = 64; PFMT is that of the context's records, a free value where there is none. -/
def execCtxPut (f : Fin 262144) (i : Fin 65536) (s : State) : Ans := keepQueue s <|
  stoRun f i 0x06 s fun s e =>
    let n := eNs e.b
    let t := furOwner s f
    match nsOf s n with
    | none => endEntry s f i stField noResult
    | some x =>
      if x.ro then endEntry s f i stReadOnly noResult
      else withData s e srcStorage (readSp (ioOf e) t (eAddr e.b) (eCount e.b)) fun d s1 =>
        match ctxRoom s1 n (64 + alignUp d.length 64) with
        | none => noSpace s1 f i n
        | some (s2, off) => match nsOf s2 n with
          | none => s2
          | some y =>
            let (pf, s2) := match (y.index.filter (fun r => r.t == t && r.ctx == eCtx e.b)).getLast? with
              | some r => (r.pfmt, s2)
              | none => freshBelow s2 0x14
            let page := lef e.b 24 8 47 0
            let r := ctxRecord 1 pf t (eCtx e.b) page 64 y.seq d
            match sget none y.units (off / unitBytes) with
            | none => s2
            | some k =>
              let s3 := modNs s2 n (fun x => { x with seq := x.seq + 1, head := off + r.length })
              stoIssue s2 s3 e [(k / 2 ^ 24, off, r.length)] .write n (fun _ => r)
                (some ⟨t, eCtx e.b, page, y.seq, off, d.length, false, pf⟩) (y.seq % 2 ^ 32) id

/-- CTX_GET (R353). -/
def execCtxGet (f : Fin 262144) (i : Fin 65536) (s : State) : Ans := keepQueue s <|
  stoRun f i 0x07 s fun s e =>
    let t := furOwner s f
    match nsOf s (eNs e.b) with
    | none => endEntry s f i stField noResult
    | some x =>
      match ctxFind x t (eCtx e.b) (lef e.b 24 8 47 0) with
      | none => endEntry s f i stField noResult
      | some r =>
        if r.tomb ∨ r.len > eCount e.b then endEntry s f i stField noResult
        else bufReady s e r.len fun s =>
          stoIssue s s e (slabPieces x r.off (64 + r.len)) .read (eNs e.b) (fun _ => []) none r.seq (fun s => getDone s e x r.seq)

/-- RECOVER (R354): one read command to each drive that holds a segment stands for the scan's. -/
def execRecover (f : Fin 262144) (i : Fin 65536) (s : State) : Ans := keepQueue s <|
  stoRun f i 0x84 s fun s e =>
    match nsOf s (eNs e.b) with
    | none => endEntry s f i stField noResult
    | some x => bufReady s e (min (eCount e.b) 16) fun s =>
        stoIssue s s e ((nsDrives x).map (fun d => (d, 0, 0))) .read (eNs e.b) (fun _ => []) none 0 (fun s => recoverDone s e x)

/-- Live records of a unit: those of highest SEQ for their page, a tombstone only while an older record of its page lies in another
unit (DESIGN CHOICE, log entry 48). -/
def liveIn (x : Ns) (u : Nat) : List CtxRec :=
  x.index.filter (fun r => r.off / unitBytes == u && decide (ctxFind x r.t r.ctx r.page = some r) &&
    (!r.tomb || x.index.any (fun q => q.t == r.t && q.ctx == r.ctx && q.page == r.page && q.off / unitBytes != u)))

/-- A live record is appended anew at the log head, with the next SEQ; none where the log has no room. -/
def copyLive (s : State) (n : Nat) (r : CtxRec) : Option State :=
  match nsOf s n with
  | none => none
  | some y => ctxAppend s n (if r.tomb then 2 else 1) r.pfmt r.ctx r.page (lef (nsBytes s y r.off 64) 22 1 6 0)
      (nsBytes s y (r.off + 64) r.len)

/-- A segment with under 25 % live bytes has its records copied to the log head and its unit trimmed (R352). -/
def execSegmentCompaction (n : Fin 8193) (u : Fin 67108864) (s : State) : Ans := keepQueue s <|
  match nsOf s n with
  | none => .next s
  | some x =>
    let live := liveIn x u
    let bytes := live.foldl (fun a r => a + 64 + alignUp r.len 64) 0
    if !x.ctx || !x.indexed || x.ro || x.gone || (sget none x.units u).isNone || x.head / unitBytes == u.val || 4 * bytes ≥ unitBytes ||
        rd s f_CQS_PS_CUR != 0 || !(nsDrives x).all (drvReady s) || !drvsFree s (nsDrives x) ||
        s.sto.cmds.any (fun c => c.ns == n.val && (c.len == 0 || c.off / unitBytes == u.val)) then .next s
    else match live.foldl (fun (o : Option State) r => o.bind (fun s => copyLive s n r)) (some s) with
      | none => .next s
      | some s => .next (freeUnit (modNs s n (fun y => { y with index := y.index.filter (fun r => r.off / unitBytes != u.val) })) n u)

end Sys2Proof.Machine
end

