-- ==== Sys2Proof/Machine/Vector.lean ====
section
/-! DEFINITION. Machine/Vector.lean: the vector coprocessor CP1 (R148–R156, R34, R46, R47, R53).
Choices beyond the words of the spec: log entries DESIGN CHOICE 22, 23; DEDUCED 10, 78. -/

namespace Sys2Proof.Machine

/-! ### Types, lanes and masks (R148) -/

/-- The format of a type code T: 0 FP32, 1 FP16, 2 BF16. -/
def tFmt (t : BitVec 2) : Fmt := if t = 0 then .fp32 else if t = 1 then .fp16 else .bf16

/-- Elements of width `w` of a register, `n` from bit 0 on. -/
def lanesOf (v : BitVec 512) (w n : Nat) : List Nat := (List.range n).map (fun i => (v.toNat >>> (w * i)) % 2 ^ w)

/-- A register of packed elements, every higher bit 0. -/
def packLanes (w : Nat) (es : List Nat) : BitVec 512 := BitVec.ofNat 512 (es.foldr (fun e a => e % 2 ^ w + a <<< w) 0)

/-- Lanes of a type: 16 or 32. -/
def laneCount (f : Fmt) : Nat := 512 / fmtBits f

/-- A vector register. -/
def vReg (x : Cell) (r : BitVec 5) : BitVec 512 := sget 0 x.v.v r.toNat

/-- Writes a vector register. -/
def setV (x : Cell) (r : BitVec 5) (v : BitVec 512) : Cell := { x with v := { x.v with v := sput 0 x.v.v r.toNat v } }

/-- Is lane i enabled. -/
def laneOn (x : Cell) (m : VMask) (i : Nat) : Bool := m.mu == 0 || (sget 0 x.v.m m.mask.toNat).getLsbD i

/-- A CP1 control register. -/
def vcr (x : Cell) (n : Nat) : Word := sget 0 x.v.cr n

/-- The rounding mode of element i (R153). -/
def vMode (x : Cell) (i : Nat) : Mode :=
  modeOf x.v.rm.toNat (srBits (vcr x 5 ++ vcr x 4) (vcr x 6) (vcr x 8 + BitVec.ofNat 32 i) (vcr x 9) (vcr x 10) (vcr x 11))

/-- ORs flags into VFLAGS. -/
def orV (x : Cell) (f : NumFlags) : Cell := { x with v := { x.v with flags := x.v.flags ||| f } }

/-- Takes the first entry off the queue. -/
def pop1 (s : State) (c : Nat) : State :=
  parkCheck (modCell s c (fun x => { x with v := { x.v with q := x.v.q.drop 1 } })) c

/-- Starts the first instruction when it is of the row's kind (R131). -/
def start1 (s : State) (c : Nat) (run : CopEntry CP1Op → Option State) : Ans :=
  if cellInReset s c then .next s
  else match (cellOf s c).v.q with
    | [] => .next s
    | e :: _ => .next ((run e).getD s)

/-- An instruction that changes its cell alone. -/
def run1 (s : State) (c : Nat) (f : Cell → Cell) : Option State := some (pop1 (modCell s c f) c)

/-! ### Element arithmetic (R149, R34, R20) -/

/-- The exact sum of two finite values: zero sums take the sign of equal operands, else +0, −0 under RDN. -/
def finSum (mode : Mode) (s : Bool) (m : Nat) (e : Int) (s' : Bool) (m' : Nat) (e' : Int) : Val :=
  let lo := min e e'
  let a : Int := sgn s (m <<< (e - lo).toNat) + sgn s' (m' <<< (e' - lo).toNat)
  if a = 0 then .fin (if s = s' then s else decide (mode = .rdn)) 0 0
  else .fin (decide (a < 0)) a.natAbs lo

/-- x + y: the value to round and the flags it raises itself. -/
def vAdd (mode : Mode) : Val → Val → Val × NumFlags
  | .nan, _ | _, .nan => (.nan, 0)
  | .inf s, .inf s' => if s = s' then (.inf s, 0) else (.nan, fINV)
  | .inf s, _ => (.inf s, 0)
  | _, .inf s => (.inf s, 0)
  | .fin s m e, .fin s' m' e' => (finSum mode s m e s' m' e', 0)
  | .lp k, _ => (.lp k, 0)
  | _, .lp k => (.lp k, 0)

/-- −x. -/
def vNeg : Val → Val
  | .inf s => .inf (!s)
  | .fin s m e => .fin (!s) m e
  | v => v

/-- x × y. -/
def vMul : Val → Val → Val × NumFlags
  | .nan, _ | _, .nan => (.nan, 0)
  | .fin s m e, .fin s' m' e' => (.fin (s != s') (m * m') (e + e'), 0)
  | x, y => if isZeroV x || isZeroV y then (.nan, fINV) else (.inf (negV x != negV y), 0)

/-- A code's place in the order of R34: −0 below +0. -/
def ordKey (f : Fmt) (b : Nat) : Int :=
  let h := 2 ^ (fmtBits f - 1)
  if b ≥ h then -((b - h : Nat) : Int) - 1 else b

/-- The maximum or minimum of two codes (R34). -/
def maxCode (f : Fmt) (isMax : Bool) (a b : Nat) : Nat :=
  if valOf f a = .nan ∨ valOf f b = .nan then (nanInto f).1
  else if (ordKey f a < ordKey f b) = (isMax = true) then b else a

/-- Does a comparison hold (R149). -/
def cmpHolds (f : Fmt) (cond : Nat) (a b : Nat) : Bool :=
  let k (x : Nat) : Int := if isZeroV (valOf f x) then 0 else ordKey f x
  let un := decide (valOf f a = .nan) || decide (valOf f b = .nan)
  match cond with
  | 0 => !un && k a == k b
  | 1 => un || k a != k b
  | 2 => !un && decide (k a < k b)
  | 3 => !un && decide (k a ≥ k b)
  | 4 => !un && decide (k a ≤ k b)
  | _ => !un && decide (k a > k b)

/-- exp or exp2 of an exact difference, saturating (R151). -/
def expdLane (two : Bool) (f : Fmt) (mode : Mode) (a b : Val) : Nat × NumFlags :=
  let big : Nat × NumFlags := match floatFmt f with
    | some F => (F.maxc, fOVF ||| fINX)
    | none => (0, 0)
  match vAdd .rne a (vNeg b) with
  | (.nan, fl) => ((nanInto f).1, fl)
  | (.inf true, _) => (zeroCode f false, 0)
  | (.inf false, _) => big
  | (v, _) =>
    let (c, fl) := vfnRound (if two then .exp2 else .exp) f mode (qOf v)
    if (floatFmt f).bind (fun F => F.inf) = some c then big else (c, fl)

/-- One lane of a three-register operation: codes of va, vb and vd. A VFMA of infinity and 0 raises INVALID whatever its addend, a
NaN included (DEDUCED, log entry 78). -/
def binLane (op : VBinOp) (f : Fmt) (mode : Mode) (a b d : Nat) : Nat × NumFlags :=
  let va := valOf f a
  let vb := valOf f b
  let out (r : Val × NumFlags) : Nat × NumFlags := let (c, fl) := convert f mode r.1; (c, r.2 ||| fl)
  match op with
  | .vadd => out (vAdd mode va vb)
  | .vsub => out (vAdd mode va (vNeg vb))
  | .vmul => out (vMul va vb)
  | .vfma =>
    let (p, fp) := vMul va vb
    let (r, fr) := vAdd mode p (valOf f d)
    out (r, fp ||| fr)
  | .vmax => (maxCode f true a b, 0)
  | .vmin => (maxCode f false a b, 0)
  | .vexpd => expdLane false f mode va vb
  | .vexp2d => expdLane true f mode va vb
  | .vsel => (b, 0)

/-- A three-register operation under its mask (R148, R149, R151). VSEL writes every lane, by the mask. -/
def vbinOp (x : Cell) (op : VBinOp) (vd va vb : BitVec 5) (m : VMask) : Cell :=
  let f := tFmt m.t
  let w := fmtBits f
  let n := laneCount f
  let a := lanesOf (vReg x va) w n
  let b := lanesOf (vReg x vb) w n
  let d := lanesOf (vReg x vd) w n
  let r := (List.range n).map (fun i =>
    let ai := a.getD i 0
    let bi := b.getD i 0
    let di := d.getD i 0
    if op = .vsel then ((if laneOn x m i then ai else bi), 0)
    else if laneOn x m i then binLane op f (vMode x i) ai bi di
    else (di, 0))
  orV (setV x vd (packLanes w (r.map Prod.fst))) (r.foldl (fun z p => z ||| p.2) 0)

/-- A row of the three-register group. -/
def vbinRow (s : State) (c : Nat) (k : VBinOp) : Ans :=
  start1 s c (fun e => match e.op with
    | .vbin op vd va vb m => if op = k then run1 s c (fun x => vbinOp x op vd va vb m) else none
    | _ => none)

/-- VADD (R149). -/
def execVadd (c : Fin 256) (s : State) : Ans := keepQueue s <| vbinRow s c .vadd
/-- VSUB (R149). -/
def execVsub (c : Fin 256) (s : State) : Ans := keepQueue s <| vbinRow s c .vsub
/-- VMUL (R149). -/
def execVmul (c : Fin 256) (s : State) : Ans := keepQueue s <| vbinRow s c .vmul
/-- VMAX (R149, R34). -/
def execVmax (c : Fin 256) (s : State) : Ans := keepQueue s <| vbinRow s c .vmax
/-- VMIN (R149, R34). -/
def execVmin (c : Fin 256) (s : State) : Ans := keepQueue s <| vbinRow s c .vmin
/-- VFMA (R149). -/
def execVfma (c : Fin 256) (s : State) : Ans := keepQueue s <| vbinRow s c .vfma
/-- VSEL (R149). -/
def execVsel (c : Fin 256) (s : State) : Ans := keepQueue s <| vbinRow s c .vsel
/-- VEXPD (R151). -/
def execVexpd (c : Fin 256) (s : State) : Ans := keepQueue s <| vbinRow s c .vexpd
/-- VEXP2D (R151). -/
def execVexp2d (c : Fin 256) (s : State) : Ans := keepQueue s <| vbinRow s c .vexp2d

/-! ### Moves, comparisons, broadcasts (R148, R149, R152) -/

/-- VLD (R152): a failing one leaves its register free (R135). -/
def execVld (c : Fin 256) (s : State) : Ans := keepQueue s <|
  start1 s c (fun e => match e.op with
    | .vld vd _ =>
      let a := e.r1.toNat
      let fail (s : State) (code : Nat) : State :=
        let (v, s) := freshCodes s 8 64
        stop1 (modCell s c (fun x => setV x vd (packLanes 64 v))) c e.pc code
      match cpCheck (cellOf s c) e.user [(a, 64)] (a % 64 == 0) .load with
      | some err => some (fail s err)
      | none => some (cpLoad s c [(a, 64)] fun
        | none, s => fail s eUE
        | some ls, s => pop1 (modCell s c (fun x => setV x vd (BitVec.ofNat 512 (leNat (ls.flatMap id))))) c)
    | _ => none)

/-- The pieces of a VST: whole 64-bit words where every byte is stored, else single lanes (R148, R60). -/
def vstPieces (x : Cell) (a : Nat) (v : BitVec 512) (m : VMask) : List (Nat × List Byte) :=
  let w := fmtBits (tFmt m.t)
  let per := 64 / w
  (List.range 8).flatMap (fun k =>
    let on := (List.range per).filter (fun j => laneOn x m (per * k + j))
    if on.length = per then [(a + 8 * k, natLE 8 (v.toNat >>> (64 * k)))]
    else on.map (fun j => (a + 8 * k + w / 8 * j, natLE (w / 8) (v.toNat >>> (64 * k + w * j)))))

/-- VST (R148, R152). -/
def execVst (c : Fin 256) (s : State) : Ans := keepQueue s <|
  start1 s c (fun e => match e.op with
    | .vst vs _ m =>
      let x := cellOf s c
      let a := e.r1.toNat
      let ws := vstPieces x a (vReg x vs) m
      match cpCheck x e.user (ws.map (fun w => (w.1, w.2.length))) (a % 64 == 0) .store with
      | some err => some (stop1 (cpWriteFree s c ws) c e.pc err)
      | none => some (cpStore s c ws fun
        | false, s => stop1 s c e.pc eUE
        | true, s => pop1 s c)
    | _ => none)

/-- VBC (R149). -/
def execVbc (c : Fin 256) (s : State) : Ans := keepQueue s <|
  start1 s c (fun e => match e.op with
    | .vbc vd _ t =>
      let w := fmtBits (tFmt t)
      run1 s c (fun x => setV x vd (packLanes w (List.replicate (512 / w) (e.r1.toNat % 2 ^ w))))
    | _ => none)

/-- VCMP (R149): every other bit of the mask register is cleared. -/
def execVcmp (c : Fin 256) (s : State) : Ans := keepQueue s <|
  start1 s c (fun e => match e.op with
    | .vcmp m va vb cond t => run1 s c (fun x =>
      let f := tFmt t
      let w := fmtBits f
      let n := laneCount f
      let a := lanesOf (vReg x va) w n
      let b := lanesOf (vReg x vb) w n
      let v := (List.range n).foldl (fun z i => z + b2n (cmpHolds f cond.toNat (a.getD i 0) (b.getD i 0)) * 2 ^ i) 0
      { x with v := { x.v with m := sput 0 x.v.m m.toNat (BitVec.ofNat 64 v) } })
    | _ => none)

/-- VHMAX (R149): −infinity with no enabled lane. -/
def execVhmax (c : Fin 256) (s : State) : Ans := keepQueue s <|
  start1 s c (fun e => match e.op with
    | .vhmax vd va m => run1 s c (fun x =>
      let f := tFmt m.t
      let w := fmtBits f
      let n := laneCount f
      let a := lanesOf (vReg x va) w n
      let on := ((List.range n).filter (laneOn x m)).map (fun i => a.getD i 0)
      let r := match on with
        | [] => (infInto f true).1
        | h :: t => t.foldl (maxCode f true) (maxCode f true h h)
      setV x vd (packLanes w (List.replicate n r)))
    | _ => none)

/-! ### Conversions and functions (R150, R151, R46) -/

/-- Does a format make the element count of a conversion 16. -/
def wide (f : Fmt) : Bool := f == .fp32 || f == .int32

/-- VCVT (R150). -/
def vcvtOp (x : Cell) (vd vs : BitVec 5) (dst src : Fmt) : Cell :=
  let v := vReg x vs
  let n := if wide dst || wide src then 16 else 32
  let es := lanesOf v (fmtBits src) n
  let sc := (v.extractLsb' 504 8).toNat
  let vals := es.map (fun b => if isMX src then mxVal src sc b else valOf src b)
  if isMX dst then
    let (s', cs, fl) := mxEncode dst (vals.mapIdx (fun i v => (qOf v, vMode x i)))
    orV (setV x vd (packLanes (fmtBits dst) cs ||| (BitVec.ofNat 512 s' <<< 504))) fl
  else
    let r := vals.mapIdx (fun i v => convert dst (vMode x i) v)
    orV (setV x vd (packLanes (fmtBits dst) (r.map Prod.fst))) (r.foldl (fun z p => z ||| p.2) 0)

/-- VCVT (R150). -/
def execVcvt (c : Fin 256) (s : State) : Ans := keepQueue s <|
  start1 s c (fun e => match e.op with
    | .vcvt vd vs dst src =>
      run1 s c (fun x => vcvtOp x vd vs ((fmtOfCode dst.toNat).getD .fp32) ((fmtOfCode src.toNat).getD .fp32))
    | _ => none)

/-- VFN (R151): n results packed in RT, a disabled element keeping its old value read in RT, every higher bit 0. -/
def vfnOp (x : Cell) (fn : VFn) (vd va : BitVec 5) (rt : BitVec 2) (m : VMask) : Cell :=
  let f := tFmt m.t
  let g := tFmt rt
  let n := if f == .fp32 || g == .fp32 then 16 else 32
  let a := lanesOf (vReg x va) (fmtBits f) n
  let d := lanesOf (vReg x vd) (fmtBits g) n
  let r := (List.range n).map (fun i =>
    if laneOn x m i then vfnRound fn g (vMode x i) (qOf (valOf f (a.getD i 0))) else (d.getD i 0, 0))
  orV (setV x vd (packLanes (fmtBits g) (r.map Prod.fst))) (r.foldl (fun z p => z ||| p.2) 0)

/-- A VFN row: its function code and function. -/
def vfnRow (s : State) (c : Nat) (code : BitVec 3) (fn : VFn) : Ans :=
  start1 s c (fun e => match e.op with
    | .vfn vd va k rt m => if k = code then run1 s c (fun x => vfnOp x fn vd va rt m) else none
    | _ => none)

/-- VFN exp2 (R46, R151). -/
def execVfnExp2 (c : Fin 256) (s : State) : Ans := keepQueue s <| vfnRow s c 0 .exp2
/-- VFN exp (R46, R151). -/
def execVfnExp (c : Fin 256) (s : State) : Ans := keepQueue s <| vfnRow s c 1 .exp
/-- VFN log2 (R46, R151). -/
def execVfnLog2 (c : Fin 256) (s : State) : Ans := keepQueue s <| vfnRow s c 2 .log2
/-- VFN log (R46, R151). -/
def execVfnLog (c : Fin 256) (s : State) : Ans := keepQueue s <| vfnRow s c 3 .log
/-- VFN rcp (R46, R151). -/
def execVfnRcp (c : Fin 256) (s : State) : Ans := keepQueue s <| vfnRow s c 4 .rcp
/-- VFN rsqrt (R46, R151). -/
def execVfnRsqrt (c : Fin 256) (s : State) : Ans := keepQueue s <| vfnRow s c 5 .rsqrt

/-! ### Vector accumulators (R152, R47) -/

/-- A vector accumulator. -/
def xReg (x : Cell) (k : BitVec 3) : Acc := sget Acc.zero x.v.x k.toNat

/-- Writes a vector accumulator. -/
def setX (x : Cell) (k : BitVec 3) (a : Acc) : Cell := { x with v := { x.v with x := sput Acc.zero x.v.x k.toNat a } }

/-- VRED (R152, R39). -/
def execVred (c : Fin 256) (s : State) : Ans := keepQueue s <|
  start1 s c (fun e => match e.op with
    | .vred k va m => run1 s c (fun x =>
      let f := tFmt m.t
      let a := lanesOf (vReg x va) (fmtBits f) (laneCount f)
      setX x k ((List.range (laneCount f)).foldl (fun z i =>
        if laneOn x m i then z.addVal (valOf f (a.getD i 0)) else z) (xReg x k)))
    | _ => none)

/-- VDOT (R152, R39). -/
def execVdot (c : Fin 256) (s : State) : Ans := keepQueue s <|
  start1 s c (fun e => match e.op with
    | .vdot k va vb m => run1 s c (fun x =>
      let f := tFmt m.t
      let a := lanesOf (vReg x va) (fmtBits f) (laneCount f)
      let b := lanesOf (vReg x vb) (fmtBits f) (laneCount f)
      setX x k ((List.range (laneCount f)).foldl (fun z i =>
        if laneOn x m i then z.addProd (valOf f (a.getD i 0)) (valOf f (b.getD i 0)) else z) (xReg x k)))
    | _ => none)

/-- VXCLR (R152). -/
def execVxclr (c : Fin 256) (s : State) : Ans := keepQueue s <|
  start1 s c (fun e => match e.op with
    | .vxclr k => run1 s c (fun x => setX x k Acc.zero)
    | _ => none)

/-- Replaces one lane. -/
def putLane (v : BitVec 512) (w i e : Nat) : BitVec 512 :=
  BitVec.ofNat 512 (setBits v.toNat (w * i + w - 1) (w * i) e)

/-- VXRND (R152, R41). -/
def execVxrnd (c : Fin 256) (s : State) : Ans := keepQueue s <|
  start1 s c (fun e => match e.op with
    | .vxrnd vd k lane t => run1 s c (fun x =>
      let (r, fl) := (xReg x k).round (tFmt t) (vMode x lane.toNat)
      orV (setV x vd (putLane (vReg x vd) (fmtBits (tFmt t)) lane.toNat r)) fl)
    | _ => none)

/-- VQUOT (R152, R47). -/
def execVquot (c : Fin 256) (s : State) : Ans := keepQueue s <|
  start1 s c (fun e => match e.op with
    | .vquot vd ka kb lane t => run1 s c (fun x =>
      let (r, fl) := quotRound (xReg x ka) (xReg x kb) (tFmt t) (vMode x lane.toNat)
      orV (setV x vd (putLane (vReg x vd) (fmtBits (tFmt t)) lane.toNat r)) fl)
    | _ => none)

/-- VXP (R152, R43). -/
def execVxp (c : Fin 256) (s : State) : Ans := keepQueue s <|
  start1 s c (fun e => match e.op with
    | .vxp k _ =>
      let x := cellOf s c
      let a := e.r1.toNat
      let ws := [(a, padTo 96 (xReg x k).toLAX)]
      match cpCheck x e.user [(a, 96)] (a % 32 == 0) .store with
      | some err => some (stop1 (cpWriteFree s c ws) c e.pc err)
      | none => some (cpStore s c ws fun
        | false, s => stop1 s c e.pc eUE
        | true, s => pop1 s c)
    | _ => none)

/-- VXIM (R152, R45): a malformed record leaves x unchanged. -/
def execVxim (c : Fin 256) (s : State) : Ans := keepQueue s <|
  start1 s c (fun e => match e.op with
    | .vxim k _ =>
      let a := e.r1.toNat
      match cpCheck (cellOf s c) e.user [(a, 96)] (a % 32 == 0) .load with
      | some err => some (stop1 s c e.pc err)
      | none => some (cpLoad s c [(a, 96)] fun
        | none, s => stop1 s c e.pc eUE
        | some ls, s => match ofLAX (ls.flatMap id) with
          | none => stop1 s c e.pc eLAX
          | some b => pop1 (modCell s c (fun x => setX x k ((xReg x k).merge b))) c)
    | _ => none)

/-! ### Control registers and signals (R132, R156) -/

/-- VMTC of a value (R156). -/
def vmtcWrite (x : Cell) (n : Nat) (v : Word) : Cell :=
  match n with
  | 0 => { x with v := { x.v with flags := x.v.flags &&& ~~~(v.truncate 5) } }
  | 1 => if v.getLsbD 31 then { x with v := { x.v with halted := false, err := 0 } } else x
  | 3 => if bits v.toNat 2 0 ≥ 6 then orV x fINV else { x with v := { x.v with rm := v.truncate 3 } }
  | n =>
    if (4 ≤ n ∧ n ≤ 6) ∨ (8 ≤ n ∧ n ≤ 11) then { x with v := { x.v with cr := sput 0 x.v.cr n v } }
    else if 0x10 ≤ n then
      let k := (n - 0x10) / 2
      let old := sget 0 x.v.m k
      let new : DWord := if n % 2 = 0 then old.extractLsb' 32 32 ++ v else v ++ old.extractLsb' 0 32
      { x with v := { x.v with m := sput 0 x.v.m k new } }
    else x

/-- The value of a CP1 control register (R156). -/
def vmfcRead (x : Cell) (n : Nat) : Word :=
  match n with
  | 0 => x.v.flags.zeroExtend 32
  | 1 => BitVec.ofNat 32 (b2n x.v.halted * 2 ^ 31 + x.v.err)
  | 2 => x.v.errpc
  | 3 => x.v.rm.zeroExtend 32
  | n =>
    if 0x10 ≤ n then
      let m := sget 0 x.v.m ((n - 0x10) / 2)
      if n % 2 = 0 then m.extractLsb' 0 32 else m.extractLsb' 32 32
    else vcr x n

/-- VMTC (R156). -/
def execVmtc (c : Fin 256) (s : State) : Ans := keepQueue s <|
  start1 s c (fun e => match e.op with
    | .vmtc _ n => run1 s c (fun x => vmtcWrite x n.toNat e.r1)
    | _ => none)

/-- VMFC (R132): stalls the core until the queue is empty, at once while HALTED. -/
def vmfcBody (d : BitVec 5) (n : BitVec 6) (s : State) (x : Cell) : State × KOut :=
  if !v1Listed n then (s, .trap 0x01 3 (kEncode (.cp1 (.vmfc d n))))
  else if !x.v.halted && !x.v.q.isEmpty then (s, .hold x)
  else (s, .seq { x with k := setG x.k d (vmfcRead x n.toNat) })

/-- VMFC (R132). -/
def execVmfc (c : Fin 256) (d : BitVec 5) (n : BitVec 6) (s : State) : Ans := keepQueue s <| .next (issue s c (vmfcBody d n))

/-- VSIG (R132). -/
def execVsig (c : Fin 256) (s : State) : Ans := keepQueue s <|
  start1 s c (fun e => match e.op with
    | .vsig sl => run1 s c (fun x => incSluice x sl.toNat 1)
    | _ => none)

/-- VWAIT (R132): a wait that is not satisfied keeps its entry at the head of the queue. -/
def execVwait (c : Fin 256) (s : State) : Ans := keepQueue s <|
  start1 s c (fun e => match e.op with
    | .vwait _ sl =>
      if (cellOf s c).v.wait.isSome then none
      else
        let w := newWait s (cellOf s c) sl e.r1
        if waitDone (cellOf s c) w then some (pop1 s c)
        else some (modCell s c (fun x => { x with v := { x.v with wait := some w } }))
    | _ => none)

end Sys2Proof.Machine
end

