-- ==== Sys2Proof/Machine/Mimin.lean ====
section
/-! DEFINITION. Machine/Mimin.lean: the Mimin context engine: contexts, pages, tiers, calls (R157–R193).
Choices beyond the words of the spec: log entries DESIGN CHOICE 1, 28, 29, 91, 92, 93. -/

namespace Sys2Proof.Machine

/-! ### Contexts, pages and their layout (R157–R161) -/

/-- The key of a context. -/
def ctxKey (t id : Nat) : Nat := t * 2 ^ 32 + id

/-- A context of a turnout. -/
def ctxOf (s : State) (t id : Nat) : Option Context := sget none s.mim.ctxs (ctxKey t id)

/-- Replaces a context. -/
def setCtx (s : State) (t id : Nat) (x : Option Context) : State :=
  { s with mim := { s.mim with ctxs := sput none s.mim.ctxs (ctxKey t id) x } }

/-- The page formats (R157). -/
def pageFmt (code : Nat) : Option Fmt := if [1, 2, 3, 4, 8, 0xB, 0xC].contains code then fmtOfCode code else none

/-- Bytes of a row of `d` elements of a format: elements, then scale bytes in an MX format (R160). -/
def rowLen (f : Fmt) (d : Nat) : Nat := d * fmtBits f / 8 + (if isMX f then d / 32 else 0)

/-- Bytes of a row of a context's pages. -/
def Context.row (x : Context) : Nat := rowLen x.pfmt x.d
/-- Bytes of a frame (R160). -/
def Context.frame (x : Context) : Nat := 128 * x.row
/-- Allocated bytes of a frame (R160). -/
def Context.alloc (x : Context) : Nat := alignUp x.frame 256

/-- The values of a row of bytes. -/
def rowVals (f : Fmt) (d : Nat) (l : List Byte) : List Val :=
  let w := fmtBits f
  (List.range d).map (fun j =>
    let e := elemAt w l j
    if isMX f then mxVal f (le l (d * w / 8 + j / 32) 1) e else valOf f e)

/-- Encodes values, each with its mode, as a row of bytes. -/
def encodeRow (f : Fmt) (mode : Mode) (vs : List Val) : List Byte × NumFlags :=
  if isMX f then
    let bs := (chunks 32 (vs.length / 32 + 1) vs).map (fun b => mxEncode f (b.map (fun v => (qOf v, mode))))
    (packElems (fmtBits f) (bs.flatMap (fun b => b.2.1)) ++ bs.map (fun b => BitVec.ofNat 8 b.1), bs.foldl (fun a b => a ||| b.2.2) 0)
  else
    let es := vs.map (convert f mode)
    (packElems (fmtBits f) (es.map Prod.fst), es.foldl (fun a e => a ||| e.2) 0)

/-- A layer-group of a context. -/
def Context.lg (x : Context) (layer group : Nat) : LGroup := sget ⟨64 * x.first, []⟩ x.lgs (64 * layer + group)

/-- Replaces a layer-group. -/
def Context.setLg (x : Context) (k : Nat) (g : LGroup) : Context := { x with lgs := sput ⟨64 * x.first, []⟩ x.lgs k g }

/-- Pages of a layer-group: ⌈L / 64⌉. -/
def LGroup.pageCount (g : LGroup) : Nat := (g.len + 63) / 64

/-- The page ID (R158). -/
def pageId (k p : Nat) : Nat := (k / 64) * 2 ^ 40 + (k % 64) * 2 ^ 32 + p

/-- The K row of a token in a frame. -/
def kRow (x : Context) (fr : List Byte) (r : Nat) : List Byte := (fr.drop (r * x.row)).take x.row
/-- The V row of a token in a frame. -/
def vRow (x : Context) (fr : List Byte) (r : Nat) : List Byte := (fr.drop ((64 + r) * x.row)).take x.row

/-- Is a value greater than another (exactly), −0 below +0 (R34); a NaN is greater than all. -/
def vGt (a b : Val) : Bool :=
  match a, b with
  | _, .nan => false
  | .nan, _ => true
  | .inf s, .inf t => !s && t
  | .inf s, _ => !s
  | _, .inf t => t
  | .fin s m e, .fin t n g =>
    let x := sgn s (numOf m e) * (denOf g : Int)
    let y := sgn t (numOf n g) * (denOf e : Int)
    decide (x > y) || (m == 0 && n == 0 && !s && t)
  | _, _ => false

/-- Is a value less than another, −0 below +0 (R34); a NaN is less than all. -/
def vLt (a b : Val) : Bool :=
  match a, b with
  | _, .nan => false
  | .nan, _ => true
  | _, _ => vGt b a

/-- The row of extremes over rows of values. -/
def extreme (gt : Val → Val → Bool) : List (List Val) → List Val
  | [] => []
  | r :: rs => rs.foldl (fun a b => List.zipWith (fun x y => if gt y x then y else x) a b) r

/-- Recomputes a page's summary over its first `n` tokens (R161). -/
def summarise (x : Context) (p : Page) (n : Nat) : Page :=
  let ks := (List.range n).map (fun r => rowVals x.pfmt x.d (kRow x p.frame r))
  { p with
    kmax := (encodeRow x.pfmt .rup (extreme vGt ks)).1
    kmin := (encodeRow x.pfmt .rdn (extreme vLt ks)).1 }

/-! ### Tiers (R162–R168) -/

/-- All pages of a turnout: context, layer-group key, index, page. -/
def pagesOf (s : State) (t : Nat) : List (Context × Nat × Nat × Page) :=
  s.mim.ctxs.flatMap (fun c => match c.2 with
    | some x => if x.t = t then x.lgs.flatMap (fun g => g.2.pages.filterMap (fun p => p.2.map (fun q => (x, g.1, p.1, q)))) else []
    | none => [])

/-- Pages that an in-flight call reads (R166): those of the range and of the list of an ATTEND, those that a GATHER names. -/
def entryPages (s : State) (e : Entry) : List (Nat × Nat) :=
  match e.ctx with
  | none => []
  | some x =>
    let k := 64 * le e.b 20 1 + lef e.b 21 1 5 0
    let t := x.t
    let list (a n : Nat) : List Nat := match (runMM s (readSp (ioOf e) t a (4 * n))).1 with
      | .ok l => (List.range n).map (fun i => le l (4 * i) 4)
      | .error _ => []
    if e.op = 1 then
      let first := le e.b 36 5
      let n := le e.b 41 3
      let nq := lef e.b 26 1 5 0 + 1
      let qb := alignUp (alignUp (rowLen ((fmtOfCode (lef e.b 22 1 4 0)).getD .fp32) (x.heads * nq * x.d)) 64 + 4 * x.heads * nq) 64
      ((List.range (if n = 0 then 0 else (first + n + 63) / 64 - first / 64)).map (fun i => (k, first / 64 + i))) ++
        (list (le e.b 48 8 + qb) (lef e.b 32 4 16 0)).map (fun p => (k, p))
    else if e.op = 6 then
      let n := lef e.b 28 4 16 0
      let la := le e.b 48 8
      (if la = 0 then (List.range n).map (fun i => le e.b 32 4 + i) else list la n).map (fun p => (k, p))
    else []

/-- The page of a context at a place, if it holds one. -/
def Context.page? (x : Context) (k p : Nat) : Option Page := sget none (sget ⟨64 * x.first, []⟩ x.lgs k).pages p

/-- Contexts of a turnout that a DESTROY still frees: they have left the directory at its fetch, and their pages stay charged until
it completes (R166, R188). -/
def dying (s : State) (t : Nat) : List Context :=
  s.infl.filterMap (fun e => if e.op = 9 ∧ e.ended = false ∧ furClass s e.f = clMimin then
    (match e.ctx with
      | some x => if x.t = t then some x else none
      | none => none) else none)

/-- Is an in-flight call's context one that a DESTROY fetched after it took out of the directory (R188). -/
def destroyedAfter (s : State) (e : Entry) (t id : Nat) : Bool :=
  s.infl.any (fun d => decide (e.seq < d.seq) && furClass s d.f == clMimin && d.op == 9 && (match d.ctx with
    | some x => x.t == t && x.id == id
    | none => false))

/-- An old copy of a page that a call still reads: context, layer-group key, index, page, and whether the page has left the
directory altogether (R166). -/
structure OldCopy where
  /-- The context as the call fetched it. -/
  x : Context
  /-- Layer-group key. -/
  k : Nat
  /-- Page index. -/
  p : Nat
  /-- Tier of the copy. -/
  tier : Nat
  /-- The page is gone from the directory. -/
  gone : Bool
deriving DecidableEq, Repr

/-- The old copies that registered readers of a turnout keep from being freed (R166). -/
def oldCopies (s : State) (t : Nat) : List OldCopy :=
  let all := (s.infl.filter (fun e => !e.ended)).flatMap (fun e => match e.ctx with
    | some x =>
      if x.t ≠ t ∨ destroyedAfter s e t x.id = true then []
      else (entryPages s e).filterMap (fun (k, p) => match x.page? k p, (ctxOf s t x.id).bind (fun y => y.page? k p) with
        | some q, some q' => if q'.tier = q.tier then none else some ⟨x, k, p, q.tier, false⟩
        | some q, none => some ⟨x, k, p, q.tier, true⟩
        | none, _ => none)
    | none => [])
  all.foldl (fun l c => if l.any (fun d => d.x.id == c.x.id && d.k == c.k && d.p == c.p && d.tier == c.tier) then l else l ++ [c]) []

/-- Bytes of a tier that a page's frame takes. -/
def Context.inTier (x : Context) (tier t' : Nat) : Nat := if tier = t' then x.alloc else 0

/-- The contexts whose pages are charged to a turnout. -/
def charged (s : State) (t : Nat) : List Context :=
  (s.mim.ctxs.filterMap Prod.snd).filter (fun x => x.t == t) ++ dying s t

/-- The pages of contexts: context and page. -/
def pagesIn (l : List Context) : List (Context × Page) :=
  l.flatMap (fun x => x.lgs.flatMap (fun g => g.2.pages.filterMap (fun p => p.2.map (fun q => (x, q)))))

/-- Bytes of HBM that the turnout's contexts use: frames there, directory entries and summaries of every page (R162), with the old
copies that are still being read (R166). -/
def hbmUse (s : State) (t : Nat) : Nat :=
  (oldCopies s t).foldl (fun a c => a + c.x.inTier c.tier 1 + (if c.gone then 32 + 2 * c.x.row else 0))
    ((pagesIn (charged s t)).foldl (fun a q => a + 32 + 2 * q.1.row + q.1.inTier q.2.tier 1) 0)

/-- Bytes of the reservoir that they use (R162, R166). -/
def rsvUse (s : State) (t : Nat) : Nat :=
  (oldCopies s t).foldl (fun a c => a + c.x.inTier c.tier 0 + (if c.gone && c.x.sumrsv then 2 * c.x.row else 0))
    ((pagesIn (charged s t)).foldl (fun a q => a + (if q.1.sumrsv then 2 * q.1.row else 0) + q.1.inTier q.2.tier 0) 0)

/-- The turnout's HBM share (R382). -/
def hbmShare (s : State) (t : Nat) : Nat :=
  0x1000_0000 * ((List.range 1024).filter (fun e => ownerOfArea s (.hbm e) == t)).length
/-- The turnout's reservoir share (R382). -/
def rsvShare (s : State) (t : Nat) : Nat :=
  0x10_0000 * ((List.range 4096).filter (fun g => ownerOfArea s (.rsv g) == t)).length

/-- Is the context store a permitted tier of a context (R165). -/
def storeOk (s : State) (x : Context) : Bool :=
  x.nsid != 0 && (match nsOf s x.nsid with
    | some n => n.owner == x.t && n.ctx && !n.ro && !n.gone && n.indexed
    | none => false)

/-- Bytes of a page's record in the store: header, frame, summary. -/
def recBytes (x : Context) : Nat := 64 + alignUp (x.frame + 2 * x.row) 64

/-- Can the context store take another record of a context. -/
def storeRoom (s : State) (x : Context) : Bool := storeOk s x && (ctxRoom s x.nsid (recBytes x)).isSome

/-- Has a tier room for the frame of a page that moves into it; the store is asked by appending to it. -/
def tierRoom (s : State) (x : Context) (tier : Nat) : Bool :=
  match tier with
  | 0 => decide (rsvUse s x.t + x.alloc ≤ rsvShare s x.t)
  | 1 => decide (hbmUse s x.t + x.alloc ≤ hbmShare s x.t)
  | _ => storeRoom s x

/-- Is there room for a new page whose frame lies in a tier: for its directory entry, its summary and its copy, and its frame together
(R162). Tier 3 stands for no frame. -/
def newRoom (s : State) (x : Context) (tier : Nat) : Bool :=
  decide (hbmUse s x.t + 32 + 2 * x.row + x.inTier tier 1 ≤ hbmShare s x.t) &&
  decide (rsvUse s x.t + (if x.sumrsv then 2 * x.row else 0) + x.inTier tier 0 ≤ rsvShare s x.t) &&
  (tier != 2 || storeRoom s x)

/-- Replaces a page of a context in State. -/
def setPage (s : State) (t id k p : Nat) (q : Option Page) : State :=
  match ctxOf s t id with
  | none => s
  | some x => let g := sget ⟨64 * x.first, []⟩ x.lgs k
    setCtx s t id (some (x.setLg k { g with pages := sput none g.pages p q }))

/-- Writes a page's record to the store (R352, R353). -/
def storePage (s : State) (x : Context) (k p tokens : Nat) (q : Page) : Option State :=
  ctxAppend s x.nsid 1 (fmtCode x.pfmt) x.id (pageId k p) tokens (q.frame ++ q.kmax ++ q.kmin)

/-- Tokens present in page `p` of a layer-group of length `len`. -/
def tokensIn (len p : Nat) : Nat := min 64 (len - 64 * p)

/-- Moves a page to a tier (R166: the directory entry switches at once); none where the store cannot take it. -/
def movePage (s : State) (x : Context) (k p : Nat) (q : Page) (tier : Nat) : Option State :=
  let len := (sget ⟨64 * x.first, []⟩ x.lgs k).len
  if tier = 2 then (storePage s x k p (tokensIn len p) q).map (fun s => setPage s x.t x.id k p (some { q with tier := 2 }))
  else some (setPage s x.t x.id k p (some { q with tier := tier }))

/-- Is a page registered as being read (R166). -/
def registered (s : State) (t id k p : Nat) : Bool :=
  s.infl.any (fun e => !e.ended && (match e.ctx with
    | some x => x.t == t && x.id == id && (entryPages s e).contains (k, p)
    | none => false))

/-- Does a candidate come before another: read less recently, then the lower page ID (R165). -/
def demoteBefore (a b : Context × Nat × Nat × Page) : Bool :=
  decide (a.2.2.2.read < b.2.2.2.read) ||
  (a.2.2.2.read == b.2.2.2.read && decide (pageId a.2.1 a.2.2.1 < pageId b.2.1 b.2.2.1))

/-- Demotes one page of the turnout from a tier to the next (R165); none where no page can move. -/
def demoteOne (s : State) (t tier : Nat) : Option State :=
  let cs := (pagesOf s t).filter (fun q => q.2.2.2.tier == tier && !q.2.2.2.pin && tierRoom s q.1 (tier + 1) &&
    !registered s t q.1.id q.2.1 q.2.2.1)
  match cs.foldl (fun b q => match b with
      | some c => if demoteBefore q c then some q else b
      | none => some q) none with
  | some q => movePage s q.1 q.2.1 q.2.2.1 q.2.2.2 (tier + 1)
  | none => none

/-- Makes room for a new page in the highest permitted tier from `tier` down (R165): each full tier demotes one page first. -/
def findTier (x : Context) : Nat → Nat → State → Option (State × Nat)
  | 0, _, _ => none
  | f + 1, tier, s =>
    if tier > 2 then none
    else if newRoom s x tier then some (s, tier)
    else match (if tier < 2 then demoteOne s x.t tier else none) with
      | some s' => if newRoom s' x tier then some (s', tier) else findTier x f (tier + 1) s'
      | none => findTier x f (tier + 1) s

/-- The home of new pages (R164). -/
def homeTier (x : Context) : Nat :=
  match x.policy with
  | 0 => 1
  | 1 => if x.recent = 0 then 1 else 0
  | 2 => 0
  | _ => 2

/-- Demotes one page of a full tier, when there is one that can move (R165). -/
def ease (s : State) (t tier : Nat) (ok : State → Bool) : State := if ok s then s else (demoteOne s t tier).getD s

/-- Under RECENT the oldest reservoir page beyond the newest RECENT moves to HBM, unless it is pinned; a registered one is skipped, and a
full HBM demotes a page first (R165, R166). -/
def recentMove (s : State) (x : Context) (k p : Nat) : State :=
  if x.policy ≠ 1 then s
  else
    let g := sget ⟨64 * x.first, []⟩ x.lgs k
    match g.pages.find? (fun q => decide (q.1 + x.recent ≤ p) && (match q.2 with
        | some y => y.tier == 0 && !y.pin && !registered s x.t x.id k q.1
        | none => false)) with
    | some (i, some y) =>
      let s := ease s x.t 1 (fun s => tierRoom s x 1)
      if tierRoom s x 1 then (movePage s x k i y 1).getD s else s
    | _ => s

/-- Begins a new page (R164, R165, R162): a share that has no room for its directory entry, its summary or the copy of it demotes a page
too; none where no permitted tier has room. A page of the store gets its record as the APPEND ends (`storeGroup`). -/
def placePage (s : State) (t id k p : Nat) : Option State :=
  match ctxOf s t id with
  | none => none
  | some x =>
    let s := recentMove s x k p
    let s := ease s t 0 (fun s => decide (rsvUse s t + (if x.sumrsv then 2 * x.row else 0) ≤ rsvShare s t))
    let s := ease s t 1 (fun s => decide (hbmUse s t + 32 + 2 * x.row ≤ hbmShare s t))
    if !newRoom s x 3 then none
    else (findTier x 3 (homeTier x) s).map (fun (s, tier) =>
      setPage s t id k p (some ⟨List.replicate x.frame 0, [], [], tier, false, s.mim.reads⟩))

/-! ### Calls: fields (R169–R173) -/

/-- FP32 bits: finite. -/
def fpFinite (v : Nat) : Bool := bits v 30 23 != 255
/-- FP32 bits: zero. -/
def fpZero (v : Nat) : Bool := bits v 30 0 == 0
/-- The value of FP32 bits. -/
def fpVal (v : Nat) : Val := valOf .fp32 v

/-- Query formats. -/
def qfmtOk (c : Nat) : Bool := c < 5
/-- Output formats. -/
def ofmtOk (c : Nat) : Bool := c < 3

/-- FENCE, TWIN and NOTIFY of an entry (R170); byte 24 of a TRUNCATE is part of LENGTH. -/
def mFence (b : List Byte) : Bool := le b 0 1 != 0x0C && lef b 24 1 7 7 == 1
/-- TWIN. -/
def mTwin (b : List Byte) : Bool := le b 0 1 != 0x0C && lef b 24 1 6 6 == 1
/-- NOTIFY. -/
def mNotify (b : List Byte) : Bool := le b 0 1 != 0x0C && lef b 24 1 5 5 == 1

/-- Reserved bytes and bits of an opcode (R173). -/
def mimReserved (b : List Byte) : Bool :=
  let z (o n : Nat) : Bool := !zeroAt b o n
  let q (o hi lo : Nat) : Bool := lef b o 1 hi lo != 0
  headerBad b || match le b 0 1 with
  | 0x01 => q 21 7 6 || q 22 7 5 || q 23 7 5 || q 24 1 0 || q 25 7 3 || q 26 7 6 || z 27 1 || lef b 32 4 31 17 != 0 || z 44 4
  | 0x02 => q 21 7 6 || q 22 7 6 || q 23 7 5 || q 24 4 0 || z 25 3 || lef b 28 4 31 17 != 0 || z 37 11 || z 56 8
  | 0x03 => q 21 7 6 || q 22 7 5 || z 23 1 || q 24 4 0 || z 25 3 || lef b 28 4 31 17 != 0 || z 44 4
  | 0x04 =>
    let m := lef b 24 1 4 3
    lef b 16 2 15 11 != 0 || lef b 18 2 15 9 != 0 || lef b 20 4 31 21 != 0 || q 24 2 0 || z 27 21 ||
      (m != 1 && z 18 2) || q 25 7 5 || q 26 7 3 || (m == 0 && (z 25 1 || z 26 1))
  | 0x05 => q 24 2 0 || z 23 1 || z 26 2 || z 41 7 || (lef b 24 1 4 3 != 2 && (z 28 4 || z 32 4))
  | 0x06 => q 21 7 6 || z 22 2 || q 24 3 0 || z 25 3 || lef b 28 4 31 17 != 0 || z 36 12
  | 0x07 => z 20 4 || q 24 4 0 || z 25 7 || z 60 4
  | 0x08 => q 21 7 6 || q 22 7 5 || q 23 7 5 || q 24 0 0 || z 25 1 || lef b 28 2 15 13 != 0 || z 30 2 || z 40 24
  | 0x09 => z 20 4 || q 24 4 0 || z 25 39
  | 0x0A => q 21 7 6 || q 22 7 1 || z 23 1 || q 24 4 0 || z 25 3 || z 36 28
  | 0x0B => q 21 7 6 || z 22 2 || q 24 4 0 || z 25 3 || z 36 28
  | 0x0C => z 25 39
  | _ => false

/-- The context that an opcode's entry names, where it must exist. -/
def needsCtx (op : Nat) : Bool := [1, 2, 3, 6, 9, 0xA, 0xB, 0xC].contains op

/-- Enumerated values and ranges that need no context (R173, R175). -/
def mimValues (b : List Byte) : Bool :=
  match le b 0 1 with
  | 0x01 => qfmtOk (lef b 22 1 4 0) && ofmtOk (lef b 23 1 4 0) && decide (lef b 24 1 3 2 < 2) && decide (lef b 25 1 2 0 < 5) &&
      fpFinite (le b 28 4) && !fpZero (le b 28 4) && decide (lef b 32 4 16 0 ≤ 65536) && decide (le b 36 5 < 2 ^ 38) &&
      le b 48 8 % 64 == 0 && le b 56 8 % 64 == 0
  | 0x02 => decide (lef b 28 4 16 0 ≥ 1 ∧ lef b 28 4 16 0 ≤ 65536) && decide (le b 32 5 + lef b 28 4 16 0 ≤ 2 ^ 38) && le b 48 8 % 64 == 0
  | 0x03 => qfmtOk (lef b 22 1 4 0) && decide (lef b 28 4 16 0 ≥ 1 ∧ lef b 28 4 16 0 ≤ 65536) && decide (le b 36 4 ≥ 1) &&
      fpFinite (le b 40 4) && !fpZero (le b 40 4) && !bit (le b 40 4) 31 && le b 56 8 % 64 == 0
  | 0x04 =>
    let m := lef b 24 1 4 3
    let n := lef b 20 4 20 0
    decide (lef b 16 2 10 0 ≥ 1 ∧ lef b 16 2 10 0 ≤ 1024) && decide (n ≥ 1 ∧ n ≤ 2 ^ 20) && decide (m < 3) &&
      (m == 0 || (ofmtOk (lef b 25 1 4 0) && decide (lef b 26 1 2 0 < 5))) &&
      (m != 1 || (decide (lef b 18 2 8 0 ≥ 1 ∧ lef b 18 2 8 0 ≤ 256) && n % (lef b 18 2 8 0 + 1) == 0))
  | 0x05 =>
    let m := lef b 24 1 4 3
    decide (le b 20 3 ≥ 1 ∧ le b 20 3 ≤ 0xFFFFFE) && decide (m < 3) && decide (le b 36 5 < 2 ^ 38) &&
      (m != 2 || (fpFinite (le b 28 4) && !fpZero (le b 28 4) && fpFinite (le b 32 4)))
  | 0x06 => decide (lef b 28 4 16 0 ≥ 1 ∧ lef b 28 4 16 0 ≤ 65536) && le b 56 8 % 256 == 0
  | 0x07 => !mTwin b && decide (le b 56 4 ≥ 4 ∧ le b 56 4 ≤ 24576) && le b 56 4 % 4 == 0
  | 0x08 =>
    let d := le b 26 2
    !mTwin b && le b 16 4 != 0xFFFFFFFF && (match pageFmt (lef b 23 1 4 0) with
      | some f => decide (32 ≤ d ∧ d ≤ 256) && d % (if isMX f then 32 else 16) == 0
      | none => false) && decide (lef b 24 1 4 2 < 4) && decide (lef b 28 2 12 0 ≤ 4096)
  | 0x0C => decide (le b 20 5 < 2 ^ 38)
  | _ => !mTwin b

/-- Ranges that are checked against the context (R159, R176, R181, R182). -/
def mimRanges (x : Context) (b : List Byte) : Bool :=
  let op := le b 0 1
  let layer := le b 20 1
  let group := lef b 21 1 5 0
  let g := x.lg layer group
  if op = 9 ∨ op = 0xC then true
  else if layer ≥ x.layers || group ≥ x.groups then false
  else match op with
  | 0x01 =>
    let first := le b 36 5
    let n := le b 41 3
    decide (first + n ≤ g.len) && (n == 0 || decide (64 * x.first ≤ first)) && (lef b 24 1 4 4 == 0 || decide (lef b 26 1 5 0 + 1 ≤ n))
  | 0x02 =>
    let gc := lef b 22 1 5 0 + 1
    let sf := lef b 23 1 4 0
    decide (group + gc ≤ x.groups) && (sf < 3 || sf == fmtCode x.pfmt) &&
      (List.range gc).all (fun i => (x.lg layer (group + i)).len == le b 32 5)
  | 0x03 => decide (x.first ≤ le b 32 4) && decide (le b 32 4 + le b 36 4 ≤ g.pageCount)
  | 0x06 => le b 48 8 != 0 || (decide (x.first ≤ le b 32 4) && decide (le b 32 4 + lef b 28 4 16 0 ≤ g.pageCount))
  | _ => decide (x.first ≤ le b 28 4) && decide (le b 28 4 + le b 32 4 ≤ g.pageCount)

/-- Is an NSID valid for a context: 0, or a CONTEXT namespace of the turnout (R337). -/
def nsidOk (s : State) (t n : Nat) : Bool :=
  n == 0 || (match nsOf s n with
    | some x => x.owner == t && x.ctx && !x.gone
    | none => false)

/-- The status that a Mimin entry's fields give at its fetch (R173); 0 where they are valid. -/
def mimValidate (s : State) (t : Nat) (b : List Byte) : Nat :=
  let op := le b 0 1
  if op < 1 || op > 0xC then stOpcode
  else if mimReserved b || !mimValues b then stField
  else if op = 8 then (if (ctxOf s t (le b 16 4)).isSome || !nsidOk s t (le b 32 4) then stField else stOk)
  else if needsCtx op then
    match ctxOf s t (le b 16 4) with
    | some x => if mimRanges x b then stOk else stField
    | none => stField
  else stOk

/-! ### Running a call (R170, R174, R175, R189) -/

/-- SOURCE code of Mimin's data (R228). -/
def srcMimin : Nat := 3

/-- The order of R173 in which a failed access decides how a call ends: DEVICE_FAULT, what is still to be waited for (a completion,
a page), PAGE_WAIT_TIMEOUT, ACCESS_DENIED. -/
def MErr.rank : MErr → Nat
  | .poison | .reset => 0
  | .wait _ => 1
  | .page _ _ _ => 2
  | .pageLate => 3
  | .denied => 4

/-- The first of two failures by R173. -/
def firstErr (a : Option MErr) (b : MErr) : Option MErr :=
  match a with
  | some e => if b.rank < e.rank then some b else some e
  | none => some b

/-- Makes every access and fails by the first of their failures by R173. -/
def eachMM {α : Type} (xs : List (MM α)) : MM (List α) := do
  let rs ← xs.mapM tryMM
  match rs.foldl (fun a r => match r with
      | .error e => firstErr a e
      | .ok _ => a) none with
  | some e => throw e
  | none => return rs.filterMap (fun r => match r with
    | .ok v => some v
    | .error _ => none)

/-- Reads `n` bytes at `a` of an owner's space for a call (R171, R173). -/
def mimRead (v : Via) (owner a n : Nat) : MM (List Byte) := do
  let ls ← eachMM ((pagePieces (n / 4096 + 2) a n).map (fun q => do
    let p ← ownerAddr ioWalker owner q.1 false
    physRead (v.at_ owner q.1) owner p q.2))
  return ls.flatten

/-- How a call ends: result word, flags, and the bytes it writes with their addresses. -/
structure Done where
  /-- Result word. -/
  res : Nat
  /-- Flags raised. -/
  fl : NumFlags
  /-- Output. -/
  out : List (Nat × List Byte)
deriving DecidableEq, Repr

/-- Writes pieces of an owner's space: every page of every piece is translated and checked before anything is written. -/
def writeAll (v : Via) (owner : Nat) (ws : List (Nat × List Byte)) : MM Unit := do
  let ts ← eachMM (ws.map (fun w => writeTargets v owner (pagePieces (w.2.length / 4096 + 2) w.1 w.2.length)))
  let _ ← (ts.zip ws).mapM (fun p => storePieces v owner p.1 p.2.2)
  return ()

/-- SUCCESS, or NUMERIC_FLAG where the caller asked to be told of a flag (R170). -/
def okStatus (b : List Byte) (fl : NumFlags) : Nat :=
  if mNotify b && (fl &&& (fINV ||| fOVF ||| fCLAMP)) != 0 then stNumeric else stOk

/-- Writes a call's output and ends it (R174). -/
def finishCall (s : State) (e : Entry) (d : Done) (commit : State → State) : State :=
  withData s e srcMimin (writeAll (ioOf e) (furOwner s e.f) d.out) fun _ s => endEntry (commit s) e.f e.i (okStatus e.b d.fl) d.res

/-- Attention cells of a turnout. -/
def attnOf (s : State) (t : Nat) : List Nat := (quotaOf s t).attn.map Prod.fst

/-- Is a cell taken by a RUN (R187). -/
def inRun (s : State) (c : Nat) : Bool := s.mim.runs.any (fun r => r.holds c)

/-- A call that needs attention cells: with none it ends with NO_RESOURCE, a twin call with a single one too (R189); it waits
while every one is taken by a RUN. A twin call then runs as two copies until TWIN_COMPARE. -/
def callStart (s : State) (e : Entry) (body : Entry → State → State) : State :=
  let cs := attnOf s (furOwner s e.f)
  if cs.isEmpty || (mTwin e.b && cs.length == 1) then endEntry s e.f e.i stNoRes noResult
  else if cs.all (inRun s) then s
  else if mTwin e.b then modEntry s e.f e.i (fun e => { e with ph := .running })
  else body e s

/-- A Mimin row on an entry. -/
def mimRun (f : Fin 262144) (i : Fin 65536) (op : Nat) (s : State) (k : Entry → State) : Ans := .next (runEntry s f i clMimin op k)

/-- How the reads of pages fail (R192): 1 poisoned data, 2 a failed read from the context store, 3 a storage timeout; 4: a word of
a page is corrected, and the call goes on (R70). 2 and 3 need a page in the store. -/
def pageErr (perr : Nat) (ps : List Page) : Option Nat :=
  match perr with
  | 1 => if ps.isEmpty then none else some stFault
  | 2 => if ps.any (fun p => p.tier == 2) then some stMedia else none
  | 3 => if ps.any (fun p => p.tier == 2) then some stTimeout else none
  | _ => none

/-- A word of memory where a page of a tier lies, by address / 8: in HBM, else in the reservoir, whose granules hold or stage it (R163). Where
Mimin places a page is its own matter: a free value (DESIGN CHOICE, log entry 91). -/
def pageWord (s : State) (p : Page) : Nat × State :=
  let (v, s) := freshV s
  (if p.tier = 1 then v % 2 ^ 35 else (0x100_0000_0000 + v % 2 ^ 32) / 8, s)

/-- What an error met while pages are read leaves in the counters and the history (R60, R70): an uncorrectable word, or a corrected one. -/
def pageMarks (s : State) (perr : Nat) (ps : List Page) : State :=
  if ps.isEmpty || !(perr == 1 || perr == 4) then s
  else
    let (j, s) := freshBelow s ps.length
    match ps[j]? with
    | some p =>
      let (w, s) := pageWord s p
      if perr = 1 then ueWord s w else ceWord s w
    | none => s

/-- Reads a call's buffer and, with it, pages (R173): what fails first by the order of R173 ends the call. -/
def withPages {α : Type} (s : State) (e : Entry) (perr : Nat) (x : MM α) (early : List Page) (pages : α → List Page)
    (k : α → State → State) : State :=
  match runMM s x with
  | (.ok a, s) =>
    let s := pageMarks s perr (pages a)
    match pageErr perr (pages a) with
    | some st => endEntry s e.f e.i st noResult
    | none => k a s
  | (.error err, s') =>
    -- the pages of the range are read whatever becomes of the buffer
    match pageErr perr early with
    | some st =>
      if err.rank = 0 then withData s e srcMimin x fun _ s => s
      else endEntry (pageMarks s' perr early) e.f e.i st noResult
    | none => withData s e srcMimin x fun _ s => s

/-- Marks pages as read now (R165). -/
def touch (s : State) (t id k : Nat) (ps : List Nat) : State :=
  let s := { s with mim := { s.mim with reads := s.mim.reads + 1 } }
  match ctxOf s t id with
  | none => s
  | some x =>
    let g := sget ⟨64 * x.first, []⟩ x.lgs k
    setCtx s t id (some (x.setLg k { g with pages := g.pages.map (fun p =>
      if ps.contains p.1 then (p.1, p.2.map (fun q => { q with read := s.mim.reads })) else p) }))

/-! ### ATTEND (R176–R179) -/

/-- A page of a layer-group; zero rows where it has no frame. -/
def pageOf (x : Context) (g : LGroup) (p : Nat) : Page := (sget none g.pages p).getD ⟨List.replicate x.frame 0, [], [], 1, false, 0⟩

/-- Product of a resolved sum and a finite value. -/
def qMul (a : QVal) (v : Val) : QVal :=
  match a, v with
  | .nan, _ | _, .nan | _, .lp _ => .nan
  | .inf s, .fin t m _ => if m = 0 then .nan else .inf (s != t)
  | .inf s, .inf t => .inf (s != t)
  | .q s n _, .inf t => if n = 0 then .nan else .inf (s != t)
  | .q s n d, .fin t m e => .q (s != t) (n * numOf m e) (d * denOf e)

/-- s of R177: the exact product of SCALE and the dot product, rounded once to FP32 by RNE. -/
def score (scale : Val) (q k : List Val) : Nat × NumFlags :=
  let a := (List.zip q k).foldl (fun a p => a.addProd p.1 p.2) Acc.zero
  let (v, fl) := a.resolve
  let (c, fr) := convertQ .fp32 .rne (qMul v scale)
  (c, a.flags ||| fl ||| fr)

/-- p of R177: exp(s − c), saturating, with SCORE_CLAMP where it saturates. -/
def weight (sc c : Nat) : Nat × NumFlags :=
  let (p, fl) := expdLane false .fp32 .rne (fpVal sc) (fpVal c)
  (p, if fl &&& fOVF != 0 then fl ||| fCLAMP else fl)

/-- The accumulators of one head and query: acc_v, acc_s and the flags. -/
structure AttAcc where
  /-- acc_v. -/
  v : List Acc
  /-- acc_s. -/
  s : Acc
  /-- Flags raised. -/
  fl : NumFlags
deriving DecidableEq, Repr

/-- One token of R177's loop. -/
def attToken (scale : Val) (c : Nat) (q : List Val) (a : AttAcc) (kv : List Val × List Val) : AttAcc :=
  let (sc, f1) := score scale q kv.1
  let (p, f2) := weight sc c
  let pv := fpVal p
  ⟨List.zipWith (fun (a : Acc) v => a.addProd pv v) a.v kv.2, a.s.addVal pv, a.fl ||| f1 ||| f2⟩

/-- The token set of a call (R176). -/
def tokenSet (first n len : Nat) (list : List Nat) : List Nat :=
  (List.range n).map (fun i => first + i) ++
    (list.flatMap (fun p => (List.range 64).map (fun r => 64 * p + r))).filter (fun t => decide (t < len) && !(decide (first ≤ t) && decide (t < first + n)))

/-- Are page indices strictly ascending and below a bound, from `lo` on. -/
def listOk (lo hi : Nat) : List Nat → Bool
  | [] => true
  | p :: r => decide (lo ≤ p) && decide (p < hi) && r.all (fun q => decide (p < q)) && listOk lo hi r

/-- ATTEND's computation over what it has read; none: INVALID_FIELD. -/
def attend (x : Context) (b : List Byte) (buf : List Byte) : Option Done :=
  let k := 64 * le b 20 1 + lef b 21 1 5 0
  let g := sget ⟨64 * x.first, []⟩ x.lgs k
  let qf := (fmtOfCode (lef b 22 1 4 0)).getD .fp32
  let ofm := (fmtOfCode (lef b 23 1 4 0)).getD .fp32
  let nq := lef b 26 1 5 0 + 1
  let np := lef b 32 4 16 0
  let first := le b 36 5
  let n := le b 41 3
  let causal := lef b 24 1 4 4 == 1
  let qBytes := rowLen qf (x.heads * nq * x.d)
  let cOff := alignUp qBytes 64
  let lOff := alignUp (cOff + 4 * x.heads * nq) 64
  let offs := (List.range (x.heads * nq)).map (fun i => le buf (cOff + 4 * i) 4)
  let list := (List.range np).map (fun i => le buf (lOff + 4 * i) 4)
  if !offs.all fpFinite || !listOk x.first g.pageCount list then none
  else
    let toks := tokenSet first n g.len list
    let kv := toks.map (fun t =>
      let p := pageOf x g (t / 64)
      (t, rowVals x.pfmt x.d (kRow x p.frame (t % 64)), rowVals x.pfmt x.d (vRow x p.frame (t % 64))))
    let rows := (List.range (x.heads * nq)).map (fun i =>
      let q := (List.range x.d).map (fun j => valOf qf (elemAt (fmtBits qf) buf (i * x.d + j)))
      let pos : Int := (first + n : Int) - nq + (i % nq : Nat)
      (kv.filter (fun t => !causal || decide ((t.1 : Int) ≤ pos))).foldl
        (fun a t => attToken (fpVal (le b 28 4)) (offs.getD i 0) q a t.2) ⟨List.replicate x.d Acc.zero, Acc.zero, 0⟩)
    let fl0 := rows.foldl (fun a r => a ||| r.fl) 0
    if lef b 24 1 3 2 = 1 then
      let fl := rows.foldl (fun a r => r.v.foldl (fun a v => a ||| v.flags) (a ||| r.s.flags)) fl0
      some ⟨fl.toNat, fl, [(le b 56 8, rows.flatMap (fun r => (r.v ++ [r.s]).flatMap (fun a => padTo 96 a.toLAX)))]⟩
    else
      let outs := rows.map (fun r => r.v.map (fun v => quotRound v r.s ofm (modeOf (lef b 25 1 2 0) 0)))
      let fl := outs.foldl (fun a r => r.foldl (fun a o => a ||| o.2) a) fl0
      some ⟨fl.toNat, fl, [(le b 56 8, packElems (fmtBits ofm) (outs.flatMap (fun r => r.map Prod.fst)))]⟩

/-- Bytes of ATTEND's query buffer (R176). -/
def attendBuf (x : Context) (b : List Byte) : Nat :=
  let qf := (fmtOfCode (lef b 22 1 4 0)).getD .fp32
  let nq := lef b 26 1 5 0 + 1
  alignUp (alignUp (rowLen qf (x.heads * nq * x.d)) 64 + 4 * x.heads * nq) 64 + 4 * lef b 32 4 16 0

/-- ATTEND's body. -/
def attendBody (perr : Nat) (e : Entry) (s : State) : State :=
  match e.ctx with
  | none => endEntry s e.f e.i stField noResult
  | some x =>
    let k := 64 * le e.b 20 1 + lef e.b 21 1 5 0
    let g := sget ⟨64 * x.first, []⟩ x.lgs k
    let first := le e.b 36 5
    let n := le e.b 41 3
    let range := (List.range (if n = 0 then 0 else (first + n + 63) / 64 - first / 64)).map (fun i => first / 64 + i)
    let ps := (entryPages s e).map Prod.snd
    withPages s e perr (mimRead (ioOf e) x.t (le e.b 48 8) (attendBuf x e.b)) (range.map (pageOf x g)) (fun _ => ps.map (pageOf x g)) fun buf s =>
      match attend x e.b buf with
      | none => endEntry s e.f e.i stField noResult
      | some d => finishCall s e d (fun s => touch s x.t x.id k ps)

/-- ATTEND (R176–R179). -/
def execAttend (f : Fin 262144) (i : Fin 65536) (perr : Fin 5) (s : State) : Ans := keepQueue s <|
  mimRun f i 0x01 s fun e => callStart s e (attendBody perr)

/-! ### SCAN (R181) -/

/-- B_h of a page (R181): the exact sum of the larger products, in the order of R34, with the flags of both. -/
def bound (q mx mn : List Val) : Acc :=
  (List.zip q (List.zip mx mn)).foldl (fun a p =>
    let (u, fu) := vMul p.1 p.2.1
    let (v, fv) := vMul p.1 p.2.2
    let a := a.addVal (if vGt v u then v else u)
    { a with flags := a.flags ||| fu ||| fv }) Acc.zero

/-- Is a value NaN or infinite. -/
def vSpecial : Val → Bool
  | .nan | .inf _ => true
  | _ => false

/-- A candidate of a SCAN: index, special summary, bounds of the heads. -/
structure PageCand where
  /-- Page index. -/
  p : Nat
  /-- The summary holds a NaN or an infinity. -/
  special : Bool
  /-- B_h. -/
  bh : List Acc
  /-- Σ_h B_h. -/
  sum : Int
deriving DecidableEq, Repr

/-- Does a candidate rank before another (R181). -/
def candBefore (a b : PageCand) : Bool :=
  if a.special != b.special then a.special
  else if a.special then decide (a.p < b.p)
  else decide (a.sum > b.sum) || (a.sum == b.sum && decide (a.p < b.p))

/-- The first `n` of a list by a strict order, by repeated selection. -/
def pickBest : Nat → List PageCand → List Nat
  | 0, _ => []
  | n + 1, l =>
    match l.foldl (fun b c => match b with
        | some d => if candBefore c d then some c else b
        | none => some c) none with
    | some c => c.p :: pickBest n (l.filter (fun d => d.p != c.p))
    | none => []

/-- The larger of two resolved bounds; NaN above all. -/
def qMax (a b : QVal) : QVal :=
  match a, b with
  | .nan, _ | _, .nan => .nan
  | .inf false, _ | _, .inf false => .inf false
  | .inf true, x | x, .inf true => x
  | .q s n d, .q t m g => if sgn s n * (g : Int) ≥ sgn t m * (d : Int) then .q s n d else .q t m g

/-- Ascending insertion. -/
def insertNat (x : Nat) : List Nat → List Nat
  | [] => [x]
  | y :: r => if x ≤ y then x :: y :: r else y :: insertNat x r

/-- SCAN's body. Queries that hold a NaN or an infinity leave the scores unstated: they are free values. -/
def scanBody (perr : Nat) (e : Entry) (s : State) : State :=
  match e.ctx with
  | none => endEntry s e.f e.i stField noResult
  | some x =>
    let b := e.b
    let qf := (fmtOfCode (lef b 22 1 4 0)).getD .fp32
    let k := 64 * le b 20 1 + lef b 21 1 5 0
    let g := sget ⟨64 * x.first, []⟩ x.lgs k
    let ps := (List.range (le b 36 4)).map (fun i => le b 32 4 + i)
    let pages := ps.map (pageOf x g)
    withPages s e perr (mimRead (ioOf e) x.t (le b 48 8) (rowLen qf (x.heads * x.d))) pages (fun _ => pages) fun buf s =>
        let q := (List.range x.heads).map (fun h => (List.range x.d).map (fun j => valOf qf (elemAt (fmtBits qf) buf (h * x.d + j))))
        let odd := q.any (fun r => r.any vSpecial)
        let cands := ps.map (fun p =>
          let y := pageOf x g p
          let mx := rowVals x.pfmt x.d y.kmax
          let mn := rowVals x.pfmt x.d y.kmin
          let bh := q.map (fun r => bound r mx mn)
          (⟨p, (mx ++ mn).any vSpecial, bh, bh.foldl (fun a c => a + c.n.toInt) 0⟩ : PageCand))
        let (cands, s) := if odd then cands.foldl (fun (l, s) c => let (v, s) := freshV s; (l ++ [{ c with sum := (v : Int) }], s)) ([], s)
          else (cands, s)
        let sel := (pickBest (lef b 28 4 16 0) cands).foldl (fun l p => insertNat p l) []
        let heads := (List.range x.heads).map (fun h =>
          let m := (cands.map (fun c => (c.bh.getD h Acc.zero).resolve.1)).foldl (fun a v => match a with
            | some w => some (qMax w v)
            | none => some v) none
          convertQ .fp32 .rup (qMul (m.getD (.q false 0 1)) (fpVal (le b 40 4))))
        -- every accumulator is rounded out (R41): its own flags count with those of resolving and rounding it
        let fl := cands.foldl (fun a c => c.bh.foldl (fun a h => a ||| h.flags ||| h.resolve.2) a) (heads.foldl (fun a h => a ||| h.2) 0)
        let idx := sel.flatMap (natLE 4)
        -- what the bytes between the indices and the 64-byte boundary hold is a free value
        let (gap, s) := freshBytes s (alignUp idx.length 64 - idx.length)
        finishCall s e ⟨sel.length, fl, [(le b 56 8, idx ++ gap ++ heads.flatMap (fun h => natLE 4 h.1))]⟩ id

/-- SCAN (R181). -/
def execScan (f : Fin 262144) (i : Fin 65536) (perr : Fin 5) (s : State) : Ans := keepQueue s <|
  mimRun f i 0x03 s fun e => callStart s e (scanBody perr)

/-! ### APPEND and TRUNCATE (R182, R183) -/

/-- The rows of one group as page-format bytes, with the flags of their conversion. -/
def convRows (x : Context) (sf : Fmt) (l : List Byte) (n : Nat) : List (List Byte) × NumFlags :=
  let w := rowLen sf x.d
  let rows := (List.range n).map (fun i => (l.drop (w * i)).take w)
  if sf = x.pfmt then (rows, 0)
  else
    let rs := rows.map (fun r => encodeRow x.pfmt .rne (rowVals sf x.d r))
    (rs.map Prod.fst, rs.foldl (fun a r => a ||| r.2) 0)

/-- Writes one token into its page and updates the summary. -/
def putToken (s : State) (t id k tok : Nat) (kr vr : List Byte) : State :=
  match ctxOf s t id with
  | none => s
  | some x =>
    let g := sget ⟨64 * x.first, []⟩ x.lgs k
    match sget none g.pages (tok / 64) with
    | none => s
    | some p =>
      let r := tok % 64
      let p := { p with frame := putAt (putAt p.frame (r * x.row) kr) ((64 + r) * x.row) vr }
      setPage s t id k (tok / 64) (some (summarise x p (r + 1)))

/-- Appends tokens to one layer-group: rows from token `tok` on. A page is begun at its first token (R165). -/
def appendRows (t id k : Nat) : Nat → List (List Byte × List Byte) → State → Option State
  | _, [], s => some s
  | tok, (kr, vr) :: r, s =>
    match (if tok % 64 = 0 then placePage s t id k (tok / 64) else some s) with
    | none => none
    | some s =>
      let s := putToken s t id k tok kr vr
      match ctxOf s t id with
      | none => none
      | some x =>
        let g := sget ⟨64 * x.first, []⟩ x.lgs k
        appendRows t id k (tok + 1) r (setCtx s t id (some (x.setLg k { g with len := tok + 1 })))

/-- Gives every page of the store that tokens `pos` to `pos + n − 1` touched its record (R164, R352); none where the store has no room. -/
def storeGroup (t id k pos n : Nat) (s : State) : Option State :=
  (List.range ((pos + n + 63) / 64 - pos / 64)).foldl (fun o i =>
    o.bind (fun s => match ctxOf s t id with
      | none => none
      | some x =>
        let p := pos / 64 + i
        match x.page? k p with
        | some q => if q.tier = 2 then storePage s x k p (tokensIn (sget ⟨64 * x.first, []⟩ x.lgs k).len p) q else some s
        | none => some s)) (some s)

/-- Appends to every named layer-group, all or none. -/
def appendGroups (x : Context) (layer pos : Nat) : List (Nat × List (List Byte × List Byte)) → State → Option State
  | [], s => some s
  | (g, rows) :: r, s => ((appendRows x.t x.id (64 * layer + g) pos rows s).bind
      (storeGroup x.t x.id (64 * layer + g) pos rows.length)).bind (appendGroups x layer pos r)

/-- The context that a call acts on: none once a DESTROY fetched after it has taken the context out of the directory (R188). -/
def liveCtx (s : State) (e : Entry) (t id : Nat) : Option Context := if destroyedAfter s e t id then none else ctxOf s t id

/-- Has a TRUNCATE or a DESTROY fetched after the call taken the data from the directory: the call then completes on the old data, and
nothing of its change to the directory remains (R183, R188; DESIGN CHOICE, log entry 92). -/
def cutSince (e : Entry) (x : Option Context) : Bool :=
  match e.ctx, x with
  | some a, some b => a.cuts != b.cuts
  | _, _ => true

/-- APPEND's body: POSITION is checked again as it commits, against the context as it stands. -/
def appendBody (e : Entry) (s : State) : State :=
  match e.ctx with
  | none => endEntry s e.f e.i stField noResult
  | some x0 =>
    let b := e.b
    let sf := (fmtOfCode (lef b 23 1 4 0)).getD .fp32
    let n := lef b 28 4 16 0
    let gf := lef b 21 1 5 0
    let gc := lef b 22 1 5 0 + 1
    let w := rowLen sf x0.d
    withData s e srcMimin (mimRead (ioOf e) x0.t (le b 48 8) (gc * 2 * n * w)) fun src s =>
      let gs := (List.range gc).map (fun i =>
        let (ks, f1) := convRows x0 sf (src.drop (i * 2 * n * w)) n
        let (vs, f2) := convRows x0 sf (src.drop ((i * 2 + 1) * n * w)) n
        (gf + i, List.zip ks vs, f1 ||| f2))
      let fl := gs.foldl (fun a g => a ||| g.2.2) 0
      let live := liveCtx s e x0.t x0.id
      if live.any (fun x => mimRanges x b) then
        match appendGroups x0 (le b 20 1) (le b 32 5) (gs.map (fun g => (g.1, g.2.1))) s with
        | none => endEntry s e.f e.i stNoSpace noResult
        | some s => endEntry s e.f e.i (okStatus b fl) fl.toNat
      else if cutSince e live then endEntry s e.f e.i (okStatus b fl) fl.toNat
      else endEntry s e.f e.i stField noResult

/-- APPEND (R182). -/
def execAppend (f : Fin 262144) (i : Fin 65536) (s : State) : Ans := keepQueue s <|
  mimRun f i 0x02 s fun e => callStart s e appendBody

/-- Marks a freed page of the store (R352). -/
def tombPage (s : State) (x : Context) (k p : Nat) (q : Page) : State :=
  if q.tier = 2 ∧ storeOk s x = true then (ctxAppend s x.nsid 2 (fmtCode x.pfmt) x.id (pageId k p) 0 []).getD s else s

/-- Shortens one layer-group (R183). -/
def truncGroup (x : Context) (len : Nat) (g : LGroup) : LGroup :=
  let l := max (64 * x.first) (min g.len len)
  let ps := g.pages.filter (fun p => decide (64 * p.1 < l))
  ⟨l, if l % 64 = 0 then ps else ps.map (fun p =>
    if p.1 = l / 64 then (p.1, p.2.map (fun q =>
      let keep := l % 64
      let row := x.row
      let fr := q.frame.take (keep * row) ++ List.replicate ((64 - keep) * row) 0 ++ (q.frame.drop (64 * row)).take (keep * row) ++
        List.replicate ((64 - keep) * row) 0
      summarise x { q with frame := fr } keep)) else p)⟩

/-- Frees the store records of the pages of a context that satisfy a predicate. -/
def tombPages (s : State) (x : Context) (p : Nat → Nat → Bool) : State :=
  x.lgs.foldl (fun s g => g.2.pages.foldl (fun s q => match q.2 with
    | some y => if p g.1 q.1 then tombPage s x g.1 q.1 y else s
    | none => s) s) s

/-- The pages of the store that now end their layer-groups get new records (R183, R352); one that the store cannot take keeps the old
record. -/
def storeEnds (s : State) (x : Context) : State :=
  x.lgs.foldl (fun s g =>
    if g.2.len % 64 = 0 then s
    else match sget none g.2.pages (g.2.len / 64) with
      | some q => if q.tier = 2 ∧ storeOk s x = true then (storePage s x g.1 (g.2.len / 64) (g.2.len % 64) q).getD s else s
      | none => s) s

/-- TRUNCATE takes effect at fetch (R183): no other call of the turnout is fetched before this. -/
def execTruncate (f : Fin 262144) (i : Fin 65536) (s : State) : Ans := keepQueue s <|
  mimRun f i 0x0C s fun e =>
    let t := furOwner s f
    match ctxOf s t (le e.b 16 4) with
    | none => endEntry s f i stField noResult
    | some x =>
      let len := le e.b 20 5
      let cut (k : Nat) : Nat := max (64 * x.first) (min (sget ⟨64 * x.first, []⟩ x.lgs k).len len)
      let lgs := (x.lgs.map (fun g => (g.1, truncGroup x len g.2))).filter (fun g => decide (g.2 ≠ ⟨64 * x.first, []⟩))
      let hit := x.lgs.filter (fun g => decide (cut g.1 < g.2.len))
      let y := { x with lgs := lgs, cuts := if hit.isEmpty then x.cuts else x.cuts + 1 }
      let s := setCtx s t x.id (some y)
      let s := storeEnds s { y with lgs := lgs.filter (fun g => hit.any (fun h => h.1 == g.1)) }
      endEntry (tombPages s x (fun k p => decide (cut k ≤ 64 * p))) f i stOk noResult

/-! ### MERGE (R184) -/

/-- Slot `j` of every input, merged; none for a malformed record (R44, R45). -/
def mergeSlot (ins : List (List Byte)) (j : Nat) : Option Acc :=
  ins.foldl (fun a l => match a, ofLAX ((l.drop (96 * j)).take 96) with
    | some a, some b => some (a.merge b)
    | _, _ => none) (some Acc.zero)

/-- All merged records. -/
def mergeSlots (ins : List (List Byte)) (n : Nat) : Option (List Acc) := (List.range n).mapM (mergeSlot ins)

/-- MERGE's inputs: the addresses at INADDR, then NREC slots from each. -/
def mergeRead (owner : Nat) (e : Entry) : MM (List (List Byte)) := do
  let b := e.b
  let nin := lef b 16 2 10 0
  let a ← mimRead (ioOf e) owner (le b 48 8) (8 * nin)
  eachMM ((List.range nin).map (fun i => mimRead (ioOf e) owner (le a (8 * i) 8) (96 * lef b 20 4 20 0)))

/-- MERGE's output of a mode: bytes and flags. -/
def mergeOut (b : List Byte) (as : List Acc) : List Byte × NumFlags :=
  let ofm := (fmtOfCode (lef b 25 1 4 0)).getD .fp32
  let mode := modeOf (lef b 26 1 2 0) 0
  match lef b 24 1 4 3 with
  | 0 => (as.flatMap (fun a => padTo 96 a.toLAX), as.foldl (fun x a => x ||| a.flags) 0)
  | 1 =>
    let d := lef b 18 2 8 0
    let gs := chunks (d + 1) (as.length + 1) as
    let es := gs.flatMap (fun g => (g.take d).map (fun a => quotRound a (g.getD d Acc.zero) ofm mode))
    (packElems (fmtBits ofm) (es.map Prod.fst), es.foldl (fun x e => x ||| e.2) 0)
  | _ =>
    let es := as.map (fun a => a.round ofm mode)
    (packElems (fmtBits ofm) (es.map Prod.fst), es.foldl (fun x e => x ||| e.2) 0)

/-- MERGE's body. -/
def mergeBody (e : Entry) (s : State) : State :=
  withData s e srcMimin (mergeRead (furOwner s e.f) e) fun ins s =>
    match mergeSlots ins (lef e.b 20 4 20 0) with
    | none => endEntry s e.f e.i stField noResult
    | some as =>
      let (o, fl) := mergeOut e.b as
      finishCall s e ⟨fl.toNat, fl, [(le e.b 56 8, o)]⟩ id

/-- A MERGE row of a mode. -/
def mergeRow (f : Fin 262144) (i : Fin 65536) (mode : Nat) (s : State) : Ans :=
  mimRun f i 0x04 s fun e => if lef e.b 24 1 4 3 = mode then callStart s e mergeBody else s

/-- MERGE in mode 0h (R184). -/
def execMergeLax (f : Fin 262144) (i : Fin 65536) (s : State) : Ans := keepQueue s <| mergeRow f i 0 s
/-- MERGE in mode 1h (R184). -/
def execMergeFinalise (f : Fin 262144) (i : Fin 65536) (s : State) : Ans := keepQueue s <| mergeRow f i 1 s
/-- MERGE in mode 2h (R184). -/
def execMergeRound (f : Fin 262144) (i : Fin 65536) (s : State) : Ans := keepQueue s <| mergeRow f i 2 s

/-! ### SAMPLE (R185) -/

/-- `sample_bits` of R185. -/
def sampleBits (seed : DWord) (ctx pos draw : Nat) : Nat :=
  let h := mix64 (seed ^^^ BitVec.ofNat 64 ctx)
  let h := mix64 (h ^^^ BitVec.ofNat 64 pos)
  (mix64 (h ^^^ (BitVec.ofNat 64 draw <<< 56) ^^^ 5#64)).toNat

/-- The weights of a SAMPLE: FP32 codes, with flags. -/
def sampleWeights (b : List Byte) (l : List Byte) : List (Nat × NumFlags) :=
  let n := le b 20 3
  match lef b 24 1 4 3 with
  | 0 => (List.range n).map (fun i => (le l (4 * i) 4, 0))
  | 1 => (List.range n).map (fun i => convert .fp32 .rne (valOf .lp8 (le l i 1)))
  | _ => (List.range n).map (fun i =>
      let (sc, f1) := convertQ .fp32 .rne (qMul (qOf (fpVal (le l (4 * i) 4))) (fpVal (le b 28 4)))
      let (p, f2) := weight sc (le b 32 4)
      (p, f1 ||| f2))

/-- The first index whose exact partial sum satisfies part × 2^64 > m × total. -/
def sampleGo (m total : Int) : List Int → Int → Nat → Nat
  | [], _, i => i
  | w :: r, part, i => if (part + w) * 2 ^ 64 > m * total then i else sampleGo m total r (part + w) (i + 1)

/-- `sample` of R185: the index and the flags. -/
def sample (b : List Byte) (l : List Byte) : Nat × NumFlags :=
  let ws := sampleWeights b l
  let fl := ws.foldl (fun a w => a ||| w.2) 0
  let vals := ws.map (fun w => fpVal w.1)
  let bad := vals.any (fun v => vSpecial v || (negV v && !isZeroV v))
  let is := vals.map (fun v => (Acc.zero.addVal v).n.toInt)
  let total := is.foldl (fun a x => a + x) 0
  if bad || total == 0 then (0xFFFFFF, fl ||| fINV)
  else (sampleGo (sampleBits (BitVec.ofNat 64 (le b 48 8)) (le b 16 4) (le b 36 5) (le b 25 1)) total is 0 0, fl)

/-- SAMPLE's body. -/
def sampleBody (e : Entry) (s : State) : State :=
  let n := le e.b 20 3
  withData s e srcMimin (mimRead (ioOf e) (furOwner s e.f) (le e.b 56 8) (if lef e.b 24 1 4 3 = 1 then n else 4 * n)) fun l s =>
    let (ix, fl) := sample e.b l
    finishCall s e ⟨ix + fl.toNat * 2 ^ 24, fl, []⟩ id

/-- SAMPLE (R185). -/
def execSample (f : Fin 262144) (i : Fin 65536) (s : State) : Ans := keepQueue s <| mimRun f i 0x05 s fun e => callStart s e sampleBody

/-! ### GATHER (R186) -/

/-- The pages that a GATHER names. -/
def gatherList (owner : Nat) (e : Entry) : MM (List Nat) := do
  let b := e.b
  let n := lef b 28 4 16 0
  let la := le b 48 8
  if la = 0 then return (List.range n).map (fun i => le b 32 4 + i)
  else
    let l ← mimRead (ioOf e) owner la (4 * n)
    return (List.range n).map (fun i => le l (4 * i) 4)

/-- The frames at their stride; what a copy holds between the end of a frame and the next is a free value. -/
def gatherFrames (alloc : Nat) : Nat → List (List Byte) → State → List (Nat × List Byte) × State
  | _, [], s => ([], s)
  | a, fr :: r, s =>
    let (pad, s) := freshBytes s (alloc - fr.length)
    let (out, s) := gatherFrames alloc (a + alloc) r s
    ((a, fr ++ pad) :: out, s)

/-- GATHER's body. -/
def gatherBody (perr : Nat) (e : Entry) (s : State) : State :=
  match e.ctx with
  | none => endEntry s e.f e.i stField noResult
  | some x =>
    let k := 64 * le e.b 20 1 + lef e.b 21 1 5 0
    let g := sget ⟨64 * x.first, []⟩ x.lgs k
    let named (ps : List Nat) : List Page := if listOk x.first g.pageCount ps then ps.map (pageOf x g) else []
    withPages s e perr (gatherList x.t e) [] named fun ps s =>
      if !listOk x.first g.pageCount ps then endEntry s e.f e.i stField noResult
      else
        let dst := le e.b 56 8
        let (frames, s) := gatherFrames x.alloc dst (ps.map (fun p => (pageOf x g p).frame)) s
        let sums := if lef e.b 24 1 4 4 = 1 then
            [(dst + ps.length * x.alloc, ps.flatMap (fun p => (pageOf x g p).kmax ++ (pageOf x g p).kmin))] else []
        finishCall s e ⟨ps.length, 0, frames ++ sums⟩ (fun s => touch s x.t x.id k ps)

/-- GATHER (R186). -/
def execGather (f : Fin 262144) (i : Fin 65536) (perr : Fin 5) (s : State) : Ans := keepQueue s <|
  mimRun f i 0x06 s fun e => callStart s e (gatherBody perr)

/-! ### RUN (R187) -/

/-- Fresh words for the registers that the cell runtime leaves as it likes. -/
def freeRegs : List Nat → SMap Word → State → SMap Word × State
  | [], m, s => (m, s)
  | r :: rs, m, s => let (v, s) := freshV s; freeRegs rs (sput 0 m r (BitVec.ofNat 32 v)) s

/-- The cell runtime loads the kernel into one cell, the firmware maps the turnout's space into the translated window, and the
cell enters the kernel in user mode (R187, R226). Which segment maps it, and what the other registers hold, is left open. -/
def enterKernel (s : State) (c ix n argAddr : Nat) (img : List Byte) : State :=
  let s := storeBytes s (imemPA c + 0x2000) img false
  let (seg, s) := freshBelow s 8
  let r := regionOf c
  let key := (f_RGN_WIN_EN r (c % 16) seg).key
  let s := setReg s key (BitVec.ofNat 64 (2 ^ 63 + argAddr / 2 ^ 28 % 2 ^ 20 * 2 ^ 28))
  let (g, s) := freeRegs ((List.range 28).map (fun i => i + 4)) [] s
  let (ie, s) := freshBelow s 2
  let g := sput 0 (sput 0 (sput 0 g 1 (BitVec.ofNat 32 (0x8000_0000 + seg * 0x1000_0000 + argAddr % 2 ^ 28))) 2 (BitVec.ofNat 32 ix)) 3
    (BitVec.ofNat 32 n)
  modCell s c (fun x => { x with k := { x.k with g := g, pc := 0x2000, status := BitVec.ofNat 5 (2 * ie), run := .running } })

/-- The cells of a 32-byte mask. -/
def maskCells (m : List Byte) : List Nat := (List.range 256).filter (fun c => bit (le m (c / 8) 1) (c % 8))

/-- Does the cell runtime of a cell answer: the core runs its supervisor code. -/
def runtimeUp (s : State) (c : Nat) : Bool := !cellInReset s c && (cellOf s c).k.run == .running && !userMode (cellOf s c).k

/-- A RUN in execution, by its entry. -/
def runOf (s : State) (f i : Nat) : Option RunRec := s.mim.runs.find? (fun r => r.f == f && r.i == i)

/-- Updates a RUN in execution. -/
def modRun (s : State) (f i : Nat) (g : RunRec → RunRec) : State :=
  { s with mim := { s.mim with runs := s.mim.runs.map (fun q => if q.f == f && q.i == i then g q else q) } }

/-- Takes the named cells that have become free, and enters the kernel on each (R187). -/
def takeCells (s : State) (f i argAddr : Nat) (r : RunRec) (img : List Byte) : State :=
  let free := r.wait.filter (fun ix => let c := r.cells.getD ix 0; runtimeUp s c && !inRun s c)
  let s := modRun s f i (fun q => { q with wait := q.wait.filter (fun ix => !free.contains ix) })
  free.foldl (fun s ix => enterKernel s (r.cells.getD ix 0) ix r.cells.length argAddr img) s

/-- Runs a share again that a reset has cut off, on a remaining attention cell (R192); with none left the call ends with
DEVICE_FAULT. -/
def rerunShare (s : State) (t f i argAddr : Nat) (r : RunRec) (img : List Byte) : State :=
  match r.lost with
  | [] => s
  | ix :: rest =>
    match (attnOf s t).find? (fun c => !r.cells.contains c && !inRun s c && runtimeUp s c) with
    | some c => enterKernel (modRun s f i (fun q => { q with cells := q.cells.set ix c, lost := rest })) c ix r.cells.length argAddr img
    | none => if (attnOf s t).all (fun c => r.cells.contains c) then endRun s r stFault noResult else s

/-- RUN (R187): its entry takes the named cells as they free, and each enters the kernel. The firmware's mapping of a cell waits while an
activation is in progress, and a stopped component ends the call with DEVICE_FAULT (R2, R417; DESIGN CHOICE, log entry 93). Past TLIMIT
the call takes nothing more. -/
def execRun (f : Fin 262144) (i : Fin 65536) (s : State) : Ans := keepQueue s <|
  match entryOf s f i with
  | none => .next s
  | some e =>
    let t := furOwner s f
    if furClass s f ≠ clMimin ∨ e.op ≠ 0x07 ∨ fwServes s = false then .next s
    else match runOf s f i with
    | some r =>
      if r.due ≠ 0 ∧ overdue s (r.due - 1) = true then .next s
      else if r.wait.isEmpty && r.lost.isEmpty then .next s
      else if compStopped s 1 then .next (endRun s r stFault noResult)
      else .next (withData s e srcMimin (mimRead (ioOf e) t (le e.b 48 8) (le e.b 56 4)) fun img s =>
        let s := takeCells s f i (le e.b 40 8) r img
        rerunShare s t f i (le e.b 40 8) ((runOf s f i).getD r) img)
    | none =>
      if e.ph ≠ .fetched then .next s
      else .next (withData s e srcMimin (eachMM [mimRead (ioOf e) t (le e.b 32 8) 32, mimRead (ioOf e) t (le e.b 48 8) (le e.b 56 4)]) fun l s =>
        let cs := maskCells (l.headD [])
        if !cs.all (fun c => (attnOf s t).contains c) then endEntry s f i stDenied noResult
        else if cs.isEmpty then endEntry s f i stOk 0
        else if compStopped s 1 then endEntry s f i stFault noResult
        else
          let lim := le e.b 16 4
          let r : RunRec := ⟨f, i, cs, [], 0, if lim = 0 then 0 else s.clk + 1000 * lim + 1, [], List.range cs.length⟩
          let s := modEntry s f i (fun e => { e with ph := .running, snap := [0] })
          takeCells { s with mim := { s.mim with runs := s.mim.runs ++ [r] } } f i (le e.b 40 8) r (l.getD 1 []))

/-- TLIMIT has expired before every cell exited (R187); in the instant of expiry a last exit still completes the call (R12). -/
def execRunTimeout (f : Fin 262144) (i : Fin 65536) (s : State) : Ans := keepQueue s <|
  match runOf s f i with
  | some r => if r.due = 0 ∨ overdue s (r.due - 1) = false then .next s else .next (endRun s r stTimeout noResult)
  | none => .next s

/-! ### Administrative calls (R157, R168, R188) -/

/-- Contexts of a turnout. -/
def ctxCount (s : State) (t : Nat) : Nat := (s.mim.ctxs.filter (fun p => p.1 / 2 ^ 32 == t)).length

/-- CREATE (R157, R159, R188). -/
def execMiminCreate (f : Fin 262144) (i : Fin 65536) (s : State) : Ans := keepQueue s <|
  mimRun f i 0x08 s fun e =>
    let t := furOwner s f
    let b := e.b
    let id := le b 16 4
    if (ctxOf s t id).isSome then endEntry s f i stField noResult
    else if ctxCount s t ≥ (quotaOf s t).contexts || s.mim.ctxs.length ≥ 262144 then endEntry s f i stNoRes noResult
    else
      endEntry (setCtx s t id (some ⟨t, id, le b 20 1 + 1, lef b 21 1 5 0 + 1, lef b 22 1 4 0 + 1, le b 26 2,
        (pageFmt (lef b 23 1 4 0)).getD .bf16, lef b 24 1 4 2, lef b 28 2 12 0, lef b 24 1 1 1 == 1, le b 32 4, le b 36 4, [], 0⟩)) f i stOk 0

/-- DESTROY (R188): the context has left the directory at the fetch; the call completes once every earlier call that names it
has completed and its pages have been freed. -/
def execMiminDestroy (f : Fin 262144) (i : Fin 65536) (s : State) : Ans := keepQueue s <|
  mimRun f i 0x09 s fun e =>
    if s.infl.any (fun x => furClass s x.f == clMimin && decide (x.seq < e.seq) && furOwner s x.f == furOwner s f && needsCtx x.op &&
        le x.b 16 4 == le e.b 16 4) then s
    else match e.ctx with
      | some x => endEntry (tombPages s x (fun _ _ => true)) f i stOk noResult
      | none => endEntry s f i stField noResult

/-- The pages of a PIN or UNPIN. -/
def pinList (b : List Byte) : List Nat := (List.range (le b 32 4)).map (fun i => le b 28 4 + i)

/-- Moves pages into a tier and pins them, all or none (R168). -/
def pinGo (t id k tier : Nat) : List Nat → State → Option State
  | [], s => some s
  | p :: r, s =>
    match ctxOf s t id with
    | none => none
    | some x =>
      let q := pageOf x (sget ⟨64 * x.first, []⟩ x.lgs k) p
      if q.tier ≠ tier ∧ tierRoom s x tier = false then none
      -- a page that leaves the store frees its record there (R352)
      else pinGo t id k tier r (tombPage (setPage s t id k p (some { q with tier := tier, pin := true })) x k p q)

/-- PIN (R168). On data that a later TRUNCATE or DESTROY has taken it acts on the pages that remain (R183, R188). -/
def execPin (f : Fin 262144) (i : Fin 65536) (s : State) : Ans := keepQueue s <|
  mimRun f i 0x0A s fun e =>
    let t := furOwner s f
    let k := 64 * le e.b 20 1 + lef e.b 21 1 5 0
    let live := liveCtx s e t (le e.b 16 4)
    match live with
    | none => endEntry s f i stOk noResult
    | some x =>
      if !mimRanges x e.b && !cutSince e live then endEntry s f i stField noResult
      else match pinGo t x.id k (lef e.b 22 1 0 0) ((pinList e.b).filter (fun p => (x.page? k p).isSome)) s with
        | some s => endEntry s f i stOk noResult
        | none => endEntry s f i stNoRes noResult

/-- UNPIN (R168). -/
def execUnpin (f : Fin 262144) (i : Fin 65536) (s : State) : Ans := keepQueue s <|
  mimRun f i 0x0B s fun e =>
    let t := furOwner s f
    let k := 64 * le e.b 20 1 + lef e.b 21 1 5 0
    let live := liveCtx s e t (le e.b 16 4)
    match live with
    | none => endEntry s f i stOk noResult
    | some x =>
      if !mimRanges x e.b && !cutSince e live then endEntry s f i stField noResult
      else
        let g := sget ⟨64 * x.first, []⟩ x.lgs k
        let ps := pinList e.b
        let pages := g.pages.map (fun p => if ps.contains p.1 then (p.1, p.2.map (fun q => { q with pin := false })) else p)
        endEntry (setCtx s t x.id (some (x.setLg k { g with pages := pages }))) f i stOk noResult

/-! ### Twin execution (R189) -/

/-- The call that both copies of a twin call make, with how the reads of pages failed. -/
def twinBody (perr : Nat) (e : Entry) (s : State) : State :=
  match e.op with
  | 0x01 => attendBody perr e s
  | 0x02 => appendBody e s
  | 0x03 => scanBody perr e s
  | 0x04 => mergeBody e s
  | 0x05 => sampleBody e s
  | 0x06 => gatherBody perr e s
  | _ => s

/-- The failed reads of the two copies as one: the first by R173. -/
def twinErr (a b : Nat) : Nat := if a = 0 ∨ a = 4 then (if b = 0 then a else b) else if b = 0 ∨ b = 4 then a else min a b

/-- Both copies have ended (R189). Each reads its pages independently; the status is the first by R173 of the two, and where both
succeed and a bit of their outputs or flags differs, the call writes nothing and ends with DEVICE_FAULT. -/
def execTwinCompare (f : Fin 262144) (i : Fin 65536) (end_ : TwinEnd) (s : State) : Ans := keepQueue s <|
  match entryOf s f i with
  | none => .next s
  | some e =>
    if furClass s f ≠ clMimin ∨ e.ph ≠ .running ∨ mTwin e.b = false then .next s
    else
      let t := twinBody (twinErr end_.err1 end_.err2) e s
      match (entryOf t f i).map Entry.ph with
      | some (.ended st _) =>
        if end_.same = false ∧ (st = stOk ∨ st = stNumeric) then
          .next (endEntry (event (incF s f_MIM_TWIN_MISMATCH_COUNT 1) 0x198 1 0x0D 0) f i stFault noResult)
        else .next t
      | _ => .next t

end Sys2Proof.Machine
end

