-- ==== Sys2Proof/Machine/Siphon.lean ====
section
/-! DEFINITION. Machine/Siphon.lean: store connections, shards, manifests and turnout migration (R365–R381), and the end of
a turnout's entries ahead of their results (R349, R363, R373, R379).
Choices beyond the words of the spec: log entries DESIGN CHOICE 28, 50, 51, 52; DEDUCED 27. -/

namespace Sys2Proof.Machine

/-! ### Entries (R372, R373) -/

/-- KEYSLOT. -/
def pKey (b : List Byte) : Nat := lef b 16 2 12 0
/-- TARGET. -/
def pTarget (b : List Byte) : Nat := lef b 18 1 3 0
/-- ARG. -/
def pArg (b : List Byte) : Nat := le b 20 4
/-- LBA. -/
def pLba (b : List Byte) : Nat := le b 24 8
/-- STEP. -/
def pStep (b : List Byte) : Nat := le b 32 8
/-- DESCADDR. -/
def pDesc (b : List Byte) : Nat := le b 40 8
/-- ENTADDR. -/
def pEnt (b : List Byte) : Nat := le b 48 8
/-- AUXADDR. -/
def pAux (b : List Byte) : Nat := le b 56 8

/-- A field that the opcode leaves reserved and that is not zero (R372, R10). -/
def sipReserved (b : List Byte) : Bool :=
  let op := le b 0 1
  let shard := op == 1 || op == 2
  let trn := op == 8 || op == 9
  headerBad b || !zeroAt b 19 1 ||
  (if shard then lef b 16 2 15 13 != 0 else !zeroAt b 16 2) ||
  (if op = 2 ∨ op = 9 then !zeroAt b 18 1 else if op = 8 then lef b 18 1 7 1 != 0 else lef b 18 1 7 4 != 0) ||
  ((op == 2 || op == 3) && !zeroAt b 20 4) || (trn && lef b 20 4 31 9 != 0) ||
  ((op == 2 || trn) && !zeroAt b 24 8) || (op != 1 && !zeroAt b 32 8) ||
  (trn && !zeroAt b 48 8) || (op != 2 && op != 4 && !zeroAt b 56 8)

/-- The status that the checks at fetch give; SUCCESS where all hold (R372, R358, R368). -/
def sipValidate (s : State) (owner : Nat) (b : List Byte) : Nat :=
  let op := le b 0 1
  if !([1, 2, 3, 4, 8, 9].contains op) then (if headerBad b then stField else stOpcode)
  else if sipReserved b then stField
  else if op ≥ 8 then (if owner = 0x201 then stOk else stDenied)
  else if op ≥ 3 then stOk
  else if pDesc b % 64 ≠ 0 then stField
  else
    let k := keySlotOf s (pKey b)
    if k.ty ≠ 1 ∧ k.ty ≠ 2 then stField
    else if owner ≠ 0x201 ∧ k.owner ≠ owner then stDenied
    else stOk

/-- Can a SIPHON entry be fetched (R373, SIP_CFG.EN). -/
def sipAdmits (s : State) (b : List Byte) : Bool :=
  let mine (e : Entry) : Bool := furClass s e.f == clSiphon
  rd s f_SIP_CFG_EN == 1 &&
  (if le b 0 1 ≥ 8 then !s.infl.any (fun e => mine e && decide (8 ≤ e.op))
   else decide ((s.infl.filter (fun e => mine e && decide (e.op < 8))).length < 1024))

/-- What the fetch of a SIPHON entry does: its key is bound. The entry keeps [stage, key length, started] in `snap`, and the key
and what it has staged in `data`. -/
def sipFetched (s : State) (e : Entry) : State :=
  let st := sipValidate s (furOwner s e.f) e.b
  if st ≠ stOk then endEntry s e.f e.i st noResult
  else
    let key := if e.op < 3 then (keySlotOf s (pKey e.b)).key else []
    modEntry s e.f e.i (fun x => { x with
      snap := [0, key.length, 0]
      data := key })

/-- Stage of an entry. -/
def Entry.stage (e : Entry) : Nat := e.snap.headD 0
/-- Key of an entry. -/
def Entry.sipKey (e : Entry) : List Byte := e.data.take (e.snap.getD 1 0)
/-- What an entry has staged. -/
def Entry.staged (e : Entry) : List Byte := e.data.drop (e.snap.getD 1 0)

/-- Moves an entry to a stage with bytes behind its key. -/
def sipStage (s : State) (f i stage : Nat) (ph : EPhase) (l : List Byte) : State :=
  modEntry s f i (fun e => { e with
    snap := [stage, e.snap.getD 1 0, 1]
    data := e.sipKey ++ l
    ph := ph })

/-- SOURCE code of siphon data (R228). -/
def srcSiphon : Nat := 7

/-- Runs a row's meaning on a fetched SIPHON entry: entries of one furrow start in fetch order (R373). -/
def sipRun (f i op : Nat) (s : State) (k : State → Entry → State) : State :=
  runEntry s f i clSiphon op (fun e =>
    if s.infl.any (fun x => x.f == e.f && decide (x.seq < e.seq) && decide (x.ph = .fetched) && x.snap.getD 2 0 == 0) then s
    else
      let g (e : Entry) : Entry := { e with snap := e.snap.set 2 1 }
      k (modEntry s e.f e.i g) (g e))

/-- Runs the accesses of a SIPHON entry (R373): poisoned data records an event under source 197h. -/
def sipData {α : Type} (s : State) (e : Entry) (x : MM α) (k : α → State → State) : State :=
  match (runMM s x).1 with
  | .error .poison => poisonEvent (withData s e srcSiphon x k) 0x197
  | _ => withData s e srcSiphon x k

/-! ### Connections (R365–R367) -/

/-- SIP_CFG.EN = 1 (R365). -/
def execSiphonEnable (s : State) : Ans := keepQueue s <|
  if !barOpen s then .next s else .next ((List.range 16).foldl tryConnect (wr s f_SIP_CFG_EN 1))

/-- A target's connect ends with some of its I/O queues open; `lbaOk` says that the namespace's LBA format is 4 KiB (R365). -/
def execStoreConnectionOpen (k : Fin 16) (queues : Fin 9) (lbaOk : Bool) (s : State) : Ans := keepQueue s <|
  if rd s f_SIP_CFG_EN = 0 then .next s
  else match targetEntry s k with
    | none => .next s
    | some l =>
      if targetBad s l || !lbaOk then .next (wr s (f_SIP_TGTSTAT_ERR k) 1)
      else
        let n := lef l 1 1 3 0
        let s := if (pinsOf s k).all (fun p => (sipPorts s).contains p) && !(pinsOf s k).isEmpty then s else pinQueues s k n
        if (pinsOf s k).isEmpty then .next s else
        let q := min queues.val n
        let s := wr (wr s (f_SIP_TGTSTAT_QUEUES k) q) (f_SIP_TGTSTAT_CONN k) (b2n (q == n))
        .next (if q = n then setConn s k (some ⟨be l 4 16, le l 2 2, n, s.clk⟩) else s)

/-- TCP reset, keepalive failure or link DOWN (R367). -/
def execStoreConnectionLoss (k : Fin 16) (s : State) : Ans := keepQueue s <|
  .next (if (connOf s k).isNone then s else connLost s k)

/-- Has a command passed its deadline (R367); the instant itself still counts (R12). -/
def cmdLate (s : State) (c : StoreCmd) : Bool := overdue s (c.at_ + 1000000 * rd s f_SIP_CFG_TMO)

/-- A command's deadline has passed (R367): its entry ends with TIMEOUT, the others of the connection with DEVICE_FAULT. -/
def cmdExpire (s : State) (c : StoreCmd) : State :=
  let s := match entryOf s c.f c.i with
    | some e => if e.ended then s else endEntry s c.f c.i stTimeout noResult
    | none => s
  connLost (incF s f_SIP_CNT_TMO_V 1) c.target

/-- A command reaches TMO (R367). -/
def execStoreCommandTimeout (k : Fin 16) (id : BitVec 16) (s : State) : Ans := keepQueue s <|
  match s.sip.cmds.find? (fun c => c.target == k.val && c.id == id.toNat) with
  | none => .next s
  | some c => .next (if cmdLate s c then cmdExpire s c else s)

/-- Every KATO / 2 = 5 s, on each connection (R366). -/
def execKeepAlive (s : State) : Ans := keepQueue s <|
  .next ((List.range 16).foldl (fun s k => match connOf s k with
    | some c => if c.kaAt + 5000000000 ≤ s.clk then toStore (setConn s k (some { c with kaAt := s.clk })) k 3 c.ip (pinsOf s k) [] else s
    | none => s) s)

/-- Issues the one command of a transfer (R366, R367); without a connection the entry ends with DEVICE_FAULT. -/
def storeCmd (s : State) (e : Entry) (k : Nat) (write : Bool) (lba blocks : Nat) (data : List Byte) : State :=
  match connOf s k, findBelow (fun n => s.sip.cmds.all (fun c => !(c.target == k && c.id == n))) 65536 with
  | some q, some n =>
    let s := { s with sip := { s.sip with cmds := s.sip.cmds ++ [⟨k, n, e.f, e.i, write, lba, blocks, data, s.clk⟩] } }
    -- the queue that carries it, by its identifier (log entry 50)
    toStore s k (if write then 1 else 2) q.ip (((pinsOf s k).drop (n % max 1 q.queues)).take 1)
      (natLE 2 n ++ natLE 8 lba ++ natLE 4 blocks ++ data)
  | _, _ => endEntry s e.f e.i stFault noResult

/-! ### Slices (R24, R28, R29, R368, R369) -/

/-- A slice of a tensor: its format and, by dimension, SHAPE, OFFSET and EXTENT. -/
structure Slice where
  /-- Format. -/
  fmt : Fmt
  /-- SHAPE. -/
  shape : List Nat
  /-- OFFSET. -/
  off : List Nat
  /-- EXTENT. -/
  ext : List Nat
  /-- Address of the slice modulo 64; 0 in a stored shard. -/
  base : Nat
deriving DecidableEq, Repr

/-- Four u64 of a descriptor or of a manifest entry. -/
def quads (b : List Byte) (o : Nat) : List Nat := (List.range 4).map (fun k => le b (o + 8 * k) 8)

/-- The slice that SHAPE, OFFSET and EXTENT from byte `o` on give, at an address. -/
def sliceAt (f : Fmt) (b : List Byte) (o a : Nat) : Slice := ⟨f, quads b o, quads b (o + 32), quads b (o + 64), a % 64⟩

/-- Product of a list. -/
def prod (l : List Nat) : Nat := l.foldl (· * ·) 1

/-- Elements of a slice. -/
def Slice.vol (x : Slice) : Nat := prod x.ext

/-- Bytes of the element stream of a slice. -/
def Slice.stream (x : Slice) : Nat := (fmtBits x.fmt * x.vol + 7) / 8

/-- Offset of the scales of an MX slice: the next 64-byte boundary after its element stream (R368). -/
def Slice.scales (x : Slice) : Nat := alignUp (x.base + x.stream) 64 - x.base

/-- Bytes of a slice: an MX slice has its scales behind its elements (R368). -/
def Slice.bytes (x : Slice) : Nat := if isMX x.fmt then x.scales + x.vol / 32 else x.stream

/-- Breaks R368's rules on dimensions. -/
def dimsBad (rank : Nat) (x : Slice) (mx : Bool) : Bool :=
  (List.range 4).any (fun k =>
    let sh := x.shape.getD k 0
    let o := x.off.getD k 0
    let n := x.ext.getD k 0
    sh == 0 || decide (2 ^ 48 ≤ sh) || n == 0 || decide (sh < o + n) || (decide (rank ≤ k) && (sh != 1 || o != 0 || n != 1))) ||
  (mx && (x.shape.headD 0 % 32 != 0 || x.off.headD 0 % 32 != 0 || x.ext.headD 0 % 32 != 0))

/-- Local indices of element `l` of a slice, dimension 0 innermost. -/
def Slice.index (x : Slice) (l : Nat) : List Nat :=
  [l % x.ext.getD 0 1, l / x.ext.getD 0 1 % x.ext.getD 1 1, l / (x.ext.getD 0 1 * x.ext.getD 1 1) % x.ext.getD 2 1,
    l / (x.ext.getD 0 1 * x.ext.getD 1 1 * x.ext.getD 2 1)]

/-- Position of the element with given global coordinates in a slice. -/
def Slice.pos (x : Slice) (g : List Nat) : Nat :=
  let d (k : Nat) : Nat := g.getD k 0 - x.off.getD k 0
  d 0 + x.ext.getD 0 1 * (d 1 + x.ext.getD 1 1 * (d 2 + x.ext.getD 2 1 * d 3))

/-- Global coordinates of element `l`. -/
def Slice.coords (x : Slice) (l : Nat) : List Nat := List.zipWith (· + ·) (x.index l) x.off

/-- The code of element `l` in the bytes of a slice. -/
def Slice.code (x : Slice) (d : List Byte) (l : Nat) : Nat := elemAt (fmtBits x.fmt) d l

/-- The scale byte of element `l`. -/
def Slice.scale (x : Slice) (d : List Byte) (l : Nat) : Nat := le d (x.scales + l / 32) 1

/-- The exact value of element `l`. -/
def Slice.val (x : Slice) (d : List Byte) (l : Nat) : Val :=
  if isMX x.fmt then mxVal x.fmt (x.scale d l) (x.code d l) else valOf x.fmt (x.code d l)

/-- The bytes of a slice from its element codes and scales. Bits that no element or scale covers are free. -/
def sliceBytes (s : State) (x : Slice) (codes scales : List Nat) : List Byte × State :=
  let tail := (8 - fmtBits x.fmt * x.vol % 8) % 8
  let (v, s) := freshBelow s (2 ^ tail)
  let st := natLE x.stream (leNat (packElems (fmtBits x.fmt) codes) + v * 2 ^ (fmtBits x.fmt * x.vol))
  if isMX x.fmt then
    let (g, s) := freshBytes s (x.scales - x.stream)
    (st ++ g ++ scales.flatMap (natLE 1), s)
  else (st, s)

/-- Values into a format, 32 to a block where it is an MX format: codes, scales, flags (R28, R29). -/
def convertAll (f : Fmt) (vs : List (Val × Mode)) : List Nat × List Nat × NumFlags :=
  if isMX f then
    let bs := (chunks 32 (vs.length / 32 + 1) vs).map (fun b => mxEncode f (b.map (fun p => (qOf p.1, p.2))))
    (bs.flatMap (fun b => b.2.1), bs.map (fun b => b.1), bs.foldl (fun a b => a ||| b.2.2) 0)
  else
    let r := vs.map (fun p => convert f p.2 p.1)
    (r.map Prod.fst, [], r.foldl (fun a p => a ||| p.2) 0)

/-- The mode of one element (R369): under SR the seed, the stream NAME[31:0] and the coordinates. -/
def elemMode (code seed name : Nat) (g : List Nat) : Mode :=
  let w (n : Nat) : Word := BitVec.ofNat 32 n
  modeOf code (srBits (BitVec.ofNat 64 seed) (w name) (w (g.getD 0 0)) (w (g.getD 1 0)) (w (g.getD 2 0)) (w (g.getD 3 0)))

/-! ### Shards (R368–R371, R374) -/

/-- A format field [4:0] of a byte whose upper bits are reserved. -/
def fmtField (b : List Byte) (o : Nat) : Option Fmt := if lef b o 1 7 5 = 0 then fmtOfCode (le b o 1) else none

/-- Is a CLASS byte well formed: [0] lossy, [3:1] rounding of a lossy shard. -/
def classBad (v : Nat) : Bool := decide (16 ≤ v) || (bit v 0 && decide (5 < v / 2)) || (!bit v 0 && v != 0)

/-- The local slice and the stored format that a SAVE's descriptor gives; none where it breaks R368 or R369. -/
def saveDesc (b : List Byte) : Option (Slice × Fmt) :=
  match fmtField b 9, fmtField b 10 with
  | some f, some g =>
    let x := sliceAt f b 16 (le b 112 8)
    let rank := le b 8 1
    let cls := le b 11 1
    if rank = 0 ∨ 4 < rank ∨ classBad cls ∨ !zeroAt b 12 4 ∨ dimsBad rank x (isMX f || isMX g) ∨
        (cls = 0 ∧ f ≠ g) ∨ (cls ≠ 11 ∧ !zeroAt b 120 8) ∨ 2 ^ 30 < Slice.bytes { x with fmt := g, base := 0 } then none
    else some (x, g)
  | _, _ => none

/-- The local slice of a LOAD's descriptor; none where it breaks R368. -/
def loadDesc (b : List Byte) : Option Slice :=
  match fmtField b 9 with
  | some f =>
    let x := sliceAt f b 16 (le b 112 8)
    if le b 8 1 = 0 ∨ 4 < le b 8 1 ∨ !zeroAt b 10 6 ∨ dimsBad (le b 8 1) x (isMX f) ∨ !zeroAt b 120 8 then none else some x
  | none => none

/-- Bytes padded with zeros to 4 KiB blocks. -/
def toBlocks (l : List Byte) : List Byte := l ++ List.replicate (alignUp l.length 4096 - l.length) 0

/-- Chunks of a shard of `n` plaintext bytes. -/
def nchunk (n : Nat) : Nat := (n + 65535) / 65536

/-- Blocks of a shard of `n` plaintext bytes (R374). -/
def shardBlocks (n : Nat) : Nat := 2 + (n + 4095) / 4096 + (16 * nchunk n + 4095) / 4096 - 1

/-- The shard header (R370). -/
def shardHeader (step shard name rank ofmt stfmt cls pbytes : Nat) : List Byte :=
  [0x53, 0x4B, 0x53, 0x48] ++ natLE 2 1 ++ natLE 2 0 ++ natLE 8 step ++ natLE 4 shard ++ natLE 4 (nchunk pbytes) ++ natLE 8 name ++
    natLE 1 rank ++ natLE 1 ofmt ++ natLE 1 stfmt ++ natLE 1 cls ++ natLE 4 0 ++ natLE 8 pbytes ++ List.replicate 16 0

/-- The IV of chunk `k` (R371). -/
def chunkIv (k shard step : Nat) : List Byte := natLE 4 k ++ natLE 4 shard ++ natLE 4 (step % 2 ^ 32)

/-- The stored object of a plaintext (R370, R371). -/
def shardObject (key hdr : List Byte) (shard step : Nat) (pt : List Byte) : List Byte :=
  let cs := (chunks 65536 (pt.length / 65536 + 1) pt).zipIdx.map (fun p =>
    let iv := chunkIv p.2 shard step
    let c := gcmCrypt key iv p.1
    (c, gcmTag key iv hdr c))
  toBlocks hdr ++ toBlocks (cs.flatMap Prod.fst) ++ toBlocks (cs.flatMap Prod.snd)

/-- The manifest entry of a saved shard (R376). -/
def manifestEntry (e : List Byte) (d : List Byte) (pbytes : Nat) (digest : List Byte) : List Byte :=
  d.take 12 ++ natLE 1 (pTarget e) ++ [0, 0, 0] ++ natLE 8 (pLba e) ++ natLE 8 pbytes ++ (d.drop 16).take 96 ++ digest ++
    natLE 4 (pArg e) ++ List.replicate 28 0

/-- SAVE (R374). Stage 1: its blocks are at the store, and the manifest entry is to be written. -/
def execSave (f : Fin 262144) (i : Fin 65536) (s : State) : Ans := keepQueue s <|
  .next (sipRun f i 1 s fun s e =>
    let o := furOwner s f
    if e.stage = 1 then
      sipData s e (writeSp (ioOf e) o (pEnt e.b) (e.staged.take 192)) fun _ s =>
        endEntry (incF s f_SIP_CNT_SAVED_V 1) f i stOk (le e.staged 192 1)
    else
      sipData s e (do
        let d ← readSp (ioOf e) o (pDesc e.b) 128
        match saveDesc d with
        | none => return (d, none)
        | some (x, g) =>
          let l ← readSp (ioOf e) o (le d 112 8) x.bytes
          return (d, some (x, g, l))) fun r s =>
        match r with
        | (_, none) => endEntry s f i stField noResult
        | (d, some (x, g, l)) =>
          let cls := le d 11 1
          let y := { x with fmt := g, base := 0 }
          let ix := List.range x.vol
          let (codes, scales, fl) :=
            if cls = 0 then (ix.map (x.code l), if isMX x.fmt then (List.range (x.vol / 32)).map (fun k => x.scale l (32 * k)) else [], 0)
            else convertAll g (ix.map (fun k => (x.val l k, elemMode (cls / 2) (le d 120 8) (le d 0 8) (x.coords k))))
          let (pt, s) := sliceBytes s y codes scales
          let hdr := shardHeader (pStep e.b) (pArg e.b) (le d 0 8) (le d 8 1) (le d 9 1) (le d 10 1) cls pt.length
          let obj := shardObject e.sipKey hdr (pArg e.b) (pStep e.b) pt
          let s := sipStage s f i 0 .running (manifestEntry e.b d pt.length (sha256 pt) ++ natLE 1 fl.toNat)
          storeCmd s e (pTarget e.b) true (pLba e.b) (obj.length / 4096) obj)

/-! ### LOAD (R375) -/

/-- A manifest entry that names a shard: its slice and its stored format; none where a field is malformed. -/
def entrySlice (m : List Byte) : Option (Slice × Fmt) :=
  match fmtField m 9, fmtField m 10 with
  | some f, some g =>
    let x := sliceAt g m 32 0
    let rank := le m 8 1
    if rank = 0 ∨ 4 < rank ∨ classBad (le m 11 1) ∨ lef m 12 1 7 4 ≠ 0 ∨ !zeroAt m 13 3 ∨ !zeroAt m 164 28 ∨
        dimsBad rank x (isMX f || isMX g) ∨ (le m 11 1 = 0 ∧ f ≠ g) ∨ le m 24 8 ≠ x.bytes ∨ 2 ^ 30 < x.bytes then none
    else some (x, g)
  | _, _ => none

/-- Bounds of the intersection of two slices in one dimension: first global index and length. -/
def overlapDim (x y : Slice) (k : Nat) : Nat × Nat :=
  let lo := max (x.off.getD k 0) (y.off.getD k 0)
  let hi := min (x.off.getD k 0 + x.ext.getD k 0) (y.off.getD k 0 + y.ext.getD k 0)
  (lo, hi - lo)

/-- Do a descriptor and a manifest entry fit (R375). -/
def loadFits (d m : List Byte) (x y : Slice) : Bool :=
  d.take 9 == m.take 9 && x.shape == y.shape && (le m 11 1 != 0 || x.fmt == y.fmt) &&
  (List.range 4).all (fun k => (overlapDim x y k).2 != 0)

/-- The plaintext of a stored object whose header and tags hold; none otherwise (R375 step 1). -/
def openShard (key m obj : List Byte) : Option (List Byte) :=
  let n := le m 24 8
  let hdr := obj.take 64
  let step := le hdr 8 8
  let shard := le m 160 4
  let ct := (obj.drop 4096).take n
  let tags := (obj.drop (4096 + alignUp n 4096)).take (16 * nchunk n)
  let want := shardHeader step shard (le m 0 8) (le m 8 1) (le m 9 1) (le m 10 1) (le m 11 1) n
  let cs := (chunks 65536 (n / 65536 + 1) ct).zipIdx
  if hdr ≠ want ∨ !cs.all (fun p => gcmTag key (chunkIv p.2 shard step) hdr p.1 == (tags.drop (16 * p.2)).take 16) then none
  else
    let pt := cs.flatMap (fun p => gcmCrypt key (chunkIv p.2 shard step) p.1)
    if sha256 pt = (m.drop 128).take 32 then some pt else none

/-- Writes consecutive elements of a packed stream, leaving the bits around them as they are. -/
def writeElems (v : Via) (o a w l : Nat) (codes : List Nat) : MM Unit := do
  let lo := w * l / 8
  let hi := (w * (l + codes.length) + 7) / 8
  let n := w * codes.length
  let old ← if w % 8 = 0 then pure [] else readSp v o (a + lo) (hi - lo)
  let x := setBits (leNat old) (w * l % 8 + n - 1) (w * l % 8) (leNat (packElems w codes))
  writeSp v o (a + lo) (natLE (hi - lo) x)

/-- One row of the intersection along dimension 0: where it lies in the target, its codes, its scales with their blocks. -/
structure LoadRow where
  /-- First element in the target slice. -/
  at_ : Nat
  /-- Codes. -/
  codes : List Nat
  /-- Blocks whose scale is written. -/
  scales : List (Nat × Nat)
deriving DecidableEq, Repr

/-- Converts a row (R375 step 2): an exact shard's codes are kept; a block of an MX target of which the intersection holds a
part takes free values. -/
def loadRow (s : State) (x y : Slice) (exact : Bool) (pt : List Byte) (g : List Nat) (n : Nat) : LoadRow × NumFlags × State :=
  let a := x.pos g
  let b := y.pos g
  let ks := List.range n
  if exact then
    (⟨a, ks.map (fun k => y.code pt (b + k)), if isMX x.fmt then (List.range (n / 32)).map (fun k => (a / 32 + k, y.scale pt (b + 32 * k))) else []⟩,
      0, s)
  else if isMX x.fmt && (a % 32 != 0 || n % 32 != 0) then
    let (cs, s) := freshBytes s n
    let blocks := (List.range ((a + n + 31) / 32 - a / 32)).map (fun k => a / 32 + k)
    let (sc, s) := freshBytes s blocks.length
    let (fl, s) := freshV s
    (⟨a, cs.map (fun c => c.toNat % 2 ^ fmtBits x.fmt), blocks.zip (sc.map BitVec.toNat)⟩, BitVec.ofNat 5 (fl % 16), s)
  else
    let (cs, sc, fl) := convertAll x.fmt (ks.map (fun k => (y.val pt (b + k), .rne)))
    (⟨a, cs, sc.zipIdx.map (fun p => (a / 32 + p.2, p.1))⟩, fl, s)

/-- All rows of the intersection. -/
def loadRows (s : State) (x y : Slice) (exact : Bool) (pt : List Byte) : List LoadRow × NumFlags × State :=
  let d (k : Nat) : Nat × Nat := overlapDim x y k
  let rows := (List.range ((d 1).2 * (d 2).2 * (d 3).2)).map (fun r =>
    [(d 0).1, (d 1).1 + r % (d 1).2, (d 2).1 + r / (d 1).2 % (d 2).2, (d 3).1 + r / ((d 1).2 * (d 2).2)])
  rows.foldl (fun (acc : List LoadRow × NumFlags × State) g =>
    let (r, fl, s) := loadRow acc.2.2 x y exact pt g (d 0).2
    (acc.1 ++ [r], acc.2.1 ||| fl, s)) ([], 0, s)

/-- LOAD (R375). Stage 1: the stored shard has been read; descriptor, manifest entry and object are staged. -/
def execLoad (f : Fin 262144) (i : Fin 65536) (s : State) : Ans := keepQueue s <|
  .next (sipRun f i 2 s fun s e =>
    let o := furOwner s f
    if e.stage = 0 then
      sipData s e (do
        let d ← readSp (ioOf e) o (pDesc e.b) 128
        let m ← readSp (ioOf e) o (pEnt e.b) 192
        return (d, m)) fun (d, m) s =>
        match loadDesc d, entrySlice m with
        | some x, some (y, _) =>
          if loadFits d m x y then
            storeCmd (sipStage s f i 0 .running (d ++ m)) e (le m 12 1) false (le m 16 8) (shardBlocks (le m 24 8)) []
          else endEntry s f i stField noResult
        | _, _ => endEntry s f i stField noResult
    else
      let d := e.staged.take 128
      let m := (e.staged.drop 128).take 192
      let obj := e.staged.drop 320
      match loadDesc d, entrySlice m with
      | some x, some (y, _) =>
        match openShard e.sipKey m obj with
        | none => sipData s e (writeSp (ioOf e) o (pAux e.b) obj) fun _ s =>
          endEntry (incF s f_SIP_CNT_AUTHFAIL_V 1) f i stAuth noResult
        | some pt =>
          let (rows, fl, s) := loadRows s x y (le m 11 1 == 0) pt
          let a := le d 112 8
          sipData s e (do
            writeSp (ioOf e) o (pAux e.b) obj
            rows.forM (fun r => do
              writeElems (ioOf e) o a (fmtBits x.fmt) r.at_ r.codes
              r.scales.forM (fun p => writeSp (ioOf e) o (a + x.scales + p.1) (natLE 1 p.2)))) fun _ s =>
            endEntry (incF s f_SIP_CNT_LOADED_V 1) f i stOk fl.toNat
      | _, _ => endEntry s f i stField noResult)

/-! ### Manifests (R376–R378) -/

/-- Entry `k` of a manifest. -/
def manEntry (l : List Byte) (k : Nat) : List Byte := (l.drop (128 + 192 * k)).take 192

/-- Is a manifest header's TAG and VERSION right. -/
def manTag (l : List Byte) : Bool := l.take 4 == [0x53, 0x4B, 0x4D, 0x46] && le l 4 2 == 1

/-- NSHARDS. -/
def nshards (l : List Byte) : Nat := le l 24 4

/-- Bytes of a manifest. -/
def manLen (n : Nat) : Nat := 128 + 192 * n

/-- The checks of MAN_WRITE on the header. -/
def manHeaderOk (l : List Byte) : Bool :=
  manTag l && zeroAt l 6 2 && zeroAt l 44 84 && decide (1 ≤ nshards l) && decide (nshards l ≤ 2 ^ 24)

/-- Attributes that the entries of one NAME share: RANK, OFMT, STFMT, CLASS, SHAPE. -/
def manShape (m : List Byte) : List Byte × List Byte := ((m.drop 8).take 4, (m.drop 32).take 32)

/-- The checks of MAN_WRITE on the entries (R377). -/
def manEntriesOk (l : List Byte) : Bool :=
  let ms := (List.range (nshards l)).map (manEntry l)
  ms.all (fun m => lef m 8 1 7 3 == 0 && lef m 12 1 7 4 == 0 && zeroAt m 13 3 && zeroAt m 164 28) &&
  (ms.zip (ms.drop 1)).all (fun p => decide (le p.1 160 4 < le p.2 160 4)) &&
  ms.all (fun m =>
    let same := ms.filter (fun x => x.take 8 == m.take 8)
    same.all (fun x => manShape x == manShape m) &&
    same.foldl (fun a x => a + prod (quads x 96)) 0 == prod (quads m 32))

/-- GEN_FWIF. -/
def fwif (s : State) : Nat := rd s f_GEN_FWIF_MAJOR * 65536 + rd s f_GEN_FWIF_MINOR

/-- MAN_WRITE (R377). Stage 1: the manifest is at the store; the token in `staged` is to be written. -/
def execManWrite (f : Fin 262144) (i : Fin 65536) (s : State) : Ans := keepQueue s <|
  .next (sipRun f i 3 s fun s e =>
    let o := furOwner s f
    if e.stage = 1 then
      let tok := e.staged.take 32
      sipData s e (writeSp (ioOf e) o (pEnt e.b) tok) fun _ s => endEntry s f i stOk noResult
    else
      sipData s e (do
        let h ← readSp (ioOf e) o (pDesc e.b) 128
        if manHeaderOk h then readSp (ioOf e) o (pDesc e.b) (manLen (nshards h)) else return []) fun l s =>
        if l.isEmpty || !manEntriesOk l then endEntry s f i stField noResult
        else
          let l := putAt l 40 (natLE 4 (fwif s))
          let b := toBlocks l
          storeCmd (sipStage s f i 0 .running (sha256 l)) e (pTarget e.b) true (pLba e.b) (b.length / 4096) b)

/-- A MAN_WRITE that completes with SUCCESS latches its token and the furrow's owner (R377). -/
def sipCompleted (s : State) (e : Entry) (owner st : Nat) : State :=
  if e.op ≠ 3 ∨ st ≠ stOk then s
  else wr ((List.range 4).foldl (fun s k => wr s (f_SIP_TOKEN_V k) (le e.staged (8 * k) 8)) s) f_SIP_TOKEN_TRN_V owner

/-- MAN_READ (R378). Stage 1: the header's block has been read; stage 2: the whole manifest. -/
def execManRead (f : Fin 262144) (i : Fin 65536) (s : State) : Ans := keepQueue s <|
  .next (sipRun f i 4 s fun s e =>
    let o := furOwner s f
    let l := e.staged
    let n := manLen (nshards l)
    if e.stage = 0 then storeCmd (sipStage s f i 0 .running []) e (pTarget e.b) false (pLba e.b) 1 []
    else if e.stage = 1 then
      if !manTag l || decide (pArg e.b < n) then endEntry s f i stField noResult
      else storeCmd (sipStage s f i 1 .running l) e (pTarget e.b) false (pLba e.b) ((n + 4095) / 4096) []
    else
      sipData s e (do
        writeSp (ioOf e) o (pAux e.b) l
        let t ← readSp (ioOf e) o (pEnt e.b) 32
        if sha256 (l.take n) = t then do
          writeSp (ioOf e) o (pDesc e.b) l
          return true
        else return false) fun ok s =>
        if ok then endEntry s f i stOk (nshards l) else endEntry (incF s f_SIP_CNT_AUTHFAIL_V 1) f i stAuth noResult)

/-! ### Completions of a target (R367) -/

/-- A target completes a command: `st` 0 success, 1 unrecovered read error, 2 write fault; `data` are a Read's blocks. -/
def execStoreTargetCompletion (k : Fin 16) (id : BitVec 16) (st : Fin 3) (data : List Byte) (s : State) : Ans := keepQueue s <|
  match s.sip.cmds.find? (fun c => c.target == k.val && c.id == id.toNat) with
  | none => .next s
  | some c =>
    if cmdLate s c then .next (cmdExpire s c) else
    let s := { s with sip := { s.sip with cmds := s.sip.cmds.erase c } }
    match entryOf s c.f c.i with
    | none => .next s
    | some e =>
      if e.ended then .next s
      else if st.val ≠ 0 then .next (endEntry s c.f c.i stMedia noResult)
      else
        let l := padTo (4096 * c.blocks) data
        let f : Fin 262144 := Fin.ofNat _ c.f
        let i : Fin 65536 := Fin.ofNat _ c.i
        match e.op with
        | 1 => execSave f i (sipStage s c.f c.i 1 .fetched e.staged)
        | 2 => execLoad f i (sipStage s c.f c.i 1 .fetched (e.staged ++ l))
        | 3 => execManWrite f i (sipStage s c.f c.i 1 .fetched e.staged)
        | _ => execManRead f i (sipStage s c.f c.i (e.stage + 1) .fetched l)

/-! ### Entries that end early -/

/-- Where a Mimin call writes its results: address and bytes (R176, R181, R184, R186). -/
def mimOut (e : Entry) : Nat × Nat :=
  let b := e.b
  let x (g : Context → Nat) : Nat := (e.ctx.map g).getD 0
  let w (o : Nat) : Nat := fmtBits ((fmtOfCode (lef b o 1 4 0)).getD .fp32)
  (le b 56 8, match e.op with
    | 0x01 => x (fun c => c.heads * (lef b 26 1 5 0 + 1) * (if lef b 24 1 3 2 = 1 then 96 * (c.d + 1) else c.d * w 23 / 8))
    | 0x03 => x (fun c => alignUp (4 * lef b 28 4 16 0) 64 + 4 * c.heads)
    | 0x04 => match lef b 24 1 4 3 with
      | 0 => 96 * lef b 20 4 20 0
      | 1 => lef b 20 4 20 0 / (lef b 18 2 8 0 + 1) * lef b 18 2 8 0 * w 25 / 8
      | _ => lef b 20 4 20 0 * w 25 / 8
    | 0x06 => x (fun c => lef b 28 4 16 0 * (c.alloc + 2 * c.row * lef b 24 1 4 4))
    | _ => 0)

/-- The ranges of memory that an entry's data lies in, by its class: address and length (R190, R270). A length that stands in memory of its
own (a shard's slices) is not followed. -/
def dataRanges (cls : Nat) (e : Entry) : List (Nat × Nat) :=
  let b := e.b
  let x (g : Context → Nat) : Nat := (e.ctx.map g).getD 0
  let qf (c : Context) (rows : Nat) : Nat := rowLen ((fmtOfCode (lef b 22 1 4 0)).getD .fp32) (c.heads * rows * c.d)
  match cls with
  | 0 => match e.op with
    | 1 => [(le b 48 8, x (fun c => attendBuf c b)), mimOut e]
    | 2 => [(le b 48 8, x (fun c => (lef b 22 1 5 0 + 1) * 2 * lef b 28 4 16 0 * rowLen ((fmtOfCode (lef b 23 1 4 0)).getD .fp32) c.d))]
    | 3 => [(le b 48 8, x (fun c => qf c 1)), mimOut e]
    | 4 => [(le b 48 8, 8 * lef b 16 2 10 0), mimOut e]
    | 5 => [(le b 56 8, if lef b 24 1 4 3 = 1 then le b 20 3 else 4 * le b 20 3)]
    | 6 => (if le b 48 8 = 0 then [] else [(le b 48 8, 4 * lef b 28 4 16 0)]) ++ [mimOut e]
    | _ => []
  | 1 => if [1, 2].contains e.op then [(eAddr b, 4096 * eCount b)] else if [6, 7, 0x82, 0x84].contains e.op then [(eAddr b, eCount b)] else []
  | 2 | 3 | 7 => [(le b 48 8, le b 16 2)]
  | 4 => if e.op < 4 then [(lAddr b, if e.op = 3 then 8 else lLen b)] else []
  | 5 => match e.op with
    | 1 | 2 => [(cSrc b, cAad b + cLen b), (le b 48 8, cLen b), (le b 56 8, 16)]
    | 3 | 4 => [(cSrc b, cLen b), (le b 48 8, cLen b)]
    | _ => [(cSrc b, cLen b), (le b 56 8, 80)] ++ (if lef b 24 1 1 1 = 1 then [(le b 48 8, 48)] else [])
  | 6 => match e.op with
    | 1 => [(pDesc b, 256), (pEnt b, 192)]
    | 2 => [(pDesc b, 256), (pEnt b, 192), (pAux b, 1)]
    | 3 => [(pDesc b, 4096), (pEnt b, 32)]
    | 4 => [(pDesc b, pArg b), (pEnt b, 32), (pAux b, pArg b)]
    | _ => []
  | _ => []

/-- The downstream links behind a range of an owner's space, page by page (R190, R270). -/
def rangeLinks (s : State) (owner : Nat) (r : Nat × Nat) : List Nat :=
  (pagePieces (r.2 / 4096 + 2) r.1 r.2).filterMap (fun q => linkOf s owner q.1)

/-- The downstream links that an entry's rings and data lie behind, as the translations stand now (R190, R270). -/
def entryLinks (s : State) (e : Entry) : List Nat :=
  match furOf s e.f with
  | some x => [x.sq, x.cq].filterMap (linkOf s x.owner) ++ (dataRanges x.cls e).flatMap (rangeLinks s x.owner)
  | none => []

/-- Ends one unended entry ahead of its result, as its class says (R192, R349, R363, R373, R390). -/
def endEarly (s : State) (e : Entry) (st : Nat) : State :=
  let cls := furClass s e.f
  if cls = clMimin then
    match s.mim.runs.find? (fun r => r.f == e.f && r.i == e.i) with
    | some r => endRun s r st noResult
    | none =>
      -- after ABORTED and FROZEN the output is undefined (R174)
      endEntry (scatter s (ioOf e) (furOwner s e.f) (mimOut e).1 (mimOut e).2) e.f e.i st noResult
  else if cls = clCipher then cipAbort s e st
  else if cls = clLateral then
    match msgOf s e.f e.i with
    | some (e, m) => latEnd s e m st
    | none => endEntry s e.f e.i st 0
  else if cls = clTx then
    let s := { s with sch := { s.sch with queues := s.sch.queues.map (fun q => (q.1, q.2.filter (fun x => x.ent != some (e.f, e.i)))) } }
    endEntry s e.f e.i st noResult
  else endEntry s e.f e.i st noResult

/-- Ends every unended entry that satisfies a predicate (R379, R389, R390). -/
def endAll (s : State) (p : Entry → Bool) (st : Nat) : State :=
  let es := s.infl.filter (fun e => p e && !e.ended)
  let s := dropWaiters s (fun w => match w with
    | .entry f i => es.any (fun e => e.f == f && e.i == i)
    | _ => false)
  es.foldl (fun s e => match entryOf s e.f e.i with
    | some e => if e.ended then s else endEarly s e st
    | none => s) s

/-! ### Turnout migration (R379–R381) -/

/-- Cells of a turnout, ascending. -/
def cellsOf (s : State) (t : Nat) : List Nat := (List.range 256).filter (fun c => (cellOf s c).turnout.toNat == t)

/-- Furrows of an owner. -/
def fursOf (s : State) (o : Nat) : List (Nat × Furrow) := s.fur.filterMap (fun p => match p.2 with
  | some x => if x.owner = o then some (p.1, x) else none
  | none => none)

/-- Contexts of a turnout. -/
def ctxsOf (s : State) (t : Nat) : List Context := s.mim.ctxs.filterMap (fun p => match p.2 with
  | some x => if x.t = t then some x else none
  | none => none)

/-- Does an owner have a fetched entry. -/
def inFlight (s : State) (o : Nat) : Bool := s.infl.any (fun e => furOwner s e.f == o)

/-- The core's activity as a resume finds it: a SWAIT in progress issues again (R379, R435). -/
def resumeOf : Run → Run
  | .swait _ => .running
  | r => r

/-- Halts a cell at an instruction boundary; one that blocks or divides is not at one. -/
def saveCell (x : Cell) : Cell :=
  match x.k.run with
  | .access _ | .dividing _ _ | .reload _ _ | .saved => x
  | .debug => { x with k := { x.k with run := .saved } }
  | r =>
    let dbg := { x.dbg with resumeRun := resumeOf r }
    { x with
      k := { x.k with run := .saved }
      dbg := dbg }

/-- Has a cell halted with its queues drained; an engine that waits on a sluice stands at its wait. -/
def cellSaved (x : Cell) : Bool :=
  x.k.run == .saved && (x.t.q.isEmpty || x.t.wait.isSome) && (x.v.q.isEmpty || x.v.wait.isSome) && (x.dma.q.isEmpty || x.dma.wait.isSome)

/-- A saved cell goes on: back into a halt of the debug port, or with what it did before; a waiting PARK looks at its queues again. -/
def freeCell (s : State) (c : Nat) : State :=
  parkCheck (modCell s c (fun x => if x.k.run == .saved then
    { x with k := { x.k with run := if x.dbg.reason ≠ 0 then .debug else x.dbg.resumeRun } } else x)) c

/-- The pages of a translation table tree, root first: levels left, table address. -/
def tablePages (s : State) : Nat → Nat → List (Nat × List Byte)
  | 0, _ => []
  | n + 1, a =>
    let l := memBytes s a 4096
    (a, l) :: (if n = 0 then [] else
      (List.range 512).flatMap (fun k =>
        let e := le l (8 * k) 8
        if bit e 0 && !bit e 3 then tablePages s n (bits e 51 12 * 4096) else []))

/-- Image of a furrow. -/
def furImg (x : Furrow) : FurImg := ⟨x.cls, x.slot, x.log2, x.vec, x.sched, x.sq, x.cq, x.pi, x.head, x.cqt, x.cqh⟩

/-- Bytes of a range of SRAM as a store of offsets. -/
def sramSlice (s : State) (a n : Nat) : SMap Byte :=
  (s.m.sram.filter (fun p => decide (a ≤ p.1) && decide (p.1 < a + n))).map (fun p => (p.1 - a, p.2))

/-- Image of a cell. -/
def cellImg (s : State) (c : Nat) : CellImg := ⟨cellOf s c, sramSlice s (scratchPA c) 0x10_0000, sramSlice s (imemPA c) 0x8000⟩

/-- The content of turnout `t`'s image (R380). -/
def turnImage (s : State) (t units : Nat) : TurnImage :=
  ⟨t, fwif s, units, true, (fursOf s t).map (fun p => furImg p.2), s.lat.wins.filter (fun w => w.t == t), ctxsOf s t,
    (cellsOf s t).map (cellImg s), if rd s (f_TRN_ROOT_EN t) = 1 then tablePages s 4 (rd s (f_TRN_ROOT_ROOT t) * 4096) else []⟩

/-- Does a turnout hold a page in a tier. -/
def hasTier (s : State) (t tier : Nat) : Bool := (pagesOf s t).any (fun p => p.2.2.2.tier == tier)

/-- Moves the reservoir-resident pages of `t` to HBM; none where HBM has no room (R379, R380). -/
def moveAll (s : State) (t : Nat) : Option State :=
  (pagesOf s t).foldl (fun (o : Option State) p => o.bind (fun s =>
    let (x, k, n, q) := p
    if q.tier ≠ 0 then some s
    else if tierRoom s x 1 then movePage s x k n q 1 else none)) (some s)

/-- PHASE. -/
def sipPhase (s : State) : Nat := rd s f_SIP_TSTAT_PHASE

/-- The end of a TRN_SAVE: with RESUME the cells resume and the furrows return to ENABLED (R379 step 6). -/
def saveEnd (s : State) (o : TurnOp) (st res : Nat) (resume : Bool) : State :=
  let s := if resume then
      let s := (cellsOf s o.t).foldl freeCell s
      o.furs.foldl (fun s f => modFur s f (fun x => { x with enabled := true })) s
    else s
  let s := { s with sip := { s.sip with op := none } }
  endEntry (wr s f_SIP_TSTAT_PHASE 0) o.f o.i st res

/-- The SAVE phase begins: every cell of the turnout is to halt. -/
def saveHalt (s : State) (o : TurnOp) : State :=
  (cellsOf s o.t).foldl (fun s c => modCell s c saveCell) (wr s f_SIP_TSTAT_PHASE 3)

/-- TRN_SAVE (R379, R380): its next phase, as soon as that can begin. -/
def execTrnSave (f : Fin 262144) (i : Fin 65536) (s : State) : Ans := keepQueue s <|
  match entryOf s f i with
  | none => .next s
  | some e =>
    if furClass s f ≠ clSiphon ∨ e.op ≠ 8 ∨ e.ended then .next s
    else match s.sip.op with
    | none =>
      if e.ph ≠ .fetched then .next s
      else
        let t := pArg e.b
        if turnActive s t = false ∨ hasTier s t 2 then .next (endEntry s f i stField noResult)
        else
          let on := ((fursOf s t).filter (fun p => p.2.enabled)).map Prod.fst
          let s := freezeFurs s (fun _ x => x.owner == t)
          let s := wr (wr s f_SIP_TSTAT_PHASE 1) f_SIP_TSTAT_TURNOUT t
          let s := { s with sip := { s.sip with op := some ⟨f, i, t, s.clk, on⟩ } }
          .next (modEntry s f i (fun e => { e with ph := .running }))
    | some o =>
      if o.f ≠ f ∨ o.i ≠ i then .next s
      else match sipPhase s with
      | 1 => .next (wr s f_SIP_TSTAT_PHASE 2)
      | 2 => .next (if inFlight s o.t then s else saveHalt s o)
      | _ =>
        let s := (cellsOf s o.t).foldl (fun s c => modCell s c saveCell) s
        if !(cellsOf s o.t).all (fun c => cellSaved (cellOf s c)) then .next s
        else
          let (u, s) := freshBelow s (2 ^ 20)
          let units := u + 1
          let img := turnImage s o.t units
          match moveAll s o.t with
          | none => .next (saveEnd s o stNoSpace noResult true)
          | some s =>
            let (bytes, s) := freshBytes s (4096 * units)
            let bytes := putAt bytes 0 ([0x53, 0x4B, 0x54, 0x49] ++ natLE 2 1)
            match runMM s (writeSp (ioOf e) 0x201 (pDesc e.b) bytes) with
            | (.ok _, s) =>
              let s := { s with sip := { s.sip with images := s.sip.images ++ [(bytes, img)] } }
              .next (saveEnd s o stOk units (bit (le e.b 18 1) 0))
            | (.error err, s) => .next (saveEnd s o (merrStatus err) noResult true)

/-- The drain deadline, where it has passed (R379 step 3): what is still in flight ends with FROZEN. A completion in the instant itself
counts (R12). -/
def drainEnd (s : State) : State :=
  match s.sip.op with
  | none => s
  | some o =>
    if (sipPhase s ≠ 1 ∧ sipPhase s ≠ 2) ∨ overdue s (o.at_ + 50000000) = false then s
    else saveHalt (endAll s (fun e => furOwner s e.f == o.t) stFrozen) o

/-- The drain deadline (R379 step 3). -/
def execDrainDeadline (s : State) : Ans := keepQueue s <| .next (drainEnd s)

/-- The lowest unused furrow ID. -/
def freeFur (s : State) : Option Nat := findBelow (fun f => (furOf s f).isNone) 262144

/-- Re-creates a furrow (R381). -/
def putFurImg (t : Nat) (s : State) (x : FurImg) : State :=
  match freeFur s with
  | some f => setFur s f (some ⟨t, x.cls, x.sq, x.cq, x.log2, x.vec, x.slot, x.sched, false, false, x.pi, x.head, x.cqt, x.cqh, [], 0, [], []⟩)
  | none => s

/-- Re-registers a context (R381): a page pinned in the reservoir goes there when room allows; the others lie in HBM. -/
def putCtxImg (t : Nat) (s : State) (x : Context) : State :=
  let y := { x with
    t := t
    lgs := x.lgs.map (fun g => (g.1, { g.2 with pages := g.2.pages.map (fun p => (p.1, p.2.map (fun q => { q with tier := 1 }))) })) }
  let s := setCtx s t x.id (some y)
  x.lgs.foldl (fun s g => g.2.pages.foldl (fun s p => match p.2 with
    | some q => if q.pin && q.tier == 0 && tierRoom s y 0 then setPage s t x.id g.1 p.1 (some q) else s
    | none => s) s) s

/-- Installs a cell's image in a cell. -/
def putCellImg (t : Nat) (s : State) (c : Nat) (x : CellImg) : State :=
  let old := cellOf s c
  let y := saveCell x.cell
  let dbg := { old.dbg with resumeRun := y.dbg.resumeRun }
  let s := setCell s c { y with
    turnout := BitVec.ofNat 10 t
    inReset := false
    dbg := dbg }
  let put (base : Nat) (m : SMap Byte) (l : SMap Byte) : SMap Byte := l.foldl (fun m p => sput 0 m (base + p.1) p.2) m
  let sr := sclear (sclear s.m.sram (scratchPA c) 0x10_0000) (imemPA c) 0x8000
  { s with m := { s.m with
    sram := put (imemPA c) (put (scratchPA c) sr x.scratch) x.imem
    ecc := sclear s.m.ecc (scratchPA c / 8) 0x2_0000
    par := sclear s.m.par (imemPA c / 4) 0x2000 } }

/-- TRN_RESTORE (R381). `content` is what the image at DESCADDR holds; where this device wrote those bytes itself, it is what it
wrote. -/
def execTrnRestore (f : Fin 262144) (i : Fin 65536) (content : TurnImage) (s : State) : Ans := keepQueue s <|
  .next (sipRun f i 9 s fun s e =>
    let t := pArg e.b
    sipData s e (readSp (ioOf e) 0x201 (pDesc e.b) (4096 * content.units)) fun l s =>
      let x := ((s.sip.images.find? (fun p => p.1 == l)).map Prod.snd).getD content
      let q := quotaOf s t
      let cs := cellsOf s t
      if turnActive s t = false ∨ fwif s < x.fwif ∨ x.digest = false ∨ !(fursOf s t).isEmpty ∨ !(ctxsOf s t).isEmpty ∨ winCount s t ≠ 0 then
        endEntry s f i stField noResult
      else if q.furrows < x.furs.length ∨ q.contexts < x.ctxs.length ∨ q.windows < x.wins.length ∨ cs.length < x.cells.length then
        endEntry s f i stNoRes noResult
      else
        let s := wr (wr s f_SIP_TSTAT_PHASE 4) f_SIP_TSTAT_TURNOUT t
        let s := x.furs.foldl (putFurImg t) s
        let s := { s with lat := { s.lat with wins := s.lat.wins ++ x.wins.map (fun w => { w with t := t }) } }
        let s := x.ctxs.foldl (putCtxImg t) s
        let s := (cs.zip x.cells).foldl (fun s p => putCellImg t s p.1 p.2) s
        let s := (cs.drop x.cells.length).foldl (fun s c => modCell s c saveCell) s
        let s := { s with sip := { s.sip with halted := some t } }
        endEntry (wr s f_SIP_TSTAT_PHASE 5) f i stOk noResult)

/-- A write of SIP_TSTAT.GO = 1 (R381). -/
def execTurnoutGo (s : State) : Ans := keepQueue s <|
  if !barOpen s then .next s else
  if sipPhase s ≠ 5 then .next (writeIgnored s)
  else
    let s := match s.sip.halted with
      | some t => (cellsOf s t).foldl freeCell s
      | none => s
    let s := { s with sip := { s.sip with halted := none } }
    .next (wr s f_SIP_TSTAT_PHASE 0)

end Sys2Proof.Machine
end

