-- ==== Sys2Proof/Machine/Slots.lean ====
section
/-! DEFINITION. Machine/Slots.lean: the FLR of a PF0, surprise removal, containment, slots and the slot chain (R262–R271).
Choices beyond the words of the spec: log entries DESIGN CHOICE 97; PRESUMED 38. -/

namespace Sys2Proof.Machine

/-- Does a physical ring address lie behind upstream port `p`. -/
def behindUp (p a : Nat) : Bool :=
  match areaOf a with
  | .port q _ => q == p
  | _ => false

/-- An FLR of the PF0 of a port (R262). -/
def execPfFlr (p : Fin 2) (s : State) : Ans := keepQueue s <|
  let fn := pf0Of s p
  let s := fnReset (sriovReset (seen s 8) p) fn
  if fn = 512 then
    .next (endAll s (fun e => match furOf s e.f with
      | some x => x.owner == 0x201 && (behindUp p x.sq || behindUp p x.cq)
      | none => false) stAborted)
  else .next s

/-! ### Surprise removal and containment (R269–R271) -/

/-- Does a ring of a furrow lie in a window of downstream link `k` (R270). -/
def ringInLink (s : State) (k : Nat) (x : Furrow) : Bool :=
  linkOf s x.owner x.sq == some k || linkOf s x.owner x.cq == some k

/-- A downstream link leaves DL_Active: an orderly removal with the slot's power off; a surprise down otherwise, and whenever PRSNT fell while
the link was active (R269, R270). -/
def linkLeaves (s : State) (k : Nat) (fell : Bool) : State :=
  if !(dpOf s k).active then s
  else
    let s := modDp s k (fun d => { d with active := false, dllsc := true })
    if !fell && !(hpSlot s (k % 8)).power then s
    else
      let s := aerLog s (1032 + k) 5
      let fz := s.fur.filter (fun q => match q.2 with
        | some x => ringInLink s k x
        | none => false)
      let s := modDp s k (fun d => { d with dpcTrig := d.dpcTrig || bits d.dpcCtl 1 0 != 0, contained := true })
      let s := freezeFurs s (fun f _ => fz.any (fun q => q.1 == f))
      let s := endAll s (fun e => e.links.contains k || (entryLinks s e).contains k) stAborted
      npLost s (fun r => r.port == 2 + k)

/-- A downstream link drops (R269, R270). -/
def execSurpriseDown (k : Fin 16) (s : State) : Ans := keepQueue s <| .next (linkLeaves s k false)

/-- Containment ends (R271). -/
def execContainmentEnd (k : Fin 16) (s : State) : Ans := keepQueue s <|
  let d := dpOf s k
  if d.active && !d.dpcTrig then .next (modDp s k (fun d => { d with contained := false })) else .next s

/-- A downstream port's link becomes DL_Active (R263); a DPC trigger holds the link down until software clears it. -/
def execDpLinkUp (k : Fin 16) (s : State) : Ans := keepQueue s <|
  let d := dpOf s k
  let x := hpSlot s (k % 8)
  if d.active || d.dpcTrig || !linkExists s k || !x.pwrEn then .next s
  else
    let s := modDp s k (fun d => { d with active := true, dllsc := true })
    .next (if k.val < 8 then modSlot s k (fun x => { x with inBand := true }) else s)

/-! ### The slot chain (R264–R267) -/

/-- Presence Detect State (R263). -/
def presence (x : Slot) : Bool := x.prsnt || (x.inBand && !x.ibDis)

/-- SLC_LD rises: the board latches what the previous scan shifted (R264, R266). -/
def slotLatch (s : State) (n : Nat) : State :=
  modSlot s n (fun x =>
    let x := { x with pwrEn := x.shPwr }
    let x := if x.pwrEn then x else { x with perstN := false, goodAt := 0 }
    if x.cmdPend = 2 then { x with cmdPend := 0, sCmd := true } else x)

/-- Is an indicator lit: 1 on, 2 blink (a 1.5 Hz square wave), 3 off (R265). -/
def lit (clk ind : Nat) : Bool := ind == 1 || (ind == 2 && clk * 3 / 1_000_000_000 % 2 == 0)

/-- PWR_EN of a slot in this scan: Power Controller Control; under a CHIP or FULL reset the chain scans with PWR_EN 0 and PERST_N 0, but in
D3cold it scans on (R273, R460). -/
def slotOn (s : State) (x : Slot) : Bool := x.power && (!s.boot.inRst || s.pcie.cold)

/-- The output byte of a slot in this scan (R264, R265): PERST_N is 0 while PWR_EN is 0. -/
def slotOut (s : State) (n : Nat) : Byte :=
  let x := hpSlot s n
  let on := slotOn s x
  BitVec.ofNat 8 (128 * b2n on + 64 * b2n (x.perstN && on) + 32 * b2n (lit s.clk x.pind) + 16 * b2n (lit s.clk x.aind))

/-- The outputs of a slot are shifted (R264). -/
def slotShift (s : State) (n : Nat) : State :=
  modSlot s n (fun x => { x with shPwr := slotOn s x, cmdPend := if x.cmdPend = 1 then 2 else x.cmdPend })

/-- A debounced input: the value, the run of differing scans, and the value seen (R266). -/
def debounce (v : Bool) (n : Nat) (now : Bool) : Bool × Nat :=
  if now = v then (v, 0) else if n ≥ 2 then (now, 0) else (v, n + 1)

/-- A good scan's inputs of a slot: bits 7 PRSNT, 6 ATTN_BTN, 5 PWR_FAULT, 4 PWR_GOOD (R264–R266, R269). -/
def slotIn (s : State) (n v : Nat) : State :=
  let x := hpSlot s n
  let (pr, pn) := debounce x.prsnt x.prsntN (bit v 7)
  let (at_, an) := debounce x.attn x.attnN (bit v 6)
  let fell := x.prsnt && !pr
  let s := modSlot s n (fun x =>
    let x := { x with
      prsnt := pr, prsntN := pn, attn := at_, attnN := an, sPres := (x.sPres || (x.prsnt != pr)),
      sAttn := (x.sAttn || (at_ && !x.attn)),
      -- a new event may wake anew (R275)
      woke := setBits (setBits x.woke 2 2 (b2n (bit x.woke 2 && x.prsnt == pr))) 3 3 (b2n (bit x.woke 3 && !(at_ && !x.attn))) }
    let x := if bit v 5 then { x with sFault := true, power := false, woke := setBits x.woke 4 4 (b2n (bit x.woke 4 && x.sFault)) } else x
    let x := { x with good := bit v 4 }
    if !x.good then { x with perstN := false, goodAt := 0 }
    else if x.pwrEn && x.goodAt == 0 then { x with goodAt := s.clk + 1 } else x)
  if fell then linkLeaves (linkLeaves (modSlot s n (fun x => { x with inBand := false })) n true) (8 + n) true else s

/-- A bad frame (R267). -/
def slotBad (s : State) : State :=
  let s := incF s f_HEP_SLC_STAT_FRAME_ERR 1
  let s := { s with pcie := { s.pcie with slcBad := s.pcie.slcBad + 1, slcGood := 0 } }
  if s.pcie.slcBad ≥ 2 && rd s f_HEP_SLC_STAT_FAULT == 0 then
    (List.range 8).foldl (fun s n => if (dpUp s n).isSome then condEvent s (0x17A + n) 0x0A 0 else s) (wr s f_HEP_SLC_STAT_FAULT 1)
  else s

/-- A good frame (R267); the flag says that its inputs count. -/
def slotGood (s : State) : State × Bool :=
  let s := { s with pcie := { s.pcie with slcBad := 0 } }
  if rd s f_HEP_SLC_STAT_FAULT = 1 then
    if s.pcie.slcGood + 1 ≥ 16 then
      let s := { s with pcie := { s.pcie with slcGood := 0 } }
      ((List.range 8).foldl (fun s n => if (dpUp s n).isSome then clearPresent s (0x17A + n) else s) (wr s f_HEP_SLC_STAT_FAULT 0), false)
    else ({ s with pcie := { s.pcie with slcGood := s.pcie.slcGood + 1 } }, false)
  else (s, true)

/-- A scan of the slot chain (R264): `di` bit k is SLC_DI at clock k. -/
def execSlotChainScan (di : BitVec 66) (s : State) : Ans := keepQueue s <|
  let s := (List.range 8).foldl slotLatch s
  -- the frame bits of clocks 0 and 1, then the slots
  let s := emit s (.side 1 0 ([1, 0] ++ (List.range 8).map (slotOut s)))
  let s := (List.range 8).foldl slotShift s
  if !(di.getLsbD 0 && !di.getLsbD 1) then .next (slotBad s)
  else
    let (s, use) := slotGood s
    if !use then .next s
    else .next ((List.range 8).foldl (fun s n =>
      slotIn s n ((List.range 8).foldl (fun a j => 2 * a + b2n (di.getLsbD (2 + 8 * n + j))) 0)) s)

/-- A Slot Control write (R266): power 1 on; indicators 1 on, 2 blink, 3 off; Hot-Plug Interrupt Enable. -/
def execSlotControlWrite (n : Fin 8) (power : Bool) (pind aind : Fin 3) (hp : Bool) (s : State) : Ans := keepQueue s <|
  let x := hpSlot s n
  let chg := x.power != power || x.pind != pind.val + 1 || x.aind != aind.val + 1
  .next (modSlot s n (fun x => { x with
    power := power, pind := pind + 1, aind := aind + 1, hpIrq := hp, cmdPend := if chg then 1 else x.cmdPend }))

/-- 100 ms after PWR_GOOD with PWR_EN on, the slot's PERST_N goes to 1 (R265). -/
def execSlotPerstDeassert (n : Fin 8) (s : State) : Ans := keepQueue s <|
  let x := hpSlot s n
  if x.pwrEn && x.good && x.goodAt != 0 && decide (x.goodAt + 100_000_000 ≤ s.clk + 1) then
    .next (modSlot s n (fun x => { x with perstN := true }))
  else .next s

end Sys2Proof.Machine
end

