-- ==== Sys2Proof/Machine/Furrow.lean ====
section
/-! DEFINITION. Machine/Furrow.lean: the fetch of a submission entry and the completion of an entry, class by class (R235, R236,
R468).
Choices beyond the words of the spec: log entries DESIGN CHOICE 30, 31, 94. -/

namespace Sys2Proof.Machine

/-- The port code (0 a host, 1 + k downstream link k) of the doorbell that announced entry HEAD. -/
def rangFor (x : Furrow) : Nat := ((x.rang.find? (fun p => decide (0 < (BitVec.ofNat 32 p.1 - x.head).toNat) &&
  decide ((BitVec.ofNat 32 p.1 - x.head).toNat ≤ x.depth))).map Prod.snd).getD 0

/-- The downstream links that a fetched entry is bound to: the one whose doorbell announced it, for Mimin, and those that its rings and
data lie behind (R190, R270); what is translated later is looked up when a link leaves (`entryLinks`). -/
def bindLinks (s : State) (x : Furrow) (e : Entry) : List Nat :=
  (match rangFor x with
    | 0 => []
    | k + 1 => if x.cls = clMimin then [k] else []) ++ entryLinks s e

/-- Is a slot free, on the device and in the turnout's quota (R172). -/
def mimSlotFree (s : State) (owner : Nat) : Bool :=
  decide (mimSlots s none < 65536) && (decide (512 ≤ owner) || decide (mimSlots s (some owner) < (quotaOf s owner).mslots))

/-- Does the serving subsystem admit an entry (R235): Mimin by R170 and R172, storage by R343 and R350, packets by R306, the rest
by their chapters. -/
def admits (s : State) (f : Nat) (x : Furrow) (b : List Byte) : Bool :=
  match x.cls with
  | 0 => mimSlotFree s x.owner && (!mFence b || !s.infl.any (fun e => e.f == f)) &&
      !s.infl.any (fun e => furClass s e.f == clMimin && furOwner s e.f == x.owner && e.op == 0x0C && decide (e.ph = .fetched))
  | 1 => !s.boot.activating && decide (s.sto.locks.length < 4096)
  | 2 => txAdmits s x.sched b
  | 4 => latAdmits s f x.owner b
  | 5 => cipAdmits s b
  | 6 => sipAdmits s b
  | _ => true

/-- A Mimin entry left unfetched for want of a slot is counted once (MIM_SLOT_WAIT). -/
def slotWait (s : State) (f : Nat) (x : Furrow) : State :=
  let k := f * 2 ^ 32 + x.head.toNat
  if x.cls ≠ clMimin ∨ mimSlotFree s x.owner ∨ nin s.mim.waited k then s
  else incF { s with mim := { s.mim with waited := nadd s.mim.waited k } } f_MIM_SLOT_WAIT_COUNT 1

/-- Ends a just fetched entry that has done nothing: LATERAL and CIPHER report 0 bytes (R320, R358); the spec states no
result word in the other classes. -/
def endUndone (s : State) (f i st : Nat) : State :=
  let c := furClass s f
  endEntry s f i st (if c = clLateral || c = clCipher then 0 else noResult)

/-- Ends a just fetched entry whose fields fail. -/
def orEnd (s : State) (e : Entry) (st : Nat) (ok : State → State) : State :=
  if st = stOk then ok s else endUndone s e.f e.i st

/-- What the fetch of an entry does in its class: the checks at fetch and what they bind. -/
def fetched (s : State) (e : Entry) (x : Furrow) : State :=
  match x.cls with
  | 0 =>
    let s := mimCount s
    orEnd s e (mimValidate s x.owner e.b) (fun s =>
      let c := ctxOf s x.owner (le e.b 16 4)
      let s := if needsCtx e.op then modEntry s e.f e.i (fun e => { e with ctx := c }) else s
      if e.op = 9 then setCtx s x.owner (le e.b 16 4) none else s)
  | 1 =>
    orEnd (psWake s) e (stoValidate s x.owner e.b) (fun s =>
      if stoLocks e.op then takeLock s e.f e.i e.seq e.b
      else if e.op = 0x81 then modNs s (eNs e.b) (fun n => { n with gone := true })
      else s)
  | 2 => orEnd s e (txValidate s x.owner e.b) id
  | 3 | 7 => orEnd s e (postValidate e.b) id
  | 4 => latFetched s e
  | 5 => cipFetched s e
  | 6 => sipFetched s e
  | _ => s

/-- Can an entry of a furrow be fetched now: an entry that cannot be read is fetched too, and faults; one whose completion is awaited is
not there yet. -/
def fetchable (s : State) (f : Nat) (x : Furrow) : Bool :=
  ringReady x && !flrStops s x.owner && match (runMM s (readSp (ioFor (.ring f)) x.owner (x.sq + 64 * (x.head.toNat % x.depth)) 64)).1 with
    | .ok b => admits s f x b
    | .error (.wait _) => false
    | .error _ => true

/-- Is it a furrow's turn in the round robin of its class: no other one with a fetchable entry stands between the furrow served last
and this one (R172, R358). -/
def rrTurn (s : State) (cls last f : Nat) : Bool :=
  let far (g : Nat) : Nat := (g + 262144 - last - 1) % 262144
  s.fur.all (fun p => match p.2 with
    | some y => y.cls != cls || decide (far f ≤ far p.1) || !fetchable s p.1 y
    | none => true)

/-- Does the class of a furrow serve it now: Mimin and the cipher engine fetch in round robin (R172, R358). -/
def itsTurn (s : State) (f : Nat) (x : Furrow) : Bool :=
  if x.cls = clMimin then rrTurn s clMimin s.mim.last f else if x.cls = clCipher then rrTurn s clCipher s.cip.last f else true

/-- The index under which a fetched entry is held: its ring slot, or the next one that no entry in flight of the furrow uses, since
entries end in any order (R235; DESIGN CHOICE, log entry 94). -/
def entryIndex (s : State) (f : Nat) (x : Furrow) : Nat :=
  let n := x.head.toNat
  (((List.range x.depth).map (fun j => (n + j) % x.depth)).find? (fun i => (entryOf s f i).isNone)).getD (n % x.depth)

/-- The device fetches entry HEAD of a furrow (R235, R236, R468); Mimin and the cipher engine serve
furrows with fetchable entries in round robin (R172, R358). -/
def execFurrowFetch (f : Fin 262144) (s : State) : Ans := keepQueue s <|
  match furOf s f with
  | none => .next s
  | some x =>
    if !ringReady x || flrStops s x.owner then .next s
    else
      let n := x.head.toNat
      match runMM s (readSp (ioFor (.ring f)) x.owner (x.sq + 64 * (n % x.depth)) 64) with
      | (.error (.wait q), _) => .next (askPort s q)
      | (.error (.page t p w), s) => .next (ringMiss s f x t p w)
      | (.error _, s) => .next (ringFault (dropAsks s (fun w => decide (w = .ring f.val))) f)
      | (.ok b, s') =>
        if !admits s f x b then .next (slotWait s f x)
        else if !itsTurn s f x then .next s
        else
          let s := dropAsks s' (fun w => decide (w = .ring f.val))
          let e : Entry := ⟨f, entryIndex s f x, b, (x.head + 1).toNat, s.clk, s.seq, .fetched, [], [], none, none, []⟩
          let e := { e with links := bindLinks s x e }
          let s := modFur s f (fun x => { x with
            head := x.head + 1
            paging := 0
            rang := x.rang.filter (fun p => decide (1 < (BitVec.ofNat 32 p.1 - x.head).toNat)) })
          let s := { s with
            infl := s.infl ++ [e]
            seq := s.seq + 1
            mim := { s.mim with
              waited := ndel s.mim.waited (f.val * 2 ^ 32 + n)
              last := if x.cls = clMimin then f.val else s.mim.last }
            cip := { s.cip with last := if x.cls = clCipher then f.val else s.cip.last } }
          -- a class whose array failed self-test ends each entry with DEVICE_FAULT (R411)
          .next (if nin s.boot.badCls x.cls then endUndone s f e.i stFault else fetched s e x)

/-- Can the completion of an ended entry be posted: its outstanding commands to drives and store targets have ended or been
aborted (R349, R373), and the storage function is in PS0 (R348). -/
def canComplete (s : State) (e : Entry) : Bool :=
  !(s.sto.cmds.any (fun c => c.f == e.f && c.i == e.i && !c.aborted)) &&
    (furClass s e.f != clStorage || (rd s f_CQS_PS_CUR == 0 && rd s f_CQS_PS_BUSY == 0)) && !(s.sip.cmds.any (fun c => c.f == e.f && c.i == e.i))

/-- What the completion of an entry releases in its class. -/
def release (s : State) (cls : Nat) (e : Entry) (st : Nat) : State :=
  match cls with
  | 0 => mimCount s
  | 1 => psStart (lockSweep s)
  | 4 => latCompleted s e.f e.i
  | 5 => cipCounted s st
  | 6 => sipCompleted s e (furOwner s e.f) st
  | _ => s

/-- Does a furrow's completion ring lie behind a downstream link whose traffic is contained (R190). -/
def ringGone (s : State) (x : Furrow) : Bool :=
  match linkOf s x.owner x.cq with
  | some k => (dpOf s k).contained
  | none => false

/-- The result word that a completion carries: a free value where the spec states none, within the bits that the class of the
furrow defines (R320, R358). -/
def resultWord (s : State) (cls res : Nat) : Nat × State :=
  if res < noResult then (res, s)
  else
    let (v, s) := freshBelow s (2 ^ 32)
    (if cls = clLateral then v % 2 ^ 19 + 2 ^ 24 * (v / 2 ^ 24) else if cls = clCipher then v % 2 ^ 17 else v, s)

/-- Completes an ended entry: the completion is written after its data and then signalled (R235); one whose ring is unreachable is
discarded, and counted for Mimin (R190). -/
def complete (s : State) (f i : Nat) : State :=
  match entryOf s f i, furOf s f with
  | some e, some x =>
    match e.ph with
    | .ended st res =>
      if !canComplete s e then s
      else
        let s := if x.cls = clStorage then stoError s e st else s
        let s := dropEntry s f i
        let (w, s) := resultWord s x.cls res
        let s := if x.cls = clPrq then s
          else if x.cls = clMimin ∧ ringGone s x = true then incF s f_MIM_CPL_DROP_COUNT 1
          else postCpl s f ⟨e.cid, w, e.head, st, e.irq, e.seq⟩
        release s x.cls e st
    | _ => s
  | _, _ => s

/-- A fetched entry has ended (R235); one of a turnout that is being saved, after its drain deadline, with FROZEN (R379, R12). -/
def execEntryCompletion (f : Fin 262144) (i : Fin 65536) (s : State) : Ans := keepQueue s <| .next (complete (drainEnd s) f i)

end Sys2Proof.Machine
end

