-- ==== Sys2Proof/Machine/Turnouts.lean ====
section
/-! DEFINITION. Machine/Turnouts.lean: turnouts: their commands, their destruction, their channels, and the end of an FLR
(R260, R382–R395).
Choices beyond the words of the spec: log entries DESIGN CHOICE 11, 34, 35, 37, 53, 71; DEDUCED 49. -/

namespace Sys2Proof.Machine

/-! ### Serving a command (R385) -/

/-- Ends the turnout command in progress: GO clears, RESULT is set, the manager is signalled. -/
def cmdDone (s : State) (res : Nat) : State :=
  let s := wr (wr s f_TRN_CMD_CTL_GO 0) f_TRN_CMD_CTL_RESULT res
  msix { s with trn := { s.trn with cmd := none } } fnPF0 (rd s f_TRN_CFG_VEC)

/-- The component that serves a turnout command: the key service, or turnout commands (R417). -/
def opComp (op : Nat) : Nat := if 3 < op then 2 else 1

/-- Has a command that may end with BUSY passed its 10 ms unstarted (R385); the instant itself still counts (R12). -/
def cmdLate10 (s : State) (c : TCmd) : Bool :=
  (c.op == 1 || c.op == 4 || c.op == 5) && c.step == 0 && overdue s (c.at_ + 10_000_000)

/-- Serves the command in progress when it has the row's OP; one that comes too late ends with BUSY (R385); a stopped component ends it with DEVICE_FAULT (R417). -/
def serve (s : State) (op : Nat) (k : TCmd → State) : Ans :=
  match s.trn.cmd with
  | some c =>
    if c.op ≠ op || !fwServes s then .next s
    else if cmdLate10 s c then .next (cmdDone s stBusy)
    else if compStopped s (opComp op) then .next (cmdDone s stFault)
    else .next (k c)
  | none => .next s

/-- The command block: 256 bytes at TRN_CMD_ADDR; one that owner 201h does not reach gives INVALID_FIELD. -/
def withBlock (s : State) (k : List Byte → State → State) : State :=
  match runMM s (physRead (ioFor .firmware) 0x201 (rd s f_TRN_CMD_ADDR_ADDR * 64) 256) with
  | (.error (.wait q), _) =>
    let s := askPort s q
    -- it has started (R385)
    { s with trn := { s.trn with cmd := s.trn.cmd.map (fun c => { c with step := max c.step 2 }) } }
  | (.ok b, s) => k b (dropAsks s (fun w => decide (w = .firmware)))
  | (.error _, s) => cmdDone s stField

/-- SHARED mode (TRN_CFG.CHAN). -/
def chanShared (s : State) : Bool := rd s f_TRN_CFG_CHAN == 1

/-- Sets STATE of a turnout. -/
def setTurn (s : State) (t v : Nat) : State := wr s (f_TRN_STATE_STATE t) v

/-! ### CREATE (R383, R386, R387) -/

/-- Turnouts that are not FREE. -/
def liveTurns (s : State) : List Nat := (List.range 512).filter (fun t => turnState s t != 0)

/-- Flat cells named by a 32-byte map at byte `o`. -/
def cellMap (b : List Byte) (o : Nat) : List Nat := (List.range 256).filter (fun c => bit (le b (o + c / 8) 1) (c % 8))

/-- The quotas that a CREATE block names. -/
def blockQuota (b : List Byte) : Quota :=
  ⟨le b 72 4, le b 76 4, le b 80 4, le b 84 4, le b 88 2, le b 90 2, le b 92 4, le b 96 8,
    (cellMap b 40).foldl nadd [], le b 104 8⟩

/-- Is a region that holds a named cell named in part. -/
def regionPart (cs : List Nat) : Bool := cs.any (fun c => (List.range 16).any (fun i => !cs.contains (c / 16 * 16 + i)))

/-- Is CHANADDR of the block fit for the mode. -/
def chanAddrOk (s : State) (b : List Byte) : Bool :=
  let a := le b 104 8
  if chanShared s then
    a % 8192 == 0 && (match areaOf a with
      | .hbm e => decide (ownerOfArea s (.hbm e) = 0x201)
      | _ => false)
  else a == 0

/-- A field of the CREATE block fails (R386 check 2). -/
def createBad (s : State) (b : List Byte) : Bool :=
  let q := blockQuota b
  lef b 0 2 15 9 != 0 || lef b 2 1 7 1 != 0 || !zeroAt b 3 5 || !zeroAt b 112 144 ||
  decide (16384 < q.furrows) || decide (65536 < q.mslots) || decide (262144 < q.contexts) || decide (1048576 < q.windows) ||
  decide (8192 < q.namespaces) || decide (8192 < q.keyslots) || decide (65536 < q.tracker) ||
  turnState s (lef b 0 2 8 0) != 0 || (cellMap b 40).any (fun c => !(cellMap b 8).contains c) ||
  (bit (le b 2 1) 0 && regionPart (cellMap b 8)) || !chanAddrOk s b

/-- Did self-test leave a cell usable (R411). -/
def cellUsable (s : State) (c : Nat) : Bool := bit (rd s (f_BST_CELL_V (c / 32))) (c % 32)

/-- What a quota field sums to over all turnouts. -/
def quotaSum (s : State) (g : Quota → Nat) : Nat := s.trn.q.foldl (fun n p => n + g p.2) 0

/-- A named cell is taken or unusable, or a quota exceeds what remains (R386 check 3). -/
def createShort (s : State) (b : List Byte) : Bool :=
  let q := blockQuota b
  (cellMap b 8).any (fun c => (cellOf s c).turnout != 0x200#10 || !cellUsable s c) ||
  decide (262144 - furCount s 0x201 < quotaSum s Quota.furrows + q.furrows) ||
  decide (65536 < quotaSum s Quota.mslots + q.mslots) || decide (262144 < quotaSum s Quota.contexts + q.contexts) ||
  decide (1048576 < quotaSum s Quota.windows + q.windows) || decide (8192 < quotaSum s Quota.namespaces + q.namespaces) ||
  decide (8192 < quotaSum s Quota.keyslots + q.keyslots) || decide (65536 < quotaSum s Quota.tracker + q.tracker)

/-- The checks of CREATE in their order (R386). -/
def createCheck (s : State) (b : List Byte) : Nat :=
  let n := (liveTurns s).length
  if n ≥ 512 || (!chanShared s && decide (64 ≤ n)) then stNoRes
  else if createBad s b then stField
  else if createShort s b then stNoRes
  else stOk

/-- Draws a new HBM key for an owner (R231, R240). -/
def drawKey (s : State) (owner : Nat) : State :=
  { s with m := { s.m with keyGen := sput 0 s.m.keyGen owner (sget 0 s.m.keyGen owner + 1) } }

/-- Resets a cell whole (R62) and sets its CR_TURNOUT (R239); a cell that leaves its turnout loses its claim (R434). -/
def claimCell (s : State) (c t : Nat) : State :=
  modCell (dropWaiters (cellScrub s c) (ofCell c)) c (fun x => { x with
    turnout := BitVec.ofNat 10 t
    dbg := if x.turnout.toNat = t then x.dbg else CellDbg.reset })

/-- Loads the cell runtime into a cell and starts it at pc 0 (R127, R387). -/
def startCell (s : State) (c : Nat) : State :=
  let s := storeBytes s (imemPA c) (((s.boot.fw.map Fw.runtime).getD []).take 0x8000) false
  modCell s c (fun x => { x with k := { x.k with pc := 0, run := .running } })

/-- A free mailbox instance; which one is a free value. -/
def pickMbox (s : State) : Nat × State :=
  let taken := (liveTurns s).filter (fun t => rd s (f_TRN_STATE_MBV t) == 1) |>.map (fun t => rd s (f_TRN_STATE_MBOX t))
  let l := (List.range 64).filter (fun k => !taken.contains k)
  let (k, s) := freshBelow s (max 1 l.length)
  (l.getD k 0, s)

/-- Opens the channel of a turnout (R387, R392). -/
def openChannel (s : State) (t : Nat) (addr : Nat) : State :=
  let s := setReg s (f_TRN_CHAN_UP_CI t).key 0
  if chanShared s then storeBytes s addr (List.replicate 8192 0) false
  else
    let (k, s) := pickMbox s
    wr (wr s (f_TRN_STATE_MBV t) 1) (f_TRN_STATE_MBOX t) k

/-- A CREATE that has passed its checks (R387). -/
def createTurnout (s : State) (b : List Byte) : State :=
  let t := lef b 0 2 8 0
  let cs := cellMap b 8
  let s := drawKey (setTurn s t 1) t
  let s := cs.foldl (fun s c => startCell (claimCell s c t) c) s
  let s := { s with trn := { s.trn with q := sput Quota.none s.trn.q t (blockQuota b) } }
  let s := wr (wr s (f_TRN_STATE_REXCL t) (le b 2 1 % 2)) (f_TRN_STATE_NCELLS t) cs.length
  setTurn (openChannel s t (le b 104 8)) t 2

/-- CREATE (R386, R387): one that fails changes RESULT alone. -/
def execTurnoutCreate (s : State) : Ans := keepQueue s <|
  serve s 1 fun _ => withBlock s fun b s =>
    let st := createCheck s b
    if st = stOk then cmdDone (createTurnout s b) stOk else cmdDone s st

/-! ### Ends of entries -/

/-- Ends every fetched entry of an owner with ABORTED and completes those that nothing holds back (R349, R373, R390). -/
def abortOwner (s : State) (o : Nat) : State :=
  let s := endAll s (fun e => furOwner s e.f == o) stAborted
  (s.infl.filter (fun e => furOwner s e.f == o)).foldl (fun s e => complete s e.f e.i) s

/-- A TRN_SAVE of a turnout in progress ends with ABORTED; its cells stay halted for the reset that follows (R390). -/
def abortSave (s : State) (t : Nat) : State :=
  let s := match s.sip.op with
    | some o => if o.t = t then saveEnd s o stAborted noResult false else s
    | none => s
  if s.sip.halted = some t then wr { s with sip := { s.sip with halted := none } } f_SIP_TSTAT_PHASE 0 else s

/-- Freezes every furrow of an owner. -/
def freezeOwner (s : State) (o : Nat) : State := freezeFurs s (fun _ x => x.owner == o)

/-- The turnout that a command block names; none where bits of bytes 0–1 beyond it are set. -/
def blockTurnout (b : List Byte) : Option Nat := if lef b 0 2 15 9 = 0 then some (lef b 0 2 8 0) else none

/-- Notes in the command in progress that it waits for entries of turnout `t`. -/
def cmdWaits (s : State) (t : Nat) : State :=
  { s with trn := { s.trn with cmd := s.trn.cmd.map (fun c => { c with step := 1, t := t }) } }

/-! ### RESET (R389) -/

/-- The end of a RESET, once every entry of the turnout has ended. -/
def resetRest (s : State) (t : Nat) : State :=
  if inFlight s t then cmdWaits s t
  else
    let s := (cellsOf s t).foldl (fun s c => startCell (claimCell s c t) c) s
    cmdDone (setTurn s t 2) stOk

/-- RESET (R389): furrows freeze, entries end with ABORTED, cells are reset and their runtime restarts. -/
def execTurnoutReset (s : State) : Ans := keepQueue s <|
  serve s 3 fun c =>
    if c.step = 1 then resetRest (abortOwner s c.t) c.t
    else withBlock s fun b s =>
      match blockTurnout b with
      | none => cmdDone s stField
      | some t =>
        if !turnActive s t then cmdDone s stField
        else resetRest (abortOwner (abortSave (freezeOwner (setTurn s t 3) t) t) t) t

/-! ### DESTROY (R390, R391) -/

/-- Step 3: windows, contexts, namespaces. -/
def destroyThings (s : State) (t : Nat) : State :=
  let s := { s with
    lat := { s.lat with wins := s.lat.wins.filter (fun w => w.t != t) }
    mim := { s.mim with ctxs := s.mim.ctxs.filter (fun p => match p.2 with
      | some x => x.t != t
      | none => true) } }
  (s.sto.ns.filter (fun p => match p.2 with
    | some x => x.owner == t
    | none => false)).foldl (fun s p => dropNs s p.1) s

/-- Steps 4–6: cells, keys, furrows, translation. -/
def destroyUnits (s : State) (t : Nat) : State :=
  let s := (cellsOf s t).foldl (fun s c => claimCell s c 0x200) s
  let s := (slotsOf s t).foldl releaseSlot s
  let s := drawKey s t
  let s := dropWaiters s (fun w => match w with
    | .ring f => furOwner s f == t
    | _ => false)
  let s := { s with fur := s.fur.filter (fun p => match p.2 with
    | some x => x.owner != t
    | none => true) }
  let s := wr (cplFreed s) (f_TRN_ROOT_EN t) 0
  { s with lev := { s.lev with tlb := s.lev.tlb.filter (fun e => e.t != t) } }

/-- Step 7: scrubs of every owned extent and granule. -/
def destroyScrubs (s : State) (t : Nat) : State :=
  let s := ((List.range 1024).filter (fun e => rd s (f_TRN_EXT_OWNER e) == t)).foldl extentScrubbed s
  ((List.range 4096).filter (fun g => rd s (f_TRN_GRAN_OWNER g) == t)).foldl granuleScrubbed s

/-- Step 8: quotas, mailbox, STATE. -/
def destroyEnd (s : State) (t : Nat) : State :=
  let s := if rd s (f_TRN_STATE_MBV t) = 1 then
      { s with trn := { s.trn with mbox := sclear s.trn.mbox (8192 * rd s (f_TRN_STATE_MBOX t)) 8192 } }
    else s
  let s := { s with trn := { s.trn with q := sput Quota.none s.trn.q t Quota.none } }
  setReg s (f_TRN_STATE_STATE t).key 0

/-- Steps 3–8, once every entry of the turnout has ended. -/
def destroyRest (s : State) (t : Nat) : State :=
  if inFlight s t then cmdWaits s t
  else cmdDone (destroyEnd (destroyScrubs (destroyUnits (destroyThings s t) t) t) t) stOk

/-- DESTROY (R390): it waits between steps 2 and 3 while commands of the turnout are outstanding at drives or store targets. -/
def execTurnoutDestroy (s : State) : Ans := keepQueue s <|
  serve s 2 fun c =>
    if c.step = 1 then destroyRest (abortOwner s c.t) c.t
    else withBlock s fun b s =>
      match blockTurnout b with
      | none => cmdDone s stField
      | some t =>
        if turnState s t = 0 then cmdDone s stField
        else destroyRest (abortOwner (abortSave (freezeOwner (setTurn s t 4) t) t) t) t

/-! ### Cipher keys (R359–R361, R388) -/

/-- The status of a KEY_LOAD block. -/
def keyLoadCheck (s : State) (b : List Byte) : Nat :=
  let owner := le b 0 2
  let slot := le b 2 2
  let ty := le b 4 1
  if 8192 ≤ slot ∨ !(owner == 0x201 || (decide (owner < 512) && turnActive s owner)) then stField
  else if (keySlotOf s slot).ty ≠ 0 ∨ ty = 0 ∨ 3 < ty ∨ (ty = 3 ∧ (b.drop 8).take 32 = (b.drop 40).take 32) then stField
  else if owner < 512 ∧ (quotaOf s owner).keyslots ≤ (slotsOf s owner).length then stNoRes
  else stOk

/-- Overwrites bytes 8–71 of the command block with zeros (R388). -/
def zeroKey (s : State) : State :=
  (runMM s (physWrite (ioFor .firmware) 0x201 (rd s f_TRN_CMD_ADDR_ADDR * 64 + 8) (List.replicate 64 0) false)).2

/-- KEY_LOAD (R388). -/
def execKeyLoad (s : State) : Ans := keepQueue s <|
  serve s 4 fun _ => withBlock s fun b s =>
    let st := keyLoadCheck s b
    let s := if st = stOk then writeSlot s (le b 2 2) (le b 4 1) (le b 0 2) ((b.drop 8).take (keyLen (le b 4 1))) else s
    cmdDone (zeroKey s) st

/-- Does a fetched request hold the key of a slot (R359, R361). -/
def keyBound (s : State) (slot : Nat) : Bool :=
  s.infl.any (fun e => !e.ended && ((furClass s e.f == clCipher && !isSha e.op && cSlot e.b == slot) ||
    (furClass s e.f == clSiphon && (e.op == 1 || e.op == 2) && pKey e.b == slot)))

/-- KEY_FREE (R388): it waits for the requests that bound the slot. -/
def execKeyFree (s : State) : Ans := keepQueue s <|
  serve s 5 fun _ => withBlock s fun b s =>
    let slot := le b 2 2
    if 8192 ≤ slot ∨ (keySlotOf s slot).ty = 0 then cmdDone s stField
    else if keyBound s slot then cmdWaits s 0
    else cmdDone (releaseSlot s slot) stOk

/-- A CREATE, KEY_LOAD or KEY_FREE that was not started within 10 ms completes with BUSY (R385, R12). -/
def execTurnoutCommandBusy (s : State) : Ans := keepQueue s <|
  match s.trn.cmd with
  | some c =>
    .next (if cmdLate10 s c && fwServes s then cmdDone s stBusy else s)
  | none => .next s

/-! ### Channels (R392–R394) -/

/-- DEPTH. -/
def chanDepth (s : State) : Nat := if chanShared s then 32 else 1

/-- Is a producer index accepted (R393). -/
def piOk (s : State) (pi ci v : BitVec 16) : Bool := decide (0 < (v - pi).toNat) && decide ((v - ci).toNat ≤ chanDepth s)

/-- Is a consumer index accepted (R393). -/
def ciOk (pi ci v : BitVec 16) : Bool := decide (0 < (v - ci).toNat) && decide ((v - ci).toNat ≤ (pi - ci).toNat)

/-- A 16-bit index field. -/
def rd16 (s : State) (f : Fld) : BitVec 16 := BitVec.ofNat 16 (rd s f)

/-- Does a VF's BAR0 answer: the VF exists, is in D0 and in no FLR (R245, R260, R272), and the firmware runs. -/
def vfBar (s : State) (t : Nat) : Bool := fwLoaded s && vfExists s t && !inFlr s t && !(fnOf s t).d3

/-- The tenant's write of its up PI (R393). -/
def execChannelUpPi (t : Fin 512) (v : BitVec 16) (s : State) : Ans := keepQueue s <|
  if !vfBar s t || !turnActive s t || !piOk s (rd16 s (f_TRN_CHAN_UP_PI t)) (rd16 s (f_TRN_CHAN_UP_CI t)) v then .next s
  else
    let s := wr s (f_TRN_CHAN_UP_PI t) v.toNat
    let f := f_TRN_CHAN_PEND_V (t / 32)
    let s := wr s f (rd s f ||| 2 ^ (t.val % 32))
    .next (msix s fnPF0 (rd s f_TRN_CFG_VEC))

/-- The manager's write of the up CI (R393). -/
def execChannelUpCi (t : Fin 512) (v : BitVec 16) (s : State) : Ans := keepQueue s <|
  if !barOpen s || !turnActive s t || !ciOk (rd16 s (f_TRN_CHAN_UP_PI t)) (rd16 s (f_TRN_CHAN_UP_CI t)) v then .next s
  else .next (wr s (f_TRN_CHAN_UP_CI t) v.toNat)

/-- The manager's write of the down PI (R393). -/
def execChannelDnPi (t : Fin 512) (v : BitVec 16) (s : State) : Ans := keepQueue s <|
  if !barOpen s || !turnActive s t || !piOk s (rd16 s (f_TRN_CHAN_DN_PI t)) (rd16 s (f_TRN_CHAN_DN_CI t)) v then .next s
  else .next (msix (wr s (f_TRN_CHAN_DN_PI t) v.toNat) t 0)

/-- The tenant's write of the down CI (R393). -/
def execChannelDnCi (t : Fin 512) (v : BitVec 16) (s : State) : Ans := keepQueue s <|
  if !vfBar s t || !turnActive s t || !ciOk (rd16 s (f_TRN_CHAN_DN_PI t)) (rd16 s (f_TRN_CHAN_DN_CI t)) v then .next s
  else .next (wr s (f_TRN_CHAN_DN_CI t) v.toNat)

/-! ### The end of an FLR (R260, R395) -/

/-- An FLR completes (R260 steps 4 and 5): it waits for entries that drives or store targets still hold. -/
def execFlrComplete (t : Fin 512) (s : State) : Ans := keepQueue s <|
  match sget none s.pcie.flr t with
  | none => .next s
  | some f =>
    if s.clk < f.at_ + 2000 then .next s
    else
      let s := { s with pcie := { s.pcie with flr := sput none s.pcie.flr t (some { f with cut := true }) } }
      let s := abortOwner (freezeOwner s t) t
      if inFlight s t then .next s
      else
        let s := fnReset s t
        let s := { s with pcie := { s.pcie with flr := sput none s.pcie.flr t none } }
        let g := f_TRN_FLR_PEND_V (t / 32)
        let s := wr s g (rd s g ||| 2 ^ (t.val % 32))
        .next (msix s fnPF0 (rd s f_TRN_CFG_VEC))

end Sys2Proof.Machine
end

