-- ==== Sys2Proof/Machine/Boot.lean ====
section
/-! DEFINITION. Machine/Boot.lean: power-on, bring-up, resets of the whole device, self-test, the management firmware and its
components (R397–R419, R440–R442, R448, R459, R469).
Choices beyond the words of the spec: log entries DESIGN CHOICE 25, 34, 47, 54, 56, 57, 58, 59; DEDUCED 55; PRESUMED 7. -/

namespace Sys2Proof.Machine

/-! ### Power (R404, R439–R442, R448) -/

/-- Starts a set-point change of an AVS rail: 1 mV/µs, and the monitors ignore the rails until 1 ms after it ends (R441, R456). -/
def setPoint (s : State) (rail mv : Nat) : State :=
  let old := sget 0 s.pwr.setp rail
  if old = mv then s
  else
    let d := if old < mv then mv - old else old - mv
    { s with pwr := { s.pwr with
      setp := sput 0 s.pwr.setp rail mv
      quiet := sput 0 s.pwr.quiet rail (s.clk + 1000 * d + 1000000) } }

/-- The AVS rails (R439). -/
def avsRails : List Nat := [0, 1, 2, 3, 5]

/-- Every AVS rail takes the set point of the fuses. -/
def avsFuses (s : State) : State := avsRails.foldl (fun s r => setPoint s r (sget 0 s.boot.avs r)) s

/-- A block of the medium returns to what an undo record holds. -/
def undoBlock (s : State) (u : Undo) : State :=
  match nsOf s u.ns with
  | none => s
  | some x => match nsByteKey x u.off with
    | none => s
    | some k => modNs { s with sto := { s.sto with disk := putBytes 0 s.sto.disk k u.old } } u.ns
        (fun x => { x with written := nadd x.written (u.off / 4096) })

/-- The drives lose power: of the changes that no FLUSH has covered, each block keeps a free number of the oldest (R341). Newest
record first; `kept` lists the blocks that lose no more. -/
def powerLoss : List Undo → List (Nat × Nat) → State → State
  | [], _, s => s
  | u :: r, kept, s =>
    if kept.contains (u.ns, u.off) then powerLoss r kept s
    else
      let (c, s) := freshBelow s 2
      if c = 0 then powerLoss r ((u.ns, u.off) :: kept) s else powerLoss r kept (undoBlock s u)

/-- All main rails become good, after they were off (R440): the device is held in power-on reset. -/
def execPowerOn (s : State) : Ans := keepQueue s <|
  let s := powerLoss s.sto.undo.reverse [] s
  let s := { s with sto := { s.sto with undo := [] } }
  let s := chipResetTo s 0 7
  .next { s with pcie := { s.pcie with cold := false }, boot := { s.boot with
    powered := true
    hold := false
    trip := false
    refLost := false
    goodAt := s.clk } }

/-- VDD_AUX rises (R442): the THERMTRIP_N latch releases; the main rails are still off. -/
def execAuxPowerOn (s : State) : Ans := keepQueue s <|
  let s := chipResetTo { s with pcie := { s.pcie with cold := false } } 0 7
  .next { s with boot := { s.boot with
    powered := false
    trip := false
    hold := false
    auxRose := true } }

/-- REFCLK_25M is absent (R459): the device holds in reset. -/
def execRefclk25mLoss (s : State) : Ans := keepQueue s <|
  let s := chipResetTo s 0 7
  .next { s with boot := { s.boot with refLost := true } }

/-- Can a CHIP or FULL reset release: supplies good, no trip or fault, the reference clock present (R404, R459). -/
def mayRelease (s : State) : Bool := s.boot.inRst && s.boot.powered && !s.boot.hold && !s.boot.refLost

/-- The release of a CHIP or FULL reset (R405, R407): the regions whose PLL locked within 1 ms, RST_CAUSE, GEN_STATE. -/
def releaseReset (s : State) (locked : BitVec 16) : State :=
  let s := (List.range 16).foldl (fun s r => wr s (f_RGN_CLK_STAT_LOCKED r) (b2n (locked.getLsbD r))) s
  let s := wr s f_RST_CAUSE_SEEN (rd s f_RST_CAUSE_SEEN ||| 2 ^ s.boot.rstSrc)
  let s := wr (wr s f_RST_CAUSE_LAST s.boot.rstSrc) f_RST_CAUSE_LEVEL s.boot.rstLvl
  let s := wr s f_GEN_STATE_STATE 1
  { s with boot := { s.boot with inRst := false } }

/-- 2 ms after supplies good, power-on reset releases (R397 step 2); the SMBus straps are sampled (R451). -/
def execPowerOnRelease (straps : BitVec 3) (locked : BitVec 16) (s : State) : Ans := keepQueue s <|
  if mayRelease s && s.boot.rstSrc == 0 && decide (s.boot.goodAt + 2000000 ≤ s.clk) then
    .next (releaseReset { s with side := { s.side with addr := 0x20 + straps.toNat } } locked)
  else .next s

/-- A CHIP or FULL reset other than power-on releases (R405–R407). -/
def execResetRelease (locked : BitVec 16) (s : State) : Ans := keepQueue s <|
  if mayRelease s && s.boot.rstSrc != 0 && decide (s.boot.rstUntil ≤ s.clk) then .next (releaseReset s locked) else .next s

/-! ### Reset sources (R403, R404, R406) -/

/-- A source that reaches CHIP or FULL acts, and holds until an instant at the earliest. -/
def chipSource (s : State) (i until_ : Nat) : State :=
  let l := sourceLevel s i
  if l = 6 ∨ l = 7 then
    let s := raiseChip s i l
    { s with boot := { s.boot with rstUntil := max s.boot.rstUntil until_ } }
  else s

/-- A low pulse of SYS_RST_N, in ns (R406): from 0.96 to 1.04 µs it is free whether the filter acts. -/
def execSysRst (width : DWord) (s : State) : Ans := keepQueue s <|
  let (d, s) := freshBelow s 81
  let d := 960 + d
  if width.toNat < d then .next s
  else .next (chipSource s 1 (s.clk + max (width.toNat - d) 10000))

/-- A write of RST_SW.KEY (R403). -/
def execRstSw (key : Byte) (s : State) : Ans := keepQueue s <| if key = 0x5A then .next (chipSource s 9 s.clk) else .next (writeIgnored s)

/-- No management core has served the watchdog for 100 ms (R404). -/
def execManagementWatchdog (s : State) : Ans := keepQueue s <| .next (chipSource s 10 s.clk)

/-- What a source at level `l` does: power-on, thermal trip and supply fault leave their own marks (R404). -/
def sourceAt (i : Fin 16) (l : Nat) (s : State) : State :=
  if sourceLevel s i = l then
    let s := chipSource s i s.clk
    { s with boot := { s.boot with
      hold := s.boot.hold || i == 13 || i == 14
      goodAt := if i = 0 then s.clk else s.boot.goodAt } }
  else s

/-- A CHIP reset by a source whose entry is CHIP (R408). -/
def execChipReset (i : Fin 16) (s : State) : Ans := keepQueue s <| .next (sourceAt i 6 s)

/-- A FULL reset by a source whose entry is FULL (R408). -/
def execFullReset (i : Fin 16) (s : State) : Ans := keepQueue s <| .next (sourceAt i 7 s)

/-- PWR_AUXLOG records a trip (R448). -/
def auxLog (s : State) (kind index : Nat) : State :=
  wr (wr (wr s f_PWR_AUXLOG_VALID 1) f_PWR_AUXLOG_KIND kind) f_PWR_AUXLOG_INDEX index

/-- A trip or fault that holds the device in FULL reset until the next power-on (R404). -/
def tripReset (s : State) (i kind index : Nat) (trip : Bool) : State :=
  let s := chipSource (auxLog s kind index) i s.clk
  { s with boot := { s.boot with
    hold := true
    trip := s.boot.trip || trip } }

/-- A sensor reaches 120 °C (R447, R448). -/
def execThermalTrip (k : Fin 24) (s : State) : Ans := keepQueue s <| if s.boot.powered then .next (tripReset s 13 1 k true) else .next s

/-- Every enabled upstream port is in L2, so that the loss of the main supplies brings the device into D3cold (R273): a port is enabled
whose PERSTx_N was ever released. -/
def allInL2 (s : State) : Bool :=
  let on := (List.range 2).filter (fun p => (upOf s p).perstAt != 0)
  !on.isEmpty && on.all (fun p => (upOf s p).l2)

/-- A main rail stays out of 90–110 % for 10 µs (R273, R441). During a set-point change and 1 ms after it the monitors ignore the rails. -/
def execSupplyFault (rail : Fin 9) (s : State) : Ans := keepQueue s <|
  if s.boot.powered && (List.range 9).all (fun q => decide (sget 0 s.pwr.quiet q ≤ s.clk)) then
    let s := { s with pcie := { s.pcie with cold := allInL2 s } }
    .next (tripReset s 14 2 rail false)
  else .next s

/-! ### Fuses, option bytes, configuration image (R397–R402) -/

/-- Does the bring-up stand at a stage. -/
def atStage (s : State) (x : Stage) : Bool := !s.boot.inRst && decide (s.boot.stage = x)

/-- The bring-up moves on. -/
def toStage (s : State) (x : Stage) : State := { s with boot := { s.boot with stage := x } }

/-- Fuse sense ends (R397 step 3): reach table, keys, rollback counter, test mode, AVS set points (rails 0–3, 5), factory repair. -/
def execFuseSenseDone (reach : DWord) (k0 k1 k2 k3 : FuseKey) (rollback : Fin 64) (test : Bool) (avs : List (BitVec 16))
    (factory : List Word) (s : State) : Ans := keepQueue s <|
  if !atStage s .fuse then .next s
  else
    let s := wr (setReg s f_RST_REACH_LEVEL.key reach) f_FLT_INJ_AVAIL (b2n test)
    let keys := sput FuseKey.none (sput FuseKey.none (sput FuseKey.none (sput FuseKey.none [] 0 k0) 1 k1) 2 k2) 3 k3
    let mv := (List.range 5).foldl (fun m i => sput 0 m (avsRails.getD i 0) ((avs.getD i 0).toNat)) []
    let s := { s with boot := { s.boot with
      keys := keys
      rollback := max s.boot.rollback rollback
      avs := mv
      factory := factory.map (fun (w : Word) => w.toNat)
      stage := .option } }
    .next (avsFuses s)

/-- Is a copy of the option bytes valid (R399, R400). -/
def optValid (b : List Byte) : Bool :=
  b.length == 256 && beNat (b.take 4) == 0x534B4F42 && le b 4 2 == 1 && le b 252 4 == crc32 (b.take 252) &&
  zeroAt b 6 2 && lef b 12 1 7 2 == 0 && lef b 14 1 7 2 == 0 && zeroAt b 15 1 && zeroAt b 18 2 && zeroAt b 28 224 &&
  lef b 12 1 1 0 != 3 && decide (25 ≤ le b 13 1) && decide (le b 13 1 ≤ 200) && lef b 14 1 1 0 != 3 &&
  le b 20 4 % 4096 == 0 && decide (le b 24 4 ≤ 0x100_0000)

/-- Is copy B used: valid, and its SEQ higher than a valid copy A's modulo 2^32 (R399). -/
def optUsesB (a b : List Byte) : Bool :=
  let d := (le b 8 4 + 2 ^ 32 - le a 8 4) % 2 ^ 32
  optValid b && (!optValid a || (decide (0 < d) && decide (d < 2 ^ 31)))

/-- The event of an option or image fallback (R400, R402). -/
def fallback (s : State) : State :=
  event s 0x19E 1 0x0F (rd s f_CFG_STAT_OPT + 4 * rd s f_CFG_STAT_IMG)

/-- Both option copies are read, if a NOR answers the SFDP read, and one is chosen (R399, R400). -/
def execOptionFetchDone (nor : Bool) (a b : List Byte) (s : State) : Ans := keepQueue s <|
  if !atStage s .option then .next s
  else
    let s := toStage s .image
    let okA := nor && optValid a
    let okB := nor && optValid b
    if okB && optUsesB a b then
      .next { wr s f_CFG_STAT_OPT 1 with boot := { s.boot with opt := b } }
    else if okA then .next { wr s f_CFG_STAT_OPT 0 with boot := { s.boot with opt := a } }
    else .next (fallback (wr s f_CFG_STAT_OPT 3))

/-- IMG_MAX; 0 under the safe defaults. -/
def imgMax (s : State) : Nat := le s.boot.opt 24 4
/-- BIST. -/
def bistMode (s : State) : BistMode :=
  match lef s.boot.opt 14 1 1 0 with
  | 1 => .memories
  | 2 => .off
  | _ => .full
/-- BIST_MV. -/
def bistMv (s : State) : Nat := if s.boot.opt.isEmpty then 750 else le s.boot.opt 16 2

/-- The records of an image from byte `o` on: fuel, then TYPE and body of each; none when one overruns LEN. -/
def imgRecs (b : List Byte) : Nat → Nat → Option (List (Nat × List Byte))
  | 0, _ => some []
  | f + 1, o =>
    if b.length ≤ o then some []
    else
      let n := le b (o + 2) 2
      if b.length < o + alignUp (4 + n) 8 then none
      else (imgRecs b f (o + alignUp (4 + n) 8)).map (fun l => (le b o 2, (b.drop (o + 4)).take n) :: l)

/-- RLEN of a known record type; none for an unknown one (R401). -/
def recLen (ty : Nat) : Option Nat :=
  match ty with
  | 1 => some 40
  | 2 => some 4
  | 3 => some 2
  | 4 => some 512
  | 5 => some 3
  | 6 => some 1
  | 7 => some 16
  | 8 => some 32
  | 9 => some 1728
  | 10 => some 6
  | _ => none

/-- Has a known record a reserved value (R402). -/
def recReserved (ty : Nat) (b : List Byte) : Bool :=
  match ty with
  | 1 => (b.take 36).any (fun x => decide (5 < x.toNat)) || lef b 36 4 31 18 != 0 ||
      (List.range 9).any (fun q => lef b 36 4 (2 * q + 1) (2 * q) == 3)
  | 2 => (List.range 8).any (fun n => lef b 0 2 (2 * n + 1) (2 * n) == 3) || lef b 3 1 7 1 != 0
  | 4 => b.any (fun x => decide (31 < x.toNat))
  | 5 => decide (3 < le b 0 1) || decide (35 < le b 1 1) || decide (7 < le b 2 1)
  | 6 => decide (1 < le b 0 1)
  | 10 => lef b 0 4 30 24 != 0
  | _ => false

/-- Does a record reject the image by itself (R401, R402). -/
def recBad (r : Nat × List Byte) : Bool :=
  match recLen (r.1 % 2 ^ 15) with
  | none => decide (2 ^ 15 ≤ r.1)
  | some n => r.2.length != n || recReserved (r.1 % 2 ^ 15) r.2

/-- The body of the last record of a type. -/
def recOf (l : List (Nat × List Byte)) (ty : Nat) : Option (List Byte) :=
  (l.reverse.find? (fun r => r.1 % 2 ^ 15 == ty)).map Prod.snd

/-- Does the time source of a record fail to fit the link modes of another (R291, R402). -/
def sourceContradicts (l : List (Nat × List Byte)) : Bool :=
  match recOf l 5 with
  | none => false
  | some b =>
    let mode := le ((recOf l 1).getD []) (le b 1 1) 1
    match le b 0 1 with
    | 2 => mode != 1 || le b 2 1 != 0
    | 3 => decide (mode < 2) || decide (members mode ≤ le b 2 1)
    | _ => false

/-- The records of an image that is not rejected (R402). -/
def imgOk (mx : Nat) (data : List Byte) : Option (List (Nat × List Byte)) :=
  let len := le data 8 4
  let b := data.take len
  if beNat (data.take 4) ≠ 0x534B4349 ∨ le data 4 2 ≠ 1 ∨ mx < len ∨ len < 64 ∨ data.length < len ∨
      le data 12 4 ≠ crc32c (b.drop 64) then none
  else match imgRecs b (len / 8 + 1) 64 with
    | none => none
    | some l => if l.any recBad || sourceContradicts l then none else some l

/-- Applies a record of a type when the image has one. -/
def applyRec (l : List (Nat × List Byte)) (ty : Nat) (f : List Byte → State → State) (s : State) : State :=
  match recOf l ty with
  | some b => f b s
  | none => s

/-- Record 0001h: link modes and groups. -/
def applyLinks (b : List Byte) (s : State) : State :=
  let s := (List.range 36).foldl (fun s n => wr s (f_LNK_CTL_MODE n) (lef b n 1 3 0)) s
  setReg s f_LNK_GRP_QUAD0.key (BitVec.ofNat 64 (lef b 36 4 17 0))

/-- Record 0002h: topology. -/
def applyTopo (b : List Byte) (s : State) : State :=
  wr (wr (wr s f_HEP_TOPO_ASSIGN (le b 0 2)) f_HEP_TOPO_BIFUR (le b 2 1)) f_HEP_TOPO_MGR_UP (lef b 3 1 0 0)

/-- Record 0003h: region enables. -/
def applyRegions (b : List Byte) (s : State) : State :=
  { s with boot := { s.boot with regions := BitVec.ofNat 16 (le b 0 2) } }

/-- Record 0004h: the UE masks, and LAST from them (R423); sources from 150h on have no BRST (R422). -/
def applyReact (b : List Byte) (s : State) : State :=
  (List.range 512).foldl (fun s i =>
    let m := le b i 1
    let m := if 0x150 ≤ i then setBits m 2 2 0 else m
    wr (wr s (f_FLT_REACT_UE i) m) (f_FLT_REACT_LAST i) (fltLast m)) s

/-- Record 0005h: the time source. -/
def applyTime (b : List Byte) (s : State) : State :=
  wr (wr (wr s f_TMB_CTL_ROLE (le b 0 1)) f_TMB_CTL_SRC_LINK (le b 1 1)) f_TMB_CTL_SRC_MEMBER (le b 2 1)

/-- Record 0006h: the channel mode. -/
def applyChan (b : List Byte) (s : State) : State := wr s f_TRN_CFG_CHAN (lef b 0 1 0 0)

/-- Record 0007h: subsystem IDs. -/
def applyIds (b : List Byte) (s : State) : State := { s with boot := { s.boot with ids := b } }

/-- Record 0008h: slot numbers and power limits. -/
def applySlots (b : List Byte) (s : State) : State :=
  { s with boot := { s.boot with slotCaps := (List.range 8).foldl (fun m n => sput 0 m n (le b (4 * n) 4)) [] } }

/-- Record 0009h: MACs of the port numbers. -/
def applyMacs (b : List Byte) (s : State) : State :=
  { s with boot := { s.boot with macs := (List.range 288).foldl (fun m n => sput 0 m n (beNat ((b.drop (6 * n)).take 6))) [] } }

/-- Record 000Ah: lateral transport. -/
def applyLat (b : List Byte) (s : State) : State :=
  wr (wr (wr s f_LAT_CFG_EN (lef b 0 4 31 31)) f_LAT_CFG_NODE (lef b 0 4 23 0)) f_PAR_CFG_LAT_PORT (le b 4 2)

/-- Applies an image (R401, R402). -/
def applyImage (l : List (Nat × List Byte)) (s : State) : State :=
  let s := applyRec l 1 applyLinks s
  let s := applyRec l 2 applyTopo s
  let s := applyRec l 3 applyRegions s
  let s := applyRec l 4 applyReact s
  let s := applyRec l 5 applyTime s
  let s := applyRec l 6 applyChan s
  let s := applyRec l 7 applyIds s
  let s := applyRec l 8 applySlots s
  let s := applyRec l 9 applyMacs s
  applyRec l 10 applyLat s

/-- The PCIe controllers are released: a port whose PERSTx_N is deasserted trains, and its functions are ready within 100 ms
(R258, R397). -/
def releasePorts (s : State) : State :=
  (List.range 2).foldl (fun s p =>
    if (upOf s p).perst then s
    else
      let (d, s) := freshBelow s 100_000_001
      modUp s p (fun u => { u with
        link := true
        readyAt := s.clk + d })) s

/-- The configuration image is applied whole or rejected, FETCH ends and self-test begins (R397 steps 5 and 6, R401, R402). -/
def execImageApplyDone (data : List Byte) (s : State) : Ans := keepQueue s <|
  if !atStage s .image then .next s
  else
    let s := if imgMax s = 0 then wr s f_CFG_STAT_IMG 1
      else match imgOk (imgMax s) data with
        | some l => applyImage l { wr s f_CFG_STAT_IMG 0 with boot := { s.boot with img := data.take (le data 8 4) } }
        | none => fallback (wr s f_CFG_STAT_IMG 2)
    let s := releasePorts (toStage s .test)
    let s := wr s f_GEN_STATE_STATE 2
    .next (if bistMode s = .off then s else (List.range 4).foldl (fun s r => setPoint s r (bistMv s)) s)

/-! ### Self-test (R15, R163, R409–R412, R466, R469) -/

/-- Does self-test in a mode look at a unit: the memories-only mode runs no logic BIST. -/
def bistSees (m : BistMode) (r : BistRec) : Bool :=
  match m with
  | .full => true
  | .memories => r.unit != 2 && r.unit != 5
  | .off => false

/-- OUTCOME of a record (R411, R412). -/
def bistOutcome (r : BistRec) : Nat :=
  match r.fix.val with
  | 0 => 0
  | 1 => 1
  | 2 => 7
  | _ => match r.unit.val with
    | 0 | 1 | 2 => 3
    | 3 => 2
    | 5 => 4
    | 8 => 5
    | _ => 6

/-- The 16 bytes of a log entry (R412). -/
def bistEntry (r : BistRec) : List Byte :=
  natLE 1 (r.unit.val + 16 * bistOutcome r) ++ [r.elem] ++ natLE 2 r.inst.toNat ++ natLE 4 r.addr.toNat ++ [r.bitNo] ++
    List.replicate 7 0

/-- The instances of a unit that cannot be repaired. -/
def bistDead (l : List BistRec) (u : Nat) : List Nat :=
  (l.filter (fun r => r.unit.val == u && r.fix.val == 3)).map (fun r => r.inst.toNat)

/-- Cells that failed. -/
def deadCells (l : List BistRec) : List Nat := bistDead l 0 ++ bistDead l 1 ++ bistDead l 2

/-- Blocks that are unusable: their merge unit or all four cells failed. -/
def deadBlocks (l : List BistRec) : List Nat :=
  (List.range 64).filter (fun k => (bistDead l 5).contains k || (List.range 4).all (fun i => (deadCells l).contains (4 * k + i)))

/-- Regions that are on: enabled by the image, their PLL locked, their control sound. -/
def liveRegions (s : State) (l : List BistRec) : List Nat :=
  (List.range 16).filter (fun r => s.boot.regions.getLsbD r && rd s (f_RGN_CLK_STAT_LOCKED r) == 1 && !(bistDead l 8).contains r)

/-- The bit mask of numbers below a bound. -/
def maskOf (n : Nat) (p : Nat → Bool) : Nat := (List.range n).foldl (fun a i => a + b2n (p i) * 2 ^ i) 0

/-- Is a granule of a region retired. -/
def granRetired (s : State) (r j : Nat) : Bool := bit (rd s (f_RGN_GRAN_RETIRED_RETIRED r (j / 32))) (j % 32)

/-- The reserved granules of a region (R163): 248–255 that are not retired, and as many of the highest unretired ones below 248
as are. -/
def reservedGrans (s : State) (r : Nat) : List Nat :=
  let up := (List.range 8).map (fun i => 248 + i) |>.filter (fun j => !granRetired s r j)
  let low := ((List.range 248).reverse.filter (fun j => !granRetired s r j)).take (8 - up.length)
  up ++ low

/-- Sets the owners of a region's granules: 203h retired, 202h reserved; all of a switched-off region's are held by nobody. -/
def setGranules (on : Bool) (s : State) (r : Nat) : State :=
  let res := reservedGrans s r
  (List.range 256).foldl (fun s j =>
    if !on || granRetired s r j then wr s (f_TRN_GRAN_OWNER (256 * r + j)) 0x203
    else if res.contains j then wr s (f_TRN_GRAN_OWNER (256 * r + j)) 0x202
    else s) s

/-- Retires a device granule (R71, R411). -/
def retireGranule (s : State) (g : Nat) : State :=
  let f := f_RGN_GRAN_RETIRED_RETIRED (g / 256) (g % 256 / 32)
  wr s f (rd s f ||| 2 ^ (g % 32))

/-- The BIST_MV set point ends: the core rails return to the fuses' values. -/
def bistOff (s : State) : State := (List.range 4).foldl (fun s r => setPoint s r (sget 0 s.boot.avs r)) s

/-- Writes the self-test log (R412). -/
def bistLog (s : State) (l : List BistRec) : State :=
  let n := min l.length 4096
  let s := (List.range n).foldl (fun s i => match l[i]? with
    | some r => (List.range 4).foldl (fun s k => wr s (f_BST_LOG_V (4 * i + k)) (le (bistEntry r) (4 * k) 4)) s
    | none => s) s
  wr (wr s f_BST_STAT_ENTRIES n) f_BST_STAT_OVERFLOW (b2n (decide (4096 < l.length)))

/-- RESULT of a run that completed. -/
def bistResult (l : List BistRec) (r : BistMode) : Nat :=
  if r = .off then 3 else if l.any (fun x => x.fix.val == 3) then 2 else 1

/-- The records of failed I/O die arrays: an uncorrectable event, and the class whose furrows end every entry with DEVICE_FAULT. -/
def ioFailures (s : State) (l : List BistRec) : State :=
  (l.filter (fun r => r.unit == 7 && r.fix == 3)).foldl (fun s r =>
    event { s with boot := { s.boot with badCls := nadd s.boot.badCls r.cls } } r.src.toNat 1 0x02 (r.addr.toNat % 2 ^ 24)) s

/-- The end of self-test with the failures it found (R411, R412, R398). -/
def bistEnd (s : State) (l : List BistRec) (result : Nat) : State :=
  let s := bistOff (wr (bistLog s l) f_BST_STAT_RESULT result)
  let soft := (l.filter (fun r => decide (r.fix.val < 2))).map (fun r => r.inst.toNat)
  let dead := deadBlocks l
  let s := { s with boot := { s.boot with
    softRep := s.boot.softRep ++ soft
    badBlocks := dead.foldl nadd []
    stage := .done } }
  let s := ((bistDead l 3).filter (fun g => decide (g < 4096))).foldl retireGranule s
  let on := liveRegions s l
  let s := (List.range 16).foldl (fun s r => setGranules (on.contains r) s r) s
  let usable (c : Nat) : Bool := on.contains (c / 16) && !dead.contains (c / 4) && !(deadCells l).contains c
  let s := (List.range 8).foldl (fun s n => wr s (f_BST_CELL_V n) (maskOf 32 (fun i => usable (32 * n + i)))) s
  let s := ioFailures (wr s f_BST_REGION_V (maskOf 16 (fun r => on.contains r))) l
  let failed := decide (on.length < 8) || !(bistDead l 4).isEmpty || !(bistDead l 6).isEmpty
  wr s f_GEN_STATE_STATE (if failed then 7 else 3)

/-- Self-test ends (R411, R412); with BIST off it passes without testing (R409). -/
def execSelfTestDone (recs : List BistRec) (s : State) : Ans := keepQueue s <|
  if !atStage s .test then .next s
  else
    let l := recs.filter (bistSees (bistMode s))
    .next (bistEnd s l (bistResult l (bistMode s)))

/-- A condition of R410 departs: self-test stops with NOT_RUN, and the run's repairs are discarded. -/
def execSelfTestAbort (s : State) : Ans := keepQueue s <| if !atStage s .test then .next s else .next (bistEnd s [] 3)

/-! ### Firmware (R398, R413–R418) -/

/-- The key of a byte at a bus address of the manager's port. -/
def mgrBusKey (s : State) (a : Nat) : Nat := rd s f_HEP_TOPO_MGR_UP * 2 ^ 64 + a % 2 ^ 64

/-- Bytes at a bus address of the manager's port. -/
def mgrBytes (s : State) (a : Nat) : Nat → List Byte
  | 0 => []
  | n + 1 => (sget none s.m.ext (mgrBusKey s a)).getD (Config.portByte (mgrBusKey s a)) :: mgrBytes s (a + 1) n

/-- The load checks in order (R413): 0 when every one passes. -/
def fwCheck (s : State) (err : Bool) (b : List Byte) : Nat :=
  let len := le b 8 4
  let key := sget FuseKey.none s.boot.keys (le b 6 2)
  if beNat (b.take 4) ≠ 0x534B4657 ∨ le b 4 2 ≠ 1 ∨ !zeroAt b 117 11 ∨ !zeroAt b 224 288 ∨ len ≠ rd s f_GEN_FW_LEN_LEN ∨
      len < 512 ∨ 12 * 2 ^ 20 < len then 3
  else if err then 7
  else if 3 < le b 6 2 ∨ key.revoked ∨ key.digest ≠ sha384 ((b.drop 20).take 97) then 5
  else if le b 20 1 ≠ 4 ∨ !ecdsaVerify (sha384 (b.take 128 ++ (b.take len).drop 512)) ((b.drop 21).take 96) ((b.drop 128).take 96) then 4
  else if le b 16 4 < s.boot.rollback then 6
  else 0

/-- Sets RESULT and clears GO. -/
def fwResult (s : State) (r : Nat) : State := wr (wr s f_GEN_FW_CTL_RESULT r) f_GEN_FW_CTL_GO 0

/-- The image that the registers name, and what its check gives; a port that is down fails the DMA. -/
def fwFetch (s : State) (err : Bool) : List Byte × Nat :=
  if !(upOf s (rd s f_HEP_TOPO_MGR_UP)).link then ([], 7)
  else
    let b := mgrBytes s (rd s f_GEN_FW_ADDR_ADDR) (max 512 (rd s f_GEN_FW_LEN_LEN))
    (b, fwCheck s err b)

/-- The firmware of an image. -/
def fwOf (b : List Byte) (runtime : List Byte) : Fw := ⟨le b 12 4, le b 16 4, sha384 (b.take (le b 8 4)), runtime⟩

/-- Components after a start. -/
def fwStart (s : State) : State := { s with boot := { s.boot with comps := [] } }

/-- GO is 1 (R413): no operation may start. -/
def fwBusy (s : State) : Bool := rd s f_GEN_FW_CTL_GO == 1 || s.boot.activating

/-- OP LOAD with GO (R413): `err` says that a read of the image completed with an error; `runtime` is the cell runtime that the
image carries. -/
def execFirmwareLoad (err : Bool) (runtime : List Byte) (s : State) : Ans := keepQueue s <|
  let s := wr s f_GEN_FW_CTL_OP 0
  if rd s f_GEN_STATE_STATE ≠ 3 ∨ fwBusy s then .next (writeIgnored s)
  else
    let (b, r) := fwFetch s err
    if r ≠ 0 then .next (fwResult s r)
    else
      let s := wr (wr (wr s f_GEN_FW_CTL_RESULT 1) f_GEN_FW_CTL_GO 1) f_GEN_STATE_STATE 4
      .next (fwStart { s with boot := { s.boot with
        fw := some (fwOf b runtime)
        goAt := s.clk } })

/-- OP ACTIVATE with GO (R418). -/
def execFirmwareActivate (err : Bool) (runtime : List Byte) (s : State) : Ans := keepQueue s <|
  let s := wr s f_GEN_FW_CTL_OP 1
  if !afterBoot s || fwBusy s then .next (writeIgnored s)
  else
    let (b, r) := fwFetch s err
    if r ≠ 0 then .next (fwResult s r)
    else if le b 14 2 ≠ (s.boot.fw.map Fw.fwif).getD 0 / 2 ^ 16 then .next (fwResult s 9)
    else
      let s := wr (wr s f_GEN_FW_CTL_RESULT 1) f_GEN_FW_CTL_GO 1
      .next { s with boot := { s.boot with next := some (fwOf b runtime) } }

/-- Shows the interface version of the running firmware. -/
def showFwif (s : State) : State := setReg s f_GEN_FWIF_MAJOR.key (BitVec.ofNat 64 ((s.boot.fw.map Fw.fwif).getD 0))

/-- The new firmware takes over (R418): GEN_FWIF changes, held turnout commands resume. -/
def execActivationComplete (s : State) : Ans := keepQueue s <|
  match s.boot.next with
  | none => .next s
  | some f =>
    let s := fwStart { s with boot := { s.boot with
      fw := some f
      next := none } }
    let s := { s with trn := { s.trn with cmd := s.trn.cmd.map (fun c => { c with at_ := s.clk }) } }
    .next (fwResult (showFwif s) 2)

/-- OP SVN_COMMIT with GO (R414). -/
def execSvnCommit (s : State) : Ans := keepQueue s <|
  let s := wr s f_GEN_FW_CTL_OP 2
  if !afterBoot s || fwBusy s then .next (writeIgnored s)
  else
    let v := (s.boot.fw.map Fw.svn).getD 0
    .next (fwResult { s with boot := { s.boot with rollback := max s.boot.rollback v } } 2)

/-- Does a part that self-test marked keep the device DEGRADED (R398). -/
def partsLost (s : State) : Bool :=
  let on (r : Nat) : Bool := bit (rd s f_BST_REGION_V) r
  (List.range 16).any (fun r => s.boot.regions.getLsbD r && !on r) ||
  (List.range 256).any (fun c => on (c / 16) && !bit (rd s (f_BST_CELL_V (c / 32))) (c % 32)) ||
  (List.range 16).any (fun r => (List.range 8).any (fun j => rd s (f_RGN_GRAN_RETIRED_RETIRED r j) != 0))

/-- The firmware reports ready within 2 s of GO, and BOOT ends (R398, R413, R12). -/
def execFirmwareReady (s : State) : Ans := keepQueue s <|
  if rd s f_GEN_STATE_STATE ≠ 4 ∨ s.boot.goAt + 2_000_000_000 < s.clk then .next s
  else .next (fwResult (showFwif (wr s f_GEN_STATE_STATE (if partsLost s then 6 else 5))) 2)

/-- The firmware is not ready 2 s after GO (R413). -/
def execBootTimeout (s : State) : Ans := keepQueue s <|
  if rd s f_GEN_STATE_STATE ≠ 4 ∨ s.clk < s.boot.goAt + 2_000_000_000 then .next s
  else
    let s := fwStart { s with boot := { s.boot with fw := none } }
    .next (fwResult (wr s f_GEN_STATE_STATE 3) 8)

/-! ### Components (R417) -/

/-- A firmware component. -/
def compOf (s : State) (k : Nat) : Comp := sget Comp.reset s.boot.comps k

/-- Replaces a component. -/
def setComp (s : State) (k : Nat) (c : Comp) : State :=
  { s with boot := { s.boot with comps := sput Comp.reset s.boot.comps k c } }

/-- Requests that a component held complete with DEVICE_FAULT: the turnout command in progress, or the sideband's. -/
def compDrops (s : State) (k : Nat) : State :=
  match s.trn.cmd with
  | some c => if (k = 1 ∧ c.op ≤ 3) ∨ (k = 2 ∧ 3 < c.op) then cmdDone s stFault else s
  | none => s

/-- The sideband's held requests receive their error answers (R417). -/
def sideDrops (s : State) (k : Nat) : State :=
  if k = 6 then
    let s := s.side.queue.foldl (fun s _ => emit s (.side 0 2 [])) s
    { s with side := { s.side with queue := [] } }
  else s

/-- A component crashes (R417): restarted, or stopped by a fourth crash within 60 s of the first of three earlier ones. -/
def compCrash (s : State) (k : Nat) : State :=
  let c := compOf s k
  if s.boot.fw.isNone || c.stopped then s
  else
    let s := sideDrops (compDrops s k) k
    let last := c.crashes.take 3
    if last.length = 3 ∧ s.clk ≤ last.getD 2 0 + 60_000_000_000 then
      event (setComp s k ⟨s.clk :: last, true⟩) 0x19D 2 0x11 k
    else event (setComp s k ⟨s.clk :: last, false⟩) 0x19D 3 0x10 k

/-- A component traps or breaks its confinement (R417). -/
def execComponentCrash (k : Fin 8) (s : State) : Ans := keepQueue s <| .next (compCrash s k)

/-- A component misses its 50 ms heartbeat (R417). -/
def execComponentHeartbeatMiss (k : Fin 8) (s : State) : Ans := keepQueue s <| .next (compCrash s k)

end Sys2Proof.Machine
end

