-- ==== Sys2Proof/Machine/FaultOps.lean ====
section
/-! DEFINITION. Machine/FaultOps.lean: the fault controller's windows, clears, recovery and injection, and the telemetry
snapshot (R425–R432).
Choices beyond the words of the spec: log entries DESIGN CHOICE 60; PRESUMED 64. -/

namespace Sys2Proof.Machine

/-! ### Windows and clears (R425, R426) -/

/-- A source's counting window of FLT_CFG.WIN ms closes (R425); an event at that instant has counted (R12). -/
def execFaultWindowClose (src : Fin 512) (s : State) : Ans := keepQueue s <|
  .next (if windowOver s src then closeWindow s src else s)

/-- Is a source's ACTIVE set under a reaction with INT (R451). -/
def activeInt (s : State) (src : Nat) : Bool :=
  rd s (f_FLT_STAT_ACTIVE src) == 1 &&
  (bit (rd s (f_FLT_REACT_UE src)) 0 || (rd s (f_FLT_STAT_LASTING src) == 1 && bit (rd s (f_FLT_REACT_LAST src)) 0) ||
    bit (rd s (f_FLT_REACT_CE src)) 0)

/-- SMB_ALERT_N is released once no such source is left (R451). -/
def alertPin (s : State) : State :=
  { s with side := { s.side with alert := s.side.alert && (List.range 0x1A0).any (activeInt s) } }

/-- The code and detail of the condition that holds PRESENT. -/
def condOf (s : State) (src : Nat) : Nat := sget 0 s.flt.cond src - 1

/-- A W1C of ACTIVE (R426): a persisting condition is recorded again, at most once per 10 ms. -/
def execFaultClearActive (src : Fin 512) (s : State) : Ans := keepQueue s <|
  if !barOpen s || rd s (f_FLT_STAT_ACTIVE src) == 0 then .next s
  else if rd s (f_FLT_STAT_PRESENT src) = 0 then
    .next (alertPin (errPin (wr (wr s (f_FLT_STAT_ACTIVE src) 0) (f_FLT_STAT_PINNED src) 0)))
  else
    let last := sget 0 s.flt.rep src
    if last ≠ 0 ∧ s.clk < last - 1 + 10_000_000 then .next (incF s f_FLT_HIST_DROP_V 1)
    else
      let s := { s with flt := { s.flt with rep := sput 0 s.flt.rep src (1 + s.clk) } }
      .next (uncorr s src (condOf s src / 2 ^ 24) (condOf s src % 2 ^ 24) 0 true)

/-- A W1C of LASTING (R426): the window closes, and a DEGRADED device may return to OPERATIONAL. -/
def execFaultClearLasting (src : Fin 512) (s : State) : Ans := keepQueue s <|
  if !barOpen s || rd s (f_FLT_STAT_LASTING src) == 0 then .next s
  else
    let s := closeWindow (wr s (f_FLT_STAT_LASTING src) 0) src
    let other := (List.range 0x1A0).any (fun k => rd s (f_FLT_STAT_LASTING k) == 1)
    .next (if rd s f_GEN_STATE_STATE = 6 ∧ other = false ∧ partsLost s = false then wr s f_GEN_STATE_STATE 5 else s)

/-! ### Recovery and injection (R427, R429) -/

/-- Is a unit whose reset a fault reaction raised still in reset. -/
def rstPending (s : State) : Bool := s.flt.rsts.any (fun p => srcInReset s p.1)

/-- The NMI handler has returned; the recovery ends once every reaction reset has completed (R427). -/
def execRecoveryEnd (s : State) : Ans := keepQueue s <|
  if rd s f_FLT_PIN_RECOVERY = 0 ∨ rstPending s = true then .next s
  else .next (wr { s with flt := { s.flt with
    nmi := 0
    rsts := [] } } f_FLT_PIN_RECOVERY 0)

/-- An injected event, with INJECTED in its history entry (R428, R429). -/
def inject (s : State) (src cls code detail : Nat) : State :=
  if src > 0x19F || srcInReset s src then s
  else match cls with
    | 0 => corr s src code detail 1
    | 1 => uncorr s src code detail 1 false
    | 2 => promoted s src code detail 1
    | _ => infoEvent s src code detail 1

/-- A write of FLT_INJ with GO = 1 (R429). -/
def execFaultInject (cls : Fin 4) (src : BitVec 9) (code : Byte) (detail : BitVec 24) (s : State) : Ans := keepQueue s <|
  if !barOpen s then .next s
  else if rd s f_FLT_INJ_AVAIL = 0 then .next (writeIgnored s)
  else
    let s := wr (wr (wr (wr s f_FLT_INJ_CLASS cls) f_FLT_INJ_SOURCE src.toNat) f_FLT_INJ_CODE code.toNat) f_FLT_INJ_DETAIL detail.toNat
    .next (inject s src.toNat cls code.toNat detail.toNat)

/-! ### Telemetry (R430–R432) -/

/-- What the copy of a counter register holds: its value, or its reset value while its region is in reset (R431). -/
def counterNow (s : State) (off : Nat) : DWord :=
  match counterRegion off with
  | some r => if nin s.fab.regionRst r then regReset off else regv s off
  | none => regv s off

/-- Every unit copies its counters to their shadows, and the histograms theirs (R431). -/
def snapCopy (s : State) : State :=
  let s := (List.range catalogue.length).foldl (fun s i => setReg s (f_TEL_SHD_V i).key (counterNow s (catalogue.getD i (0, 4)).1)) s
  { s with
    sch := { s.sch with shadow := s.sch.hist }
    flt := { s.flt with snap := 1 } }

/-- A snapshot is made and DONE is set; where the tick of its instant has copied, the copies stand (R431). -/
def snapshot (s : State) : State :=
  let s := if s.flt.snap = 1 then s else snapCopy s
  wr (wr { s with flt := { s.flt with snap := 2 } } f_TEL_SNAP_CTL_ARM 0) f_TEL_SNAP_CTL_DONE 1

/-- In the first cycle in which the time base reads at or after AT, every unit copies (R431). -/
def tickSnap (s : State) : State :=
  if rd s f_TEL_SNAP_CTL_ARM = 1 ∧ s.flt.snap = 0 ∧ (regv s f_TEL_SNAP_AT_V.key).toNat ≤ now s then snapCopy s else s

/-- The manager writes TEL_SNAP_CTL.ARM for the instant in TEL_SNAP_AT (R431); one that has passed copies at once. -/
def execTelSnapArm (s : State) : Ans := keepQueue s <|
  if !barOpen s then .next s
  else if rd s f_TEL_SNAP_CTL_ARM = 1 then .next (writeIgnored s)
  else
    let late := decide ((regv s f_TEL_SNAP_AT_V.key).toNat < now s)
    let s := wr (wr { s with flt := { s.flt with snap := 0 } } f_TEL_SNAP_CTL_ARM 1) f_TEL_SNAP_CTL_LATE (b2n late)
    .next (if late then snapshot s else s)

/-- The time base reads at or after AT, every unit has copied, and DONE follows (R431). -/
def execSnapshotCopy (s : State) : Ans := keepQueue s <|
  if rd s f_TEL_SNAP_CTL_ARM = 1 ∧ (regv s f_TEL_SNAP_AT_V.key).toNat ≤ now s then .next (snapshot s) else .next s

/-- Has TEL_DR_PERIOD passed since the ditch rider's last poll (R432). -/
def pollDue (s : State) : Bool := decide (s.flt.polled = 0) || decide (s.flt.polled - 1 + 1_000_000 * rd s f_TEL_DR_PERIOD_V ≤ s.clk)

/-- The ditch rider reads the live counters for the BMC (R432): component 7, while it runs, a period after its last poll or, behind
with its work, later. -/
def execDitchRiderPoll (s : State) : Ans := keepQueue s <|
  if s.boot.fw.isNone || compStopped s 7 || !pollDue s then .next s
  else .next (emit { s with flt := { s.flt with polled := 1 + s.clk } } (.side 0 3 (catalogue.flatMap (fun p => natLE 8 (regv s p.1).toNat))))

end Sys2Proof.Machine
end

