-- ==== Sys2Proof/Machine/Debug.lean ====
section
/-! DEFINITION. Machine/Debug.lean: the debug port: its TAP, its commands, its lock (R433–R436).
Choices beyond the words of the spec: log entries DEDUCED 27, 61, 62; PRESUMED 7. -/

namespace Sys2Proof.Machine

/-! ### The TAP (R433) -/

/-- Selects a TAP instruction. -/
def tapIr (s : State) (code : Nat) : State := { s with dbg := { s.dbg with ir := code } }

/-- EXTEST: the pins follow the boundary scan latches. -/
def execExtest (s : State) : Ans := keepQueue s <|
  let s := tapIr s 0x00
  .next (emit s (.side 4 0 s.dbg.bscan))

/-- SAMPLE/PRELOAD: the pins are captured and the latches preloaded. -/
def execSamplePreload (data : List Byte) (s : State) : Ans := keepQueue s <|
  let (pins, s) := freshBytes (tapIr s 0x01) data.length
  .next (emit { s with dbg := { s.dbg with bscan := data } } (.side 4 1 pins))

/-- BYPASS, or a code that is no instruction. -/
def execBypass (code : Byte) (s : State) : Ans := keepQueue s <|
  if code.toNat ∈ [0x00, 0x01, 0x10, 0x11, 0x12] then .next s else .next (tapIr s code.toNat)

/-- DSEL: the flat cell number. -/
def execDsel (c : Fin 256) (s : State) : Ans := keepQueue s <|
  let s := tapIr s 0x10
  .next { s with dbg := { s.dbg with sel := c } }

/-! ### Commands (R434, R435) -/

/-- Ends a command with a status and a result. -/
def dbgEnd (s : State) (status : Nat) (result : DWord) : State :=
  { s with dbg := { s.dbg with
    status := status
    result := result } }

/-- A refused command: an INFO event at most once per 10 ms (R434). -/
def dbgRefuse (s : State) : State :=
  let last := s.flt.dbgRef
  let s := dbgEnd s 2 0
  if last ≠ 0 ∧ s.clk < last - 1 + 10_000_000 then s
  else event { s with flt := { s.flt with dbgRef := 1 + s.clk } } 0x19F 3 0x16 2

/-- STATUS is busy: commands are ignored (R433). -/
def dbgBusy (s : State) : Bool := s.dbg.status == 1

/-- The port is unlocked; in the cycle of expiry it no longer is (R436). -/
def dbgOpen (s : State) : Bool := rd s f_DBG_CTL_STATE == 2 && decide (s.clk < s.dbg.until_)

/-- Does a turnout lie in DBG_SCOPE. -/
def turnInScope (s : State) (t : Nat) : Bool := decide (t < 512) && bit (rd s (f_DBG_SCOPE_V (t / 32))) (t % 32)

/-- Does a cell lie in scope. -/
def cellInScope (s : State) (c : Nat) : Bool := turnInScope s (cellOf s c).turnout.toNat

/-- A command on the selected cell that needs a claim. -/
def dbgCmd (s : State) (k : Nat → Cell → State → State) : Ans :=
  let s := tapIr s 0x11
  let c := s.dbg.sel
  if dbgBusy s then .next s
  else if dbgOpen s && cellInScope s c && (cellOf s c).dbg.claimed then .next (k c (cellOf s c) s) else .next (dbgRefuse s)

/-- DSTAT (R435). -/
def dstat (x : Cell) : Nat := x.dbg.reason + 16 * x.dbg.index + 64 * b2n x.dbg.claimed

/-- STATUS. -/
def execDebugStatus (s : State) : Ans := keepQueue s <|
  let s := tapIr s 0x11
  if dbgBusy s then .next s else .next (dbgEnd s 0 (BitVec.ofNat 64 (dstat (cellOf s s.dbg.sel))))

/-- CLAIM: no claim is needed before. -/
def execClaim (s : State) : Ans := keepQueue s <|
  let s := tapIr s 0x11
  let c := s.dbg.sel
  if dbgBusy s then .next s
  else if dbgOpen s && cellInScope s c then
    .next (dbgEnd (modCell s c (fun x => { x with dbg := { x.dbg with claimed := true } })) 0 0)
  else .next (dbgRefuse s)

/-- What a halted core goes on with. -/
def resumeTo (r : Run) : Run :=
  match r with
  | .debug | .saved => .running
  | r => r

/-- A halted cell goes on, and one whose PARK was waiting parks once its queues are empty (R213); its first instruction does not stop on its own breakpoint or watchpoint (R435). -/
def resumeCell (x : Cell) (step : Bool) : Cell :=
  if x.k.run == .debug then
    let dbg := { x.dbg with reason := 0, index := 0, stepping := step, skip := true, haltReq := false }
    { x with
      k := { x.k with run := resumeTo x.dbg.resumeRun }
      dbg := dbg }
  else x

/-- RELEASE: no breakpoint, no watchpoint, no claim; a halted cell goes on. -/
def releaseCell (x : Cell) : Cell :=
  let y := resumeCell x false
  let dbg := { y.dbg with claimed := false, bp := [], wp := [], haltReq := false }
  { y with dbg := dbg }

/-- RELEASE. -/
def execDebugRelease (s : State) : Ans := keepQueue s <| dbgCmd s fun c _ s => dbgEnd (parkCheck (modCell s c releaseCell) c) 0 0

/-- HALT: at the next instruction boundary; a blocking access, a reload or a division ends first, a SWAIT re-issues (R435). -/
def haltAt (x : Cell) : Cell :=
  let now (r : Run) : Cell :=
    let dbg := { x.dbg with reason := 1, index := 0, haltReq := false, resumeRun := r }
    { x with
      k := { x.k with run := .debug }
      dbg := dbg }
  match x.k.run with
  | .debug => x
  | .running | .swait _ => now .running
  | .parking => now .parking
  | .parked => now .parked
  | .halted => now .halted
  | .stopped => now .stopped
  | _ => { x with dbg := { x.dbg with haltReq := true } }

/-- HALT. -/
def execHalt (s : State) : Ans := keepQueue s <| dbgCmd s fun c _ s => dbgEnd (modCell s c haltAt) 0 0

/-- RESUME. -/
def execResume (s : State) : Ans := keepQueue s <| dbgCmd s fun c _ s => dbgEnd (parkCheck (modCell s c (fun x => resumeCell x false)) c) 0 0

/-- STEP: the next instruction of the cell runs and halts it again. -/
def execStep (s : State) : Ans := keepQueue s <| dbgCmd s fun c _ s => dbgEnd (parkCheck (modCell s c (fun x => resumeCell x true)) c) 0 0

/-! ### Registers and memory of a halted cell -/

/-- A command that needs the cell halted: an error otherwise. -/
def haltedCmd (s : State) (k : Nat → Cell → State → State) : Ans :=
  dbgCmd s fun c x s => if x.k.run == .debug then k c x s else dbgEnd s 3 0

/-- A debug register F00h–F08h. -/
def dbgReg (x : Cell) (n : Nat) : Word :=
  if n < 4 then sget 0 x.dbg.bp n else if n < 8 then sget 0 x.dbg.wp (n - 4) else BitVec.ofNat 32 (dstat x)

/-- The value that RD_REG reads; none for an ARG that names no register. The halves that an MFC would capture stay as they are
(DEDUCED, log entry 61). -/
def rdReg (s : State) (c : Nat) (x : Cell) (arg : Nat) : Option Word :=
  if arg < 0x20 then some (gReg x.k (BitVec.ofNat 5 arg))
  else if arg = 0x20 then some x.k.pc
  else if 0x400 ≤ arg ∧ crListed (BitVec.ofNat 12 (arg - 0x400)) = true ∧ arg < 0x500 then some (crRead s c (arg - 0x400)).1
  else if 0xF00 ≤ arg ∧ arg ≤ 0xF08 then some (dbgReg x (arg - 0xF00))
  else none

/-- RD_REG. -/
def execRdReg (arg : Word) (s : State) : Ans := keepQueue s <| haltedCmd s fun c x s =>
  match rdReg s c x arg.toNat with
  | some v => dbgEnd s 0 (v.zeroExtend 64)
  | none => dbgEnd s 3 0

/-- A write of a debug register: none for a watchpoint whose LOG2SIZE lies outside 2–20; DSTAT is read-only. -/
def setDbgReg (x : Cell) (n : Nat) (v : Word) : Option Cell :=
  if n < 4 then some { x with dbg := { x.dbg with bp := sput 0 x.dbg.bp n (v &&& 0xFFFFFFFD#32) } }
  else if n = 4 ∨ n = 6 then some { x with dbg := { x.dbg with wp := sput 0 x.dbg.wp (n - 4) v } }
  else if n = 5 ∨ n = 7 then
    let k := bits v.toNat 12 8
    if k < 2 ∨ 20 < k then none
    else some { x with dbg := { x.dbg with wp := sput 0 x.dbg.wp (n - 4) (v &&& 0x80001F03#32) } }
  else some x

/-- The cell after WR_REG; none for an ARG or a value that is an error. -/
def wrReg (s : State) (x : Cell) (arg : Nat) (v : Word) : Option Cell :=
  if arg < 0x20 then some { x with k := setG x.k (BitVec.ofNat 5 arg) v }
  else if arg = 0x20 then (if v.toNat % 4 = 0 then some { x with k := { x.k with pc := v } } else none)
  else if 0x400 ≤ arg ∧ crListed (BitVec.ofNat 12 (arg - 0x400)) = true ∧ arg < 0x500 then (crWrite s x.k (arg - 0x400) v).map (fun k => { x with k := k })
  else if 0xF00 ≤ arg ∧ arg ≤ 0xF08 then setDbgReg x (arg - 0xF00) v
  else none

/-- WR_REG: the write data of DDATA. -/
def execWrReg (arg : Word) (s : State) : Ans := keepQueue s <| haltedCmd s fun c x s =>
  match wrReg s x arg.toNat (s.dbg.wdata.truncate 32) with
  | some y => dbgEnd (setCell s c y) 0 0
  | none => dbgEnd s 3 0

/-- The memory accesses of the debug port on a cell. -/
def dbgVia (c : Nat) : Via := ⟨regionOf c, .debug, false, none⟩

/-- A supervisor load of 8 bytes through the cell's map (R93, R434); it may wait for an answer through a port. -/
def dbgLoad (s : State) (c a : Nat) : Except MErr (List Byte) × State :=
  let own (pa : Nat) : Except MErr (List Byte) × State :=
    let (bad, s) := checkRange s pa 8 true
    (if bad then .error .poison else .ok (memBytes s pa 8), s)
  match localOf a with
  | .imem o => own (imemPA c + o)
  | .scratch o => own (scratchPA c + o)
  | .none => (.error .denied, s)
  | _ => runMM s (do
      let pa ← localPA c a false
      physRead (dbgVia c) (cellOf s c).turnout.toNat pa 8)

/-- The load of a RD_MEM: its result, or busy while the answer is out (R433). -/
def dbgRead (s : State) (c a : Nat) : State :=
  match dbgLoad s c a with
  | (.ok l, s) =>
    let s := dropAsks s (fun x => decide (x = .debug))
    dbgEnd { s with dbg := { s.dbg with wait := none } } 0 (BitVec.ofNat 64 (leNat l))
  | (.error (.wait q), s) => dbgEnd { askPort s q with dbg := { s.dbg with wait := some (c, a) } } 1 0
  | (.error _, s) =>
    let s := dropAsks s (fun x => decide (x = .debug))
    dbgEnd { s with dbg := { s.dbg with wait := none } } 3 0

/-- RD_MEM. -/
def execRdMem (a : Word) (s : State) : Ans := keepQueue s <| haltedCmd s fun c _ s =>
  if a.toNat % 8 ≠ 0 then dbgEnd s 3 0 else dbgRead s c a.toNat

/-- DDATA: STATUS and result are captured, the write data updated. An access that waited may be done by then. -/
def execDdata (w : DWord) (s : State) : Ans := keepQueue s <|
  let s := tapIr s 0x12
  let s := match s.dbg.wait with
    | some (c, a) => dbgRead s c a
    | none => s
  let s := emit s (.rdata 6 (natLE 8 s.dbg.result.toNat ++ natLE 1 s.dbg.status))
  .next { s with dbg := { s.dbg with wdata := w } }

/-- A supervisor store of 8 bytes through the cell's map; the flag says that it was made. -/
def dbgStore (s : State) (c a : Nat) (l : List Byte) : Bool × State :=
  match localOf a with
  | .imem o => putMem s (imemPA c + o) l false
  | .scratch o => putMem s (scratchPA c + o) l false
  | .none => (false, s)
  | _ =>
    let (r, s) := runMM s (do
      let pa ← localPA c a true
      physWrite (dbgVia c) (cellOf s c).turnout.toNat pa l false)
    match r with
    | .ok _ => (true, s)
    | .error _ => (false, s)

/-- WR_MEM: the write data of DDATA. -/
def execWrMem (a : Word) (s : State) : Ans := keepQueue s <| haltedCmd s fun c _ s =>
  if a.toNat % 8 ≠ 0 then dbgEnd s 3 0
  else
    let (ok, s) := dbgStore s c a.toNat (natLE 8 s.dbg.wdata.toNat)
    dbgEnd s (if ok then 0 else 3) 0

/-- RESET: source 15 for the unit that contains the cell, every cell of which must lie in scope; a CHIP reset needs every turnout
that is not FREE in scope (R403, R434). -/
def execDebugReset (s : State) : Ans := keepQueue s <| dbgCmd s fun c _ s =>
  let unit (lo n : Nat) (k : State → State) : State :=
    if (List.range n).all (fun i => cellInScope s (lo + i)) then dbgEnd (k (seen s 15)) 0 0 else dbgRefuse s
  match sourceLevel s 15 with
  | 2 => unit c 1 (fun s => reqCellReset s 0x19F c)
  | 3 => unit (c / 4 * 4) 4 (fun s => reqBlockReset s 0x19F (c / 4))
  | 4 => unit (c / 16 * 16) 16 (fun s => reqRegionReset s 0x19F (c / 16))
  | 6 => if (liveTurns s).all (turnInScope s) then chipSource s 15 s.clk else dbgRefuse s
  | _ => dbgEnd s 0 0

/-- A fetch matches an enabled breakpoint (R435). -/
def execBreakpointHit (c : Fin 256) (s : State) : Ans := keepQueue s <|
  if canIssue s c then
    match fetchCheck s c with
    | .bp i => .next (dbgHalt s c 2 i)
    | _ => .next s
  else .next s

/-! ### The lock (R436) -/

/-- Does the firmware serve the lock. -/
def fwUp (s : State) : Bool := barOpen s && s.boot.fw.isSome

/-- REQ: a fresh nonce of 32 bytes at DBG_CHAL. -/
def execDebugNonceRequest (s : State) : Ans := keepQueue s <|
  if !fwUp s then .next s
  else
    let (n, s) := freshBytes s 32
    let s := (List.range 8).foldl (fun s i => wr s (f_DBG_CHAL_V i) (le n (4 * i) 4)) s
    let s := if rd s f_DBG_CTL_STATE = 2 then s else wr s f_DBG_CTL_STATE 1
    .next { s with dbg := { s.dbg with nonceAt := 1 + s.clk } }

/-- Bytes of a run of 4-byte registers. -/
def regBytes (s : State) (f : Nat → Fld) (n : Nat) : List Byte := (List.range n).flatMap (fun i => natLE 4 (rd s (f i)))

/-- RESULT of a response (R436). -/
def dbgCheck (s : State) (r : List Byte) : Nat :=
  let key := sget FuseKey.none s.boot.keys (le r 0 2)
  let msg := regBytes s f_DBG_CHAL_V 8 ++ regBytes s f_DBG_SCOPE_V 16 ++ r.take 8
  if s.dbg.nonceAt = 0 ∨ s.dbg.nonceAt - 1 + 60_000_000_000 < s.clk then 5
  else if !zeroAt r 2 2 ∨ !zeroAt r 105 7 ∨ !zeroAt r 208 48 ∨ le r 4 4 = 0 ∨ 86400 < le r 4 4 then 2
  else if 3 < le r 0 2 ∨ key.revoked ∨ key.digest ≠ sha384 ((r.drop 8).take 97) then 3
  else if le r 8 1 ≠ 4 ∨ !ecdsaVerify (sha384 msg) ((r.drop 9).take 96) ((r.drop 112).take 96) then 4
  else 1

/-- VERIFY: the response is checked, and the port unlocks for DURATION; where it is unlocked already, only DURATION starts anew
(DEDUCED, log entry 62). -/
def execDebugVerify (s : State) : Ans := keepQueue s <|
  if !fwUp s then .next s
  else
    let r := regBytes s f_DBG_RESP_V 64
    let k := dbgCheck s r
    let s := wr s f_DBG_CTL_RESULT k
    if k = 5 then .next (if rd s f_DBG_CTL_STATE = 1 then wr s f_DBG_CTL_STATE 0 else s)
    else if k ≠ 1 then .next s
    else
      let was := rd s f_DBG_CTL_STATE
      let t := wr { s with dbg := { s.dbg with
        nonceAt := 0
        until_ := s.clk + 1_000_000_000 * le r 4 4 } } f_DBG_CTL_STATE 2
      .next (if was = 2 then t else event t 0x19F 3 0x16 0)

/-- The port relocks: every claimed cell is released (R436). -/
def relock (s : State) : State :=
  let s := (List.range 256).foldl (fun s c => if (cellOf s c).dbg.claimed then modCell s c releaseCell else s) s
  event { wr s f_DBG_CTL_STATE 0 with dbg := { s.dbg with
    nonceAt := 0
    until_ := 0 } } 0x19F 3 0x16 1

/-- LOCK. A nonce that waits for its answer is void. -/
def execDebugLock (s : State) : Ans := keepQueue s <|
  if !barOpen s then .next s
  else if rd s f_DBG_CTL_STATE = 2 then .next (relock s)
  else .next { wr s f_DBG_CTL_STATE 0 with dbg := { s.dbg with nonceAt := 0 } }

/-- DURATION expires. -/
def execDebugUnlockExpiry (s : State) : Ans := keepQueue s <|
  if rd s f_DBG_CTL_STATE = 2 ∧ s.dbg.until_ ≤ s.clk then .next (relock s) else .next s

/-- A nonce has not been answered for 60 s (R436). -/
def execNonceVoid (s : State) : Ans := keepQueue s <|
  if s.dbg.nonceAt ≠ 0 ∧ overdue s (s.dbg.nonceAt - 1 + 60_000_000_000) = true then
    let s := if rd s f_DBG_CTL_STATE = 1 then wr s f_DBG_CTL_STATE 0 else s
    .next { s with dbg := { s.dbg with nonceAt := 0 } }
  else .next s

end Sys2Proof.Machine
end

