-- ==== Sys2Proof/Machine/Power.lean ====
section
/-! DEFINITION. Machine/Power.lean: the power cap, the thermal thresholds, PROCHOT_N, droop stretching and the regulators
(R443–R447, R456).
Choices beyond the words of the spec: log entries DESIGN CHOICE 15, 63. -/

namespace Sys2Proof.Machine

/-- The envelope of the ordering code, W (R4). -/
def envelope : Nat := if Config.b15l then 1200 else 1500

/-- Region clock edges of one ns at STEP 16 and full rate, in 1/32000 cycle: 1.80 GHz or 1.50 GHz (R4, R444). -/
def edgesPerNs : Nat := if Config.b15l then 48000 else 57600

/-- Sets STEP in every region (R444). -/
def setStep (s : State) (k : Nat) : State := wr s f_PWR_STAT_STEP k

/-- The limit of R445: PWR_CAP.WATTS, or the envelope when it is 0 or above it. -/
def powerLimit (s : State) : Nat :=
  let w := rd s f_PWR_CAP_WATTS
  if w = 0 ∨ envelope < w then envelope else w

/-- What a measurement finds: POWER above the limit, and below 95 % of it (R445). -/
structure Measured where
  /-- POWER is above the limit. -/
  above : Bool
  /-- POWER is below 95 % of the limit. -/
  below : Bool
deriving DecidableEq, Repr

/-- Measurements in a row below 95 % of the limit, this one included; they count anew from the release of PROCHOT_N (R445, R446). -/
def lowRun (s : State) (m : Measured) : Nat := if rd s f_PWR_STAT_PROCHOT = 1 ∨ m.below = false then 0 else s.pwr.low + 1

/-- May a measurement move STEP: PROCHOT_N is high and every regulator answers (R446, R456). -/
def stepFree (s : State) : Bool := s.pwr.silent.isEmpty && rd s f_PWR_STAT_PROCHOT == 0

/-- Does a measurement lower STEP: POWER above the limit, or a sensor at THROTTLE (R445, R447). -/
def goesDown (s : State) (m : Measured) : Bool := stepFree s && (m.above || s.pwr.hot)

/-- Does a measurement raise STEP: RAISE measurements in a row below 95 % of the limit, where R447 allows it (R445). -/
def goesUp (s : State) (m : Measured) : Bool :=
  stepFree s && !m.above && !s.pwr.hot && !s.pwr.noRise && decide (rd s f_PWR_CAP_RAISE ≤ lowRun s m) && decide (rd s f_PWR_STAT_STEP < 16)

/-- STEP after a measurement (R445): one down, to 4 at least, or one up. -/
def nextStep (s : State) (m : Measured) : Nat :=
  let k := rd s f_PWR_STAT_STEP
  if goesDown s m then max 4 (k - 1) else if goesUp s m then k + 1 else k

/-- CAPPED after a measurement (R445): set by POWER above the limit, cleared at STEP 16. -/
def nextCapped (s : State) (m : Measured) : Nat :=
  if m.above then 1 else if nextStep s m = 16 then 0 else rd s f_PWR_STAT_CAPPED

/-- What the power controller does at the end of a measurement (R445–R447, R456); POWER above the limit at STEP 4 records an event
once per entry into that state. -/
def control (s : State) (m : Measured) : State :=
  let above := m.above && decide (rd s f_PWR_STAT_STEP ≤ 4)
  let t := wr (setStep s (nextStep s m)) f_PWR_STAT_CAPPED (nextCapped s m)
  let t := { t with pwr := { t.pwr with
    overLimit := above
    low := if goesUp s m then 0 else lowRun s m } }
  if above && !s.pwr.overLimit then event t 0x19B 1 0x14 0x80 else t

/-- The readings of a measurement: the regulators that answered, each with its READ_POUT. -/
def takeReadings (s : State) (l : List (Fin 11 × BitVec 16)) : State :=
  l.foldl (fun s p => { s with pwr := { s.pwr with
    readings := sput 0 s.pwr.readings p.1 p.2.toNat
    silent := ndel s.pwr.silent p.1 } }) s

/-- Do the device's clocks run: powered, not in reset, with its reference clock. -/
def clocksRun (s : State) : Bool := s.boot.powered && !s.boot.inRst && !s.boot.refLost

/-- The end of a 1 ms measurement (R445, R446, R447, R456); in reset the PMBus is released (R460). -/
def execPowerMeasurement (l : List (Fin 11 × BitVec 16)) (s : State) : Ans := keepQueue s <|
  if !clocksRun s then .next s
  else
    let s := takeReadings s l
    let p := s.pwr.readings.foldl (fun a r => a + r.2) 0
    let s := wr s f_PWR_STAT_POWER (min p 65535)
    .next (control s ⟨decide (powerLimit s < p), decide (100 * p < 95 * powerLimit s)⟩)

/-- Detail FFh of event 13h: PROCHOT_N (R446). -/
def prochotCond : Nat := 1 + 0x13 * 2 ^ 24 + 0xFF

/-- PRESENT of the thermal source after one of its conditions has ended: it stays while PROCHOT_N is low or a sensor's event lasts,
and a repeat names the condition that lasts (R421, R446, R447; DESIGN CHOICE, log entry 63). -/
def thermPresent (s : State) : State :=
  let low := rd s f_PWR_STAT_PROCHOT = 1
  if ¬ low ∧ s.pwr.hotSrc = 0 then clearPresent s 0x19C
  else if s.pwr.hotSrc = 0 then setPresent s 0x19C 0x13 0xFF
  else if ¬ low then setPresent s 0x19C 0x13 (s.pwr.hotSrc - 1)
  else s

/-- PROCHOT_N has been low for 1 µs while the device runs (R446): STEP 4 in every region. -/
def prochotLow (s : State) : State :=
  if rd s f_PWR_STAT_PROCHOT = 1 then s else condEvent (wr (setStep s 4) f_PWR_STAT_PROCHOT 1) 0x19C 0x13 0xFF

/-- PROCHOT_N has been low for 1 µs (R446). A device in reset acts on the level when it runs again. -/
def execProchotAssert (s : State) : Ans := keepQueue s <|
  let s := { s with pwr := { s.pwr with pin := true } }
  .next (if clocksRun s then prochotLow s else s)

/-- A device that comes out of reset with PROCHOT_N low (R446, R458). -/
def tickProchot (s : State) : State := if s.pwr.pin then prochotLow s else s

/-- PROCHOT_N returns high (R446). -/
def execProchotRelease (s : State) : Ans := keepQueue s <|
  let s := { s with pwr := { s.pwr with pin := false } }
  .next (if rd s f_PWR_STAT_PROCHOT = 0 then s else thermPresent (wr s f_PWR_STAT_PROCHOT 0))

/-- The 105 °C threshold (R447): one event until the hottest sensor reads below 102 °C. -/
def hotEvent (s : State) (k top : Nat) : State :=
  if 105 ≤ top then
    let s := wr (setStep s 4) f_PWR_STAT_HOT 1
    if s.pwr.hotSrc ≠ 0 then s else condEvent { s with pwr := { s.pwr with hotSrc := 1 + k } } 0x19C 0x13 k
  else
    let s := wr s f_PWR_STAT_HOT 0
    if top < 102 ∧ s.pwr.hotSrc ≠ 0 then thermPresent { s with pwr := { s.pwr with hotSrc := 0 } } else s

/-- What a reading of the sensors leaves: HOTTEST, and what THROTTLE asks of the next measurements (R447). -/
def sensed (s : State) (t : List Byte) (top : Nat) : State :=
  let lim := rd s f_PWR_THERM_THROTTLE
  let s := wr s f_PWR_THERM_HOTTEST top
  { s with pwr := { s.pwr with
    sensors := (List.range t.length).foldl (fun m i => sput 0 m i (t.getD i 0).toNat) []
    hot := decide (lim ≤ top)
    noRise := decide (lim ≤ top) || (s.pwr.noRise && decide (lim < top + 3)) } }

/-- The hottest of the sensors read. -/
def hottest (t : List Byte) : Nat := t.foldl (fun a b => max a b.toNat) 0

/-- The 24 junction sensors are read (R447), °C. A device that is powered trips in reset too. -/
def execThermalSensorRead (t : List Byte) (s : State) : Ans := keepQueue s <|
  let top := hottest t
  let k := t.findIdx (fun b => b.toNat == top)
  let s := if clocksRun s then hotEvent (sensed s t top) k top else s
  .next (if 120 ≤ top ∧ s.boot.powered = true then tripReset s 13 1 k true else s)

/-! ### Droop (R443) -/

/-- A droop detector of a region trips. -/
def execDroopTrip (r : Fin 16) (s : State) : Ans := keepQueue s <|
  if !clocksRun s then .next s
  else
  let s := { s with pwr := { s.pwr with droop := sput 0 s.pwr.droop r (1 + s.clk) } }
  if rd s (f_RGN_CLK_STAT_STRETCHED r) = 1 then .next s
  else .next (incF (wr s (f_RGN_CLK_STAT_STRETCHED r) 1) (f_RGN_CLK_STAT_STRETCH_COUNT r) 1)

/-- 1 µs after the last detector of a region has recovered; a trip in that cycle extends the stretch (R12). -/
def execDroopHoldEnd (r : Fin 16) (s : State) : Ans := keepQueue s <|
  if rd s (f_RGN_CLK_STAT_STRETCHED r) = 1 ∧ sget 0 s.pwr.droop r + 1000 ≤ s.clk then
    .next { wr s (f_RGN_CLK_STAT_STRETCHED r) 0 with pwr := { s.pwr with droop := sput 0 s.pwr.droop r 0 } }
  else .next s

/-- A regulator has been silent for 10 ms, or reports a fault (R456). -/
def execRegulatorTimeout (rail : Fin 11) (s : State) : Ans := keepQueue s <|
  if !clocksRun s then .next s
  else .next (event { s with pwr := { s.pwr with silent := nadd s.pwr.silent rail } } 0x19B 1 0x14 rail)

end Sys2Proof.Machine
end

