-- ==== Sys2Proof/Machine/Sideband.lean ====
section
/-! DEFINITION. Machine/Sideband.lean: the SMBus target, the I2C and PMBus controllers, HEALTH and the pads (R451–R459). Outputs
`Out.side bus kind`: bus 0 SMBus (kind 0 answer, 1 busy, 2 error, 3 sensors of the ditch rider), 1 slot chain, 2 I2C and PMBus
clears, 3 HEALTH, 4 boundary scan.
Choices beyond the words of the spec: log entries PRESUMED 64. -/

namespace Sys2Proof.Machine

/-! ### The SMBus target (R419, R451, R452) -/

/-- An answer of the SMBus target. -/
def sideAnswer (s : State) (kind : Nat) (l : List Byte) : State := emit s (.side 0 kind l)

/-- Writes TMB_TOD_NEXT (R291, R452). -/
def setTod (s : State) (v : DWord) : State :=
  { setReg s f_TMB_TOD_NEXT_V.key v with tb := { s.tb with tod := true } }

/-- The value of a numeric sensor: 0 power, 1–11 rails, 12–35 thermal sensors, 36 STEP, 37 GEN_STATE. -/
def sensorValue (s : State) (n : Nat) : Nat :=
  if n = 0 then rd s f_PWR_STAT_POWER
  else if n ≤ 11 then sget 0 s.pwr.readings (n - 1)
  else if n ≤ 35 then sget 0 s.pwr.sensors (n - 12)
  else if n = 36 then rd s f_PWR_STAT_STEP
  else rd s f_GEN_STATE_STATE

/-- The digest of a byte list; one that stands for nothing used has no stated digest. -/
def digestOf (s : State) (l : List Byte) : List Byte × State := if l.isEmpty then freshBytes s 48 else (sha384 l, s)

/-- A measurement block (R415): 1 the boot ROM, 2 the firmware image, 3 the option copy used, 4 the configuration image, 5 the
rollback counter, whose encoding the spec does not give. -/
def measurement (s : State) (k : Nat) : Option (List Byte) × State :=
  match k with
  | 1 => (some ((List.range 48).map Config.bootRomDigest), s)
  | 2 => (some ((s.boot.fw.map Fw.digest).getD []), s)
  | 3 => let (l, s) := digestOf s s.boot.opt; (some l, s)
  | 4 => let (l, s) := digestOf s s.boot.img; (some l, s)
  | 5 => let (l, s) := freshBytes s 48; (some l, s)
  | _ => (none, s)

/-- An MCTP control message (R452): SET_ENDPOINT_ID takes the bus owner's number, every answer carries it. -/
def serveMctp (s : State) (cmd arg : Byte) : State :=
  let s := if cmd = 1 then { s with side := { s.side with eid := arg.toNat } } else s
  sideAnswer s 0 [cmd, BitVec.ofNat 8 s.side.eid]

/-- Serves a request (R452). -/
def serveReq (s : State) (r : SideReq) : State :=
  match r with
  | .mctp cmd arg => serveMctp s cmd arg
  | .pldmReceiver e => sideAnswer { s with side := { s.side with receiver := e.toNat } } 0 []
  | .pldmPdr => sideAnswer s 0 [38]
  | .pldmSensor n => sideAnswer s 0 (natLE 4 (sensorValue s n))
  | .pldmEvent =>
    sideAnswer { s with side := { s.side with alert := false } } 0 ((List.range 16).flatMap (fun n => natLE 4 (fltSum s n)))
  | .spdm code => sideAnswer s 0 [code]
  | .spdmMeasure k =>
    match measurement s k with
    | (some l, s) => sideAnswer s 0 l
    | (none, s) => sideAnswer s 2 []
  | .setTod v => sideAnswer (setTod s v) 0 []
  | .other => s

/-- The management complex serves the oldest request, unless an activation holds it (R418, R419). -/
def serveSide (s : State) : State :=
  match s.side.queue with
  | [] => s
  | r :: q =>
    if !fwServes s || compStopped s 6 then s else serveReq { s with side := { s.side with queue := q } } r

/-- A request arrives at the SMBus target (R451). The boot ROM answers MCTP control messages, and every PLDM and SPDM request as busy; the
vendor's message gets no answer from it (DEDUCED, log entry 64). -/
def execSmbusRequest (r : SideReq) (s : State) : Ans := keepQueue s <|
  let st := rd s f_GEN_STATE_STATE
  if s.boot.inRst || !s.boot.powered || st == 0 then .next s
  else match r with
    | .other => .next s
    | r =>
      if !afterBoot s then
        match r with
        | .mctp cmd arg => .next (serveMctp s cmd arg)
        | .setTod _ => .next s
        | _ => .next (sideAnswer s 1 [])
      else if compStopped s 6 then .next (sideAnswer s 2 [])
      else if s.boot.activating || decide (16 ≤ s.side.queue.length) then .next (sideAnswer s 1 [])
      else .next { s with side := { s.side with queue := s.side.queue ++ [r] } }

/-- SET_TOD, of the vendor's MCTP message type (R452), as the firmware serves it. -/
def execSetTod (v : DWord) (s : State) : Ans := keepQueue s <|
  if s.boot.inRst || !fwServes s || compStopped s 6 then .next s else .next (sideAnswer (setTod s v) 0 [])

/-! ### I2C and PMBus (R453–R456) -/

/-- Event 15h (R450): PMBus and AVSBus under 19Bh, the others under 19Dh. -/
def busFault (s : State) (bus reason pin : Nat) : State :=
  event s (if bus = 2 ∨ bus = 3 then 0x19B else 0x19D) 1 0x15 (bus + 256 * reason + (if bus = 4 then 65536 * pin else 0))

/-- An I2C transaction (R453, R454): 0 completes, 1 loses arbitration and is retried, 2 is not finished in 25 ms. Its retry starts
1 ms later, and a second failure records event 15h. In reset the bus is released (R460). -/
def execI2cTransaction (outcome : Fin 3) (s : State) : Ans := keepQueue s <|
  let set (n t : Nat) : State := { s with side := { s.side with i2cFails := n, i2cRetry := t } }
  if !clocksRun s || (s.side.i2cFails != 0 && decide (s.clk < s.side.i2cRetry)) then .next s
  else match outcome.val with
    | 0 => .next (set 0 0)
    | 1 => .next s
    | _ => if s.side.i2cFails = 0 then .next (set 1 (s.clk + 1_000_000)) else .next (busFault (set 0 0) 1 3 0)

/-- A bus clear on I2C (0) or PMBus (1) (R455), with what it finds: 0 SDA reads high after some of the nine pulses, 1 SDA is still
low after them, 2 SCL has been held low by another party for more than 35 ms. A clear that failed is repeated once per second. -/
def execI2cBusClear (bus : Fin 2) (pulses : Fin 10) (found : Fin 3) (s : State) : Ans := keepQueue s <|
  let b := 1 + bus.val
  let last := sget 0 s.side.clear bus
  if !clocksRun s then .next s
  else if found = 2 then .next (busFault s b 1 0)
  else if last ≠ 0 ∧ s.clk < last - 1 + 1_000_000_000 then .next s
  else
    let s := emit s (.side 2 b (natLE 1 (if found = 0 then pulses.val else 9)))
    let t := if found = 0 then 0 else 1 + s.clk
    let s := { s with side := { s.side with clear := sput 0 s.side.clear bus t } }
    .next (if found = 0 then s else busFault s b 0 0)

/-! ### HEALTH and pads (R457–R459) -/

/-- Does HEALTH run (R457). -/
def healthy (s : State) : Bool :=
  let st := rd s f_GEN_STATE_STATE
  s.boot.powered && !s.boot.inRst && decide (2 ≤ st) && decide (st ≤ 6) && !s.boot.wdStop

/-- Every 0.5 ms HEALTH toggles while the device is alive; otherwise it is held low (R457). -/
def execHealthToggle (s : State) : Ans := keepQueue s <|
  let set (h : Bool) (t : Nat) : State := { s with side := { s.side with health := h, healthAt := t } }
  if !healthy s then .next (set false 0)
  else if s.side.healthAt ≠ 0 ∧ s.clk < s.side.healthAt - 1 + 500_000 then .next s
  else .next (emit (set (!s.side.health) (1 + s.clk)) (.side 3 0 (natLE 1 (b2n (!s.side.health)))))

/-- HEALTH is held low as soon as the device is not alive (R457). -/
def tickHealth (s : State) : State :=
  if healthy s then s else { s with side := { s.side with health := false, healthAt := 0 } }

/-- The bus code of an open-drain line that is tested for its pull-up, by pin number (R438, R450, R459). -/
def pullBus (pin : Nat) : Option Nat :=
  if 13 ≤ pin ∧ pin ≤ 15 then some 0
  else if pin = 19 ∨ pin = 20 then some 1
  else if 21 ≤ pin ∧ pin ≤ 23 then some 2
  else if pin = 4 ∨ pin = 5 ∨ pin = 6 ∨ pin = 8 then some 4
  else none

/-- The pull-up test of a line in an idle period (R459): a line that falls has no pull-up. -/
def execPullupTest (pin : Fin 48) (fell : Bool) (s : State) : Ans := keepQueue s <|
  match pullBus pin with
  | some b => .next (if fell && clocksRun s then busFault s b 2 pin else s)
  | none => .next s

/-- Is a pin one that the device drives and that belongs to no bus of R455 (R438). -/
def drivenPin (pin : Nat) : Bool := [4, 5, 6, 8, 9, 11, 15, 24, 25, 27, 28, 29, 46].contains pin || (decide (31 ≤ pin) && decide (pin ≤ 42))

/-- A driven pin reads the opposite level for 16 samples (R458); the pins of AVSBus and SMB_ALERT_N are faults of their buses
(DEDUCED, log entry 64). -/
def execPadShortDetect (pin : Fin 48) (s : State) : Ans := keepQueue s <|
  if drivenPin pin && clocksRun s then
    let s := busFault s (if pin.val = 24 ∨ pin.val = 25 then 3 else if pin.val = 15 then 0 else 4) 4 pin
    -- a short of SLC_DO counts as a frame error (R267)
    .next (if pin.val = 29 then slotBad s else s)
  else .next s

end Sys2Proof.Machine
end

