-- ==== Sys2Proof/Machine/Access.lean ====
section
/-! DEFINITION. Machine/Access.lean: writes of registers, mailboxes and MSI-X tables through BAR0, the HBM window of BAR4,
configuration requests and peer-to-peer requests (R8, R9, R13, R242–R251, R255–R258, R392, R465).
Choices beyond the words of the spec: log entries DESIGN CHOICE 14, 15, 36, 79, 97; PRESUMED 5, 38. -/

namespace Sys2Proof.Machine

/-! ### MSI-X structures (R249) -/

/-- Writes a dword of a function's MSI-X table; unmasking a vector sends its pending message. -/
def msixWord (s : State) (fn off : Nat) (w : Word) : State :=
  let v := off / 16
  let d := off % 16 / 4
  if d < 3 then { s with pcie := { s.pcie with msixTab := sput 0 s.pcie.msixTab ((fn * 4096 + v) * 4 + d) w } }
  else if w.getLsbD 0 then { s with pcie := { s.pcie with msixOn := ndel s.pcie.msixOn (fn * 4096 + v) } }
  else sendHeld { s with pcie := { s.pcie with msixOn := nadd s.pcie.msixOn (fn * 4096 + v) } } fn

/-- A byte of a function's MSI-X table. -/
def msixByte (s : State) (fn off : Nat) : Byte :=
  let v := off / 16
  let w : Word := if off % 16 < 12 then sget 0 s.pcie.msixTab ((fn * 4096 + v) * 4 + off % 16 / 4)
    else BitVec.ofNat 32 (b2n (!nin s.pcie.msixOn (fn * 4096 + v)))
  BitVec.ofNat 8 (w.toNat >>> (8 * (off % 4)))

/-- A byte of a function's PBA. -/
def pbaByte (s : State) (fn off : Nat) : Byte :=
  BitVec.ofNat 8 ((List.range 8).foldl (fun a i => a + 2 ^ i * b2n (nin s.pcie.pba (fn * 4096 + 8 * off + i))) 0)

/-! ### Register fields (R8, R9, R13, R465) -/

/-- Has a writable field a row of its own in the command table. -/
def fieldHasRow (r : RegRow) (f : FieldRow) : Bool :=
  [0x2000010, 0x500000, 0x500020, 0x500028, 0xE00008, 0x70C000].contains r.base ||
  [(0x702000, 9), (0x704000, 9), (0xA00000, 29), (0xC90000, f_SCH_SVC_SERVICE 0 |>.hi), (0x404000, 63), (0x404000, 62)].contains
    (r.base, f.hi)

/-- Is a value reserved for a field (R9). -/
def fieldReserved (f : FieldRow) (v : Nat) : Bool :=
  match f.ok with
  | some (lo, hi) => decide (v < lo) || decide (hi < v)
  | none => false

/-- Writes one field of the register at `off`, from the register's raw new value, by its access code (R13). -/
def writeField (r : RegRow) (off raw : Nat) (s : State) (f : FieldRow) : State :=
  let fl : Fld := ⟨off, f.hi, f.lo⟩
  let v := bits raw f.hi f.lo
  if fieldHasRow r f then s
  else match f.acc with
    | .rw => if fieldReserved f v then writeIgnored s else wr s fl v
    | .wo => if fieldReserved f v then writeIgnored s else s
    | .w1c => wr s fl (rd s fl - (rd s fl &&& v))
    | _ => s

/-- Index of the barrier whose registers an offset lies in. -/
def barAt (off : Nat) : Option Nat :=
  if 0x1200100 ≤ off ∧ off < 0x1200300 ∧ off % 0x20 < 0x18 then some ((off - 0x1200100) / 0x20) else none

/-- The port whose gate list header an offset lies in. -/
def gclAt (off : Nat) : Option Nat :=
  if 0xCA0000 ≤ off ∧ off < 0xCA2400 then some ((off - 0xCA0000) / 0x20) else none

/-- Is the whole write ignored with WRITE_IGNORED, by the register's own rule. -/
def writeBlocked (s : State) (fw : Bool) (off : Nat) : Bool :=
  (match barAt off with
    | some b => rd s (f_SLU_BAR_STAT_BUSY b) == 1
    | none => false) ||
  (match gclAt off with
    | some p => nin s.sch.armed p
    | none => false) ||
  (off == f_SCH_GCL_DATA_V.key && rd s f_SCH_GCL_SEL_LIST == 0 && nin s.sch.armed (rd s f_SCH_GCL_SEL_PORT)) ||
  ((off == f_TRN_INV_ADDR_TA.key || off == f_TRN_INV_CTL_GO.key) && rd s f_TRN_INV_CTL_GO == 1) ||
  ((off == f_SIP_TGTTAB_BASE.key || off == f_SIP_SRCIP4_V.key) && rd s f_SIP_CFG_EN == 1) ||
  (off == f_FLT_INJ_GO.key && rd s f_FLT_INJ_AVAIL == 0) ||
  (decide (0x1400100 ≤ off) && decide (off < 0x1400140) && rd s f_DBG_CTL_STATE == 2) ||
  (decide (0x800190 ≤ off) && decide (off < 0x800210) && !fw) ||
  (off == f_TRN_CMD_CTL_GO.key && rd s f_TRN_CMD_CTL_GO == 1) ||
  (decide (0x2000000 ≤ off) && decide (off < 0x3000000) && off % 0x100000 == 0 && rd s (f_RGN_UNIT_RST_BUSY ((off - 0x2000000) / 0x100000)) == 1)

/-- Does the furrow that a field names have a class. -/
def furIsClass (s : State) (f cls : Nat) : Bool :=
  match furOf s f with
  | some x => x.cls == cls
  | none => false

/-- A furrow register whose EN needs a furrow of a class (R227, R298). -/
def enRule (s : State) (en fur : Fld) (cls : Nat) : State :=
  if furIsClass s (rd s fur) cls then s else writeIgnored (wr s en 0)

/-- A peak field holds no less than the occupancy (R465). -/
def peakRule (s : State) (peak occ : Fld) : State := peakF s peak (rd s occ)

/-- A TRN_CMD_CTL write (R385): a legal OP is taken, a reserved one leaves OP as it was (R9), and GO starts the command that OP
then names. Where no legal OP was ever written, the command ends at once with INVALID_FIELD (DESIGN CHOICE, log entry 79). -/
def cmdCtlWrite (s : State) (raw : Nat) : State :=
  let op := bits raw 2 0
  let s := if op < 1 ∨ 5 < op then writeIgnored s else { s with trn := { s.trn with op := op } }
  if bit raw 31 then
    let s := wr { s with trn := { s.trn with cmd := some ⟨s.trn.op, 0, 0, s.clk⟩ } } f_TRN_CMD_CTL_GO 1
    if s.trn.op = 0 then cmdDone s stField else s
  else s

/-- LAT_CFG.NODE is not written while EN was 1 (R315). -/
def nodeRule (old s : State) : State :=
  if rd old f_LAT_CFG_EN = 1 then writeIgnored (wr s f_LAT_CFG_NODE (rd old f_LAT_CFG_NODE)) else s

/-- TRN_CFG.CHAN keeps its value while a turnout is not FREE (R392). -/
def chanRule (old s : State) : State :=
  if rd old f_TRN_CFG_CHAN ≠ rd s f_TRN_CFG_CHAN ∧ (liveTurns old).isEmpty = false then
    writeIgnored (wr s f_TRN_CFG_CHAN (rd old f_TRN_CFG_CHAN))
  else s

/-- What a write of a register brings with it beyond its fields; `old` is the state before. -/
def afterWrite (old : State) (off raw : Nat) (s : State) : State :=
  if off = f_LAT_CFG_EN.key then nodeRule old s
  else if off = f_TRN_CFG_CHAN.key then chanRule old s
  else if 0x402540 ≤ off ∧ off < 0x402800 then wr (wr (wr s ⟨off, 2, 2⟩ 0) ⟨off, 10, 10⟩ 0) ⟨off, 18, 18⟩ 0
  else if off = f_TRN_PRQ_FURROW_EN.key then enRule s f_TRN_PRQ_FURROW_EN f_TRN_PRQ_FURROW_FURROW clPrq
  else if off = f_PAR_EXC_FURROW_EN.key then enRule s f_PAR_EXC_FURROW_EN f_PAR_EXC_FURROW_FURROW clExc
  else if off = f_SIP_CFG_EN.key then wr s f_SIP_CFG_EN (min (rd s f_SIP_CFG_EN) (rd old f_SIP_CFG_EN))
  else if off = f_MIM_PEAK_PEAK.key then peakRule s f_MIM_PEAK_PEAK f_MIM_INFLIGHT_CALLS
  else if off = f_CQS_RLOCK_PEAK.key then peakRule s f_CQS_RLOCK_PEAK f_CQS_RLOCK_INUSE
  else if off = f_CIP_HOLD_PEAK.key then peakRule s f_CIP_HOLD_PEAK f_CIP_HOLD_INUSE
  else if off = f_TMB_TOD_NEXT_V.key then { s with tb := { s.tb with tod := true } }
  else if off = f_SCH_HSEL_QUEUE.key then histShow s
  else if off = f_DSP_FSTAT_STATE.key ∧ bit raw 29 = true then
    (match furOf s (rd s f_DSP_FSEL_FURROW) with
      | some _ => modFur s (rd s f_DSP_FSEL_FURROW) (fun x => { x with fault := false })
      | none => s)
  else s

/-- Gate list writes (R312): SCH_GCL_DATA writes an ADMIN entry; the end of a CHANGE_AT write arms the change. -/
def gclWrite (s : State) (off raw whi : Nat) : State :=
  if off = f_SCH_GCL_DATA_V.key then
    let k := 256 * rd s f_SCH_GCL_SEL_PORT + rd s f_SCH_GCL_SEL_ENTRY
    if rd s f_SCH_GCL_SEL_LIST = 0 then
      -- bits [47:32] are reserved: they read 0 (R8, R312)
      { s with sch := { s.sch with admin := sput 0 s.sch.admin k (BitVec.ofNat 64 (setBits raw 47 32 0)) } }
    else s
  else match gclAt off with
    | some p => if off % 0x20 = 0x10 ∧ whi = 63 then { s with sch := { s.sch with armed := nadd s.sch.armed p } } else s
    | none => s

/-- A write of bits [whi:wlo] of the register at `off`, whose row is `r`; `v` stands at its place. -/
def regWrite (s : State) (fw : Bool) (r : RegRow) (off wlo whi v : Nat) : State :=
  let raw := setBits (if off = f_SCH_GCL_DATA_V.key then (gclData s).toNat else (regv s off).toNat) whi wlo (v >>> wlo)
  -- a bit that is not written clears and sets nothing
  let ones := setBits 0 whi wlo (v >>> wlo)
  let pick (f : FieldRow) : Nat := match f.acc with
    | .rw => raw
    | _ => ones
  let fs := r.fields.filter (fun f => decide (f.lo ≤ whi) && decide (wlo ≤ f.hi))
  if barAt off ≠ none ∧ writeBlocked s fw off = true ∧ off % 0x20 = 0 ∧ bit raw 31 = false then
    (match barAt off with
      | some b => wr (barRelease s b 0x10) (f_SLU_BAR_CFG_EN b) 0
      | none => s)
  else if writeBlocked s fw off then writeIgnored s
  else if off = f_TRN_CMD_CTL_GO.key then cmdCtlWrite s ones
  else if off = 0x900038 then s
  else
    let s' := if 0xC00000 ≤ off ∧ off < 0xC90000 then accrue s ((off - 0xC00000) / 0x800) else s
    let s' := fs.foldl (fun s f => writeField r off (pick f) s f) s'
    gclWrite (afterWrite s off ones s') off raw whi

/-! ### BAR0 areas -/

/-- Writes bytes of a mailbox instance area. -/
def mboxWrite (s : State) (k : Nat) (l : List Byte) : State :=
  { s with trn := { s.trn with mbox := putBytes 0 s.trn.mbox k l } }

/-- Do the registers of a block answer before firmware is loaded: GEN, RST, CFG, BST (R397). -/
def earlyBlock (off : Nat) : Bool := decide (off < 0x300000) || (decide (0x1300000 ≤ off) && decide (off < 0x1400000))

/-- A write of 4 bytes, or of 8 at once, into the manager's BAR0 space. -/
def bar0Word (s : State) (fw : Bool) (off n : Nat) (v : DWord) : State :=
  if 0x3F00000 ≤ off ∧ off < 0x3F08000 then
    (List.range (n / 4)).foldl (fun s i => msixWord s fnPF0 (off - 0x3F00000 + 4 * i) (BitVec.ofNat 32 (v.toNat >>> (32 * i)))) s
  else if !fwLoaded s && !earlyBlock off then s
  else if 0x780000 ≤ off ∧ off < 0x800000 then mboxWrite s (off - 0x780000) (natLE n v.toNat)
  else if off % 8 = 4 ∧ wideReg (off - 4) = true then
    (match regAt (off - 4) with
      | some r => regWrite s fw r (off - 4) 32 63 (v.toNat % 2 ^ 32 * 2 ^ 32)
      | none => s)
  else match regAt off with
    | none => s
    | some r => regWrite s fw r off 0 (8 * n - 1) v.toNat

/-- A BAR0 write of 4 or 8 bytes: two dwords where they are two registers. -/
def bar0Write (s : State) (fw : Bool) (off : Nat) (wide : Bool) (v : DWord) : State :=
  if off % 4 ≠ 0 then s
  else if wide && (wideReg off || decide (0x3F00000 ≤ off) || (decide (0x780000 ≤ off) && decide (off < 0x800000))) then
    bar0Word s fw off 8 v
  else
    let s := bar0Word s fw off 4 (v &&& 0xFFFFFFFF#64)
    if wide then bar0Word s fw (off + 4) 4 (v >>> 32) else s

/-- Do a VF's BARs answer (R245, R260, R272). -/
def vfMem (s : State) (t : Nat) : Bool := vfExists s t && !inFlr s t && !(fnOf s t).d3

/-- Where a turnout's channel area lies: a mailbox instance, or the shared page (R392). -/
def chanBytesWrite (s : State) (t off : Nat) (l : List Byte) : State :=
  if !turnActive s t then s
  else if chanShared s then (runMM s (physWrite (ioFor .firmware) 0x201 ((quotaOf s t).chan + off) l false)).2
  else if rd s (f_TRN_STATE_MBV t) = 1 then mboxWrite s (8192 * rd s (f_TRN_STATE_MBOX t) + off) l
  else s

/-- A write into VF BAR0 (R247): the channel area and the MSI-X table; the indices have rows of their own. -/
def vfBar0Write (s : State) (t off : Nat) (wide : Bool) (v : DWord) : State :=
  let n := if wide then 8 else 4
  if !vfMem s t || off % 4 != 0 then s
  else if 0x1000 ≤ off ∧ off + n ≤ 0x3000 then (if fwLoaded s then chanBytesWrite s t (off - 0x1000) (natLE n v.toNat) else s)
  else if 0x4000 ≤ off ∧ off + n ≤ 0x5000 then
    (List.range (n / 4)).foldl (fun s i => msixWord s t (off - 0x4000 + 4 * i) (BitVec.ofNat 32 (v.toNat >>> (32 * i)))) s
  else s

/-- A write into the companion's BAR0 (R244): its MSI-X table alone. -/
def compWrite (s : State) (off : Nat) (wide : Bool) (v : DWord) : State :=
  let n := if wide then 8 else 4
  if (fnOf s 513).d3 || off % 4 != 0 then s
  else if 0x8000 ≤ off ∧ off + n ≤ 0x8400 then
    (List.range (n / 4)).foldl (fun s i => msixWord s 513 (off - 0x8000 + 4 * i) (BitVec.ofNat 32 (v.toNat >>> (32 * i)))) s
  else s

/-- A memory write to a function's BAR0. -/
def barWrite (s : State) (src : RegSrc) (off : Nat) (wide : Bool) (v : DWord) : State :=
  match src with
  | .pf0 => if (fnOf s fnPF0).d3 then s else bar0Write s false off wide v
  | .firmware => bar0Write s true off wide v
  | .companion => compWrite s off wide v
  | .vf t => vfBar0Write s t off wide v

/-- REGISTER_WRITE (R8, R9, R13, R465): a write of 4 bytes, or of 8 when `wide`, at an offset of a BAR0. -/
def execRegisterWrite (src : RegSrc) (off : BitVec 26) (wide : Bool) (v : DWord) (s : State) : Ans := keepQueue s <|
  .next (barWrite s src off.toNat wide v)

/-! ### Reads of BAR0 and the expansion ROM -/

/-- TV_ID and TV_CH of a VF (R392–R395). -/
def vfRegs (s : State) (t off : Nat) : Nat :=
  if off < 4 then (turnState s t * 2 ^ 29 + t) >>> (8 * off)
  else if 0x10 ≤ off ∧ off < 0x18 then
    (rd s (f_TRN_CHAN_DN_CI t) * 2 ^ 48 + rd s (f_TRN_CHAN_DN_PI t) * 2 ^ 32 + rd s (f_TRN_CHAN_UP_PI t) * 2 ^ 16 +
      rd s (f_TRN_CHAN_UP_CI t)) >>> (8 * (off - 0x10))
  else 0

/-- A byte of a channel area. -/
def chanByte (s : State) (t off : Nat) : Byte :=
  if chanShared s then memByte s ((quotaOf s t).chan + off)
  else if rd s (f_TRN_STATE_MBV t) = 1 then sget 0 s.trn.mbox (8192 * rd s (f_TRN_STATE_MBOX t) + off)
  else 0

/-- A byte of a function's BAR0. -/
def barByte (s : State) (src : RegSrc) (off : Nat) : Byte :=
  match src with
  | .pf0 | .firmware =>
    if 0x3F00000 ≤ off ∧ off < 0x3F08000 then msixByte s fnPF0 (off - 0x3F00000)
    else if 0x3F80000 ≤ off ∧ off < 0x3F80100 then pbaByte s fnPF0 (off - 0x3F80000)
    else if !fwLoaded s && !earlyBlock off then 0
    else if 0x780000 ≤ off ∧ off < 0x800000 then sget 0 s.trn.mbox (off - 0x780000)
    else regByte s off
  | .companion =>
    if 0x8000 ≤ off ∧ off < 0x8400 then msixByte s 513 (off - 0x8000)
    else if 0x9000 ≤ off ∧ off < 0x9008 then pbaByte s 513 (off - 0x9000)
    else if off < 0x8000 then regByte s off else 0
  | .vf t =>
    if 0x4000 ≤ off ∧ off < 0x5000 then msixByte s t (off - 0x4000)
    else if 0x5000 ≤ off ∧ off < 0x5020 then pbaByte s t (off - 0x5000)
    else if 0x1000 ≤ off ∧ off < 0x3000 then (if turnActive s t then chanByte s t (off - 0x1000) else 0)
    else BitVec.ofNat 8 (vfRegs s t off)

/-- The bytes of an ASCII tag. -/
def asciiTag (l : List Nat) : List Byte := l.map (BitVec.ofNat 8)

/-- An entry of the resource directory (R257). -/
def dirEntry (i : Nat) (name : List Byte) (func bar inst off size : Nat) : List Byte :=
  padTo 8 name ++ [Config.dirVersion (2 * i), Config.dirVersion (2 * i + 1)] ++ natLE 1 (16 * func + bar) ++ [0] ++ natLE 4 inst ++
    natLE 8 off ++ natLE 8 size

/-- The register blocks, block i at i × 0010_0000h: their mnemonics are the prefixes of their registers (DEDUCED, log entry 97). -/
def dirBlocks : List (List Nat) :=
  [[0x47, 0x45, 0x4E], [0x52, 0x53, 0x54], [0x43, 0x46, 0x47], [0x50, 0x57, 0x52], [0x46, 0x4C, 0x54], [0x54, 0x4D, 0x42],
   [0x54, 0x45, 0x4C], [0x54, 0x52, 0x4E], [0x48, 0x45, 0x50], [0x44, 0x53, 0x50], [0x4C, 0x4E, 0x4B], [0x50, 0x41, 0x52],
   [0x53, 0x43, 0x48], [0x4C, 0x41, 0x54], [0x43, 0x51, 0x53], [0x43, 0x49, 0x50], [0x53, 0x49, 0x50], [0x4D, 0x49, 0x4D],
   [0x53, 0x4C, 0x55], [0x42, 0x53, 0x54], [0x44, 0x42, 0x47]]

/-- The areas that are no register block, by FUNC, BAR, OFFSET and SIZE (R247): MSI-X table and PBA, doorbells and HBM window of the manager
PF0; turnout registers, mailbox, MSI-X table, PBA and doorbells of a VF. -/
def dirAreas : List (Nat × Nat × Nat × Nat) :=
  [(0, 0, 0x3F00000, 0x8000), (0, 0, 0x3F80000, 0x100), (0, 2, 0, 0x8000000), (0, 4, 0, 2 ^ 38),
   (1, 0, 0, 0x1000), (1, 0, 0x1000, 0x2000), (1, 0, 0x4000, 0x1000), (1, 0, 0x5000, 0x20), (1, 2, 0, 0x20000)]

/-- The bytes of an area's mnemonic, which the spec does not give. -/
def dirAreaName (i : Nat) : List Byte := (List.range 8).map (fun b => Config.dirName (8 * i + b))

/-- The entries of the resource directory, sorted by function, BAR and offset (R257). -/
def romEntries : List Byte :=
  dirBlocks.zipIdx.flatMap (fun q => dirEntry q.2 (asciiTag q.1) 0 0 1 (0x100000 * q.2) (Config.dirSize q.2)) ++
    dirEntry 21 (asciiTag [0x52, 0x47, 0x4E]) 0 0 16 0x2000000 0x100000 ++
    dirAreas.zipIdx.flatMap (fun q => dirEntry (22 + q.2) (dirAreaName (22 + q.2)) q.1.1 q.1.2.1 1 q.1.2.2.1 q.1.2.2.2)

/-- The number of entries. -/
def romCount : Nat := dirBlocks.length + 1 + dirAreas.length

/-- The directory header (R256). -/
def romHeader (s : State) : List Byte :=
  asciiTag [0x53, 0x4B, 0x52, 0x44] ++ natLE 2 1 ++ natLE 2 32 ++ natLE 4 romCount ++ natLE 4 (crc32c romEntries) ++
    natLE 2 0x3616 ++ natLE 1 (b2n Config.b15l) ++ [0] ++ natLE 2 (rd s f_BST_REGION_V) ++ List.replicate 42 0

/-- Image length in 512-byte units. -/
def romUnits : Nat := (0x140 + 32 * romCount + 511) / 512

/-- The ROM header and the PCI data structure (R255). -/
def romHead : List Byte :=
  [0x55, 0xAA] ++ natLE 2 romUnits ++ List.replicate 20 0 ++ natLE 2 0x20 ++ List.replicate 6 0 ++
    asciiTag [0x50, 0x43, 0x49, 0x52] ++ natLE 2 0x1F4B ++ natLE 2 0x3616 ++ natLE 2 0 ++ natLE 2 0x1C ++ [3] ++
    natLE 3 0x120000 ++ natLE 2 romUnits ++ natLE 2 0 ++ [0xE0, 0x80] ++ natLE 4 0

/-- The expansion ROM image (R255–R257). -/
def romImage (s : State) : List Byte := padTo 0x100 romHead ++ romHeader s ++ romEntries

/-! ### BAR4 (R248) -/

/-- The size of BAR4 as Resizable BAR sets it: 2^n bytes. -/
def bar4Bits (s : State) : Nat := 20 + (sget 18 (fnOf s fnPF0).bars 16).toNat

/-- The HBM address of a BAR4 offset. -/
def bar4Addr (s : State) (o : Nat) : Nat := (rd s f_HEP_BAR4_OFF_OFFSET * 2 ^ 30 + o) % 2 ^ 38

/-- An access of a range of HBM that may wrap at its end, as owner 201h. -/
def hbmAccess (s : State) (a : Nat) (q : MemReq) : Option (List Byte) × State :=
  match q with
  | .read n =>
    let k := min n.val (2 ^ 38 - a)
    let (r, s) := runMM s (do
      let x ← physRead (ioFor .firmware) 0x201 a k
      let y ← physRead (ioFor .firmware) 0x201 0 (n.val - k)
      return x ++ y)
    match r with
    | .ok l => (some l, s)
    | .error _ => (none, s)
  | .write l =>
    let k := 2 ^ 38 - a
    let (r, s) := runMM s (do
      physWrite (ioFor .firmware) 0x201 a (l.take k) false
      physWrite (ioFor .firmware) 0x201 0 (l.drop k) false)
    match r with
    | .ok _ => (some [], s)
    | .error _ => (none, s)

/-- Answers a request with data (kind 1), Request Retry Status (2), Unsupported Request (3) or Completer Abort (4). -/
def answerReq (s : State) (kind : Nat) (l : List Byte) : State := emit s (.rdata kind l)

/-- A BAR4 request; one beyond the BAR, or in D3hot, is unsupported; poisoned data completes with an error. -/
def bar4Do (s : State) (o : Nat) (q : MemReq) : State :=
  if (fnOf s fnPF0).d3 || decide (2 ^ bar4Bits s ≤ o) then answerReq s 3 []
  else match hbmAccess s (bar4Addr s o) q with
    | (some l, s) => (match q with
      | .read _ => answerReq s 1 l
      | .write _ => s)
    | (none, s) => answerReq s 3 []

/-- BAR4_ACCESS (R248). -/
def execBar4Access (off : BitVec 38) (q : MemReq) (s : State) : Ans := keepQueue s <| .next (bar4Do s off.toNat q)

/-! ### Peer-to-peer requests (R251) -/

/-- The upstream port of the function of a BAR. -/
def portOfSrc (s : State) (src : RegSrc) : Nat :=
  match src with
  | .vf t => t.val / 256
  | .companion => 1 - rd s f_HEP_TOPO_MGR_UP
  | _ => rd s f_HEP_TOPO_MGR_UP

/-- Does a function's BAR0 answer memory requests. -/
def srcAnswers (s : State) (src : RegSrc) : Bool :=
  match src with
  | .vf t => vfMem s t
  | .companion => !(fnOf s 513).d3
  | .pf0 => !(fnOf s fnPF0).d3
  | .firmware => false

/-- A request that reaches a function's BAR0. -/
def bar0Do (s : State) (src : RegSrc) (off : Nat) (q : MemReq) : State :=
  match q with
  | .read n => answerReq s 1 ((List.range n.val).map (fun i => barByte s src (off + i)))
  | .write l => barWrite s src off (l.length == 8) (BitVec.ofNat 64 (leNat (l.take 8)))

/-- The bytes that a request carries. -/
def reqData : MemReq → List Byte
  | .read _ => []
  | .write l => l

/-- ACS Control of a downstream switch port. -/
def acsOf (s : State) (k : Nat) : Nat := (fnOf s (1032 + k)).acs

/-- Does a port's ACS turn a request away (R250): Source Validation of the requester's bus, Translation Blocking of its address type. -/
def acsViolation (s : State) (k rid at_ : Nat) : Bool :=
  let b := (fnOf s (1032 + k)).bus
  (bit (acsOf s k) 0 && (decide (rid / 256 < bits b 15 8) || decide (bits b 23 16 < rid / 256))) || (bit (acsOf s k) 1 && at_ != 0)

/-- Does a port redirect a peer request upstream (R250): P2P Request Redirect, unless Direct Translated P2P lets a translated one pass. -/
def acsRedirect (s : State) (k at_ : Nat) : Bool := bit (acsOf s k) 2 && !(at_ == 2 && bit (acsOf s k) 6)

/-- Answers a request whose target lies behind a downstream link that is not up: DPC Completion Control chooses Unsupported Request or
Completer Abort (kind 4) while the port is contained (R270). -/
def linkDownAnswer (s : State) (k : Nat) : State :=
  answerReq s (if (dpOf s k).dpcTrig && !bit (dpOf s k).dpcCtl 2 then 4 else 3) []

/-- A request goes on upstream. -/
def sendUp (s : State) (p : Nat) (q : MemReq) : State :=
  if (upOf s p).link then emit s (.tlp p 5 (reqData q)) else answerReq s 3 []

/-- A peer-to-peer request to port `j` (R251): direct in its own hierarchy unless redirected; its own port's range only by Upstream
Forwarding. -/
def peerDo (s : State) (k p j at_ : Nat) (q : MemReq) : State :=
  if dpUp s (j % 8) ≠ some p then answerReq s 3 []
  else if j = k then (if bit (acsOf s k) 4 then sendUp s p q else answerReq s 3 [])
  else if acsRedirect s k at_ then sendUp s p q
  else if (dpOf s j).active then emit s (.tlp (2 + j) 5 (reqData q))
  else linkDownAnswer s j

/-- P2P_REQUEST (R250, R251): a request from a downstream link. -/
def execP2pRequest (k : Fin 16) (h : P2PHead) (q : MemReq) (s : State) : Ans := keepQueue s <|
  match dpUp s (k.val % 8) with
  | none => .next s
  | some p =>
    if !(dpOf s k).active then .next s
    else if acsViolation s k h.rid.toNat h.at_ then .next (answerReq (aerLog s (1032 + k) 21) 3 [])
    else .next (match h.dst with
      | .bar0 src off => if portOfSrc s src = p ∧ srcAnswers s src = true then bar0Do s src off.toNat q else answerReq s 3 []
      | .bar4 off => if rd s f_HEP_TOPO_MGR_UP = p then bar4Do s off.toNat q else answerReq s 3 []
      | .rom off =>
        if rd s f_HEP_TOPO_MGR_UP = p ∧ (fnOf s fnPF0).d3 = false then
          (match q with
            | .read n => answerReq s 1 (padTo n.val ((romImage s).drop off.toNat))
            | .write _ => s)
        else answerReq s 3 []
      | .port j => peerDo s k p j h.at_ q
      | .up => sendUp s p q)

/-! ### Configuration requests (R242–R250, R258, R263) -/

/-- What a configuration request reaches. -/
inductive CfgRole
  /-- The upstream switch port. -/
  | upSwitch
  /-- The downstream switch port of link k. -/
  | dpSwitch (k : Nat)
  /-- The internal downstream port. -/
  | intPort
  /-- A function of the device. -/
  | fn (n : Nat)
  /-- A device behind downstream link k. -/
  | below (k : Nat)
deriving DecidableEq, Repr

/-- Does a bus number lie behind a switch port. -/
def busBelow (s : State) (key b : Nat) : Bool :=
  let v := (fnOf s key).bus
  decide (bits v 15 8 ≤ b) && decide (b ≤ bits v 23 16)

/-- Is a downstream switch port presented in the hierarchy of port `p` (R243). -/
def dpShown (s : State) (p k : Nat) : Bool := linkExists s k && decide (dpUp s (k % 8) = some p)

/-- The function of port `p` at routing ID PF0 + i (R242, R245). -/
def fnAt (s : State) (p i : Nat) : Option CfgRole :=
  if i = 0 then some (.fn (pf0Of s p))
  else if i ≤ 256 ∧ vfExists s (256 * p + i - 1) = true then some (.fn (256 * p + i - 1))
  else none

/-- The target of a configuration request that arrives at upstream port `p` (R242), by the bus numbers that software assigned. Without ARI
Forwarding the internal port turns only requests for device 0 of its secondary bus. -/
def cfgTarget (s : State) (p : Nat) (d : CfgDst) : Option CfgRole :=
  let b := d.bus.toNat
  let df := d.devfn.toNat
  if d.type0 then (if df = 0 then some .upSwitch else none)
  else if !busBelow s (1024 + p) b then none
  else if b = secBus s (1024 + p) then
    if df % 8 ≠ 0 then none
    else if df / 8 < 8 then (if dpShown s p (df / 8) then some (.dpSwitch (df / 8)) else none)
    else if df / 8 = 8 then some .intPort
    else if 0x10 ≤ df / 8 ∧ df / 8 < 0x18 then (if dpShown s p (df / 8 - 8) then some (.dpSwitch (df / 8 - 8)) else none)
    else none
  else if busBelow s (intFn p) b then
    let sec := secBus s (intFn p)
    if b = sec ∧ 8 ≤ df ∧ bit (fnOf s (intFn p)).devCtl2 5 = false then none
    else fnAt s p ((b - sec) * 256 + df)
  else ((List.range 16).find? (fun k => dpShown s p k && busBelow s (1032 + k) b)).map .below

/-- The state key of a target that has configuration state here. -/
def roleFn (p : Nat) : CfgRole → Nat
  | .upSwitch => 1024 + p
  | .dpSwitch k => 1032 + k
  | .intPort => intFn p
  | .fn n => n
  | .below k => 1032 + k

/-- Must a request be retried: functions not ready, or a VF in FLR (R258, R260). -/
def cfgRetry (s : State) (p : Nat) : CfgRole → Bool
  | .fn n => decide (s.clk < (upOf s p).readyAt) || (decide (n < 512) && inFlr s n)
  | _ => false

/-- Device IDs (R242). -/
def cfgDevice : CfgRole → Nat
  | .upSwitch => 0x3610
  | .dpSwitch _ | .below _ => 0x3611
  | .intPort => 0x3612
  | .fn n => if n = 512 then 0x3616 else if n = 513 then 0x3617 else 0x3618

/-- MSI-X vectors of a function (R249). -/
def fnVectors (fn : Nat) : Nat := if fn = 512 then 2048 else if fn = 513 then 64 else 256

/-- The kind of a function: 0 manager, 1 companion, 2 VF. -/
def fnKind (fn : Nat) : Nat := if fn = 512 then 0 else if fn = 513 then 1 else 2

/-- Offset of a function's MSI-X table (R244, R247). -/
def msixTabOff (fn : Nat) : Nat := if fn = 512 then 0x3F00000 else if fn = 513 then 0x8000 else 0x4000

/-- Offset of a function's PBA. -/
def pbaOff (fn : Nat) : Nat := if fn = 512 then 0x3F80000 else if fn = 513 then 0x9000 else 0x5000

/-- The 64-bit memory BARs of a function by dword pair, with those of its SR-IOV capability from pair 4 on (R244, R247): the exponent of the
size and the type bits. -/
def barShape (s : State) (fn pair : Nat) : Option (Nat × Nat) :=
  match pair with
  | 0 => if fn = 512 then some (26, 4) else if fn = 513 then some (16, 4) else none
  | 1 => if fn = 512 then some (27, 4) else none
  | 2 => if fn = 512 then some (bar4Bits s, 12) else none
  | 4 => if 512 ≤ fn then some (16, 4) else none
  | 5 => if 512 ≤ fn then some (17, 4) else none
  | _ => none

/-- A BAR dword as it reads: address bits below the size read 0, the low bits say the type. -/
def barRead (s : State) (fn n : Nat) : Nat :=
  match barShape s fn (n / 2) with
  | none => 0
  | some (e, ty) =>
    let v := (sget 0 (fnOf s fn).bars n).toNat % 2 ^ 32
    if n % 2 = 0 then (if e < 32 then v / 2 ^ e * 2 ^ e else 0) + ty
    else v / 2 ^ (e - 32) * 2 ^ (e - 32)

/-- A read of a function's register beyond those that every function and switch port has. -/
def fnRead (s : State) (p fn : Nat) (r : CfgReg) : Nat :=
  let f := fnOf s fn
  let pf := decide (512 ≤ fn)
  match r with
  | .subsys => le s.boot.ids (4 * fnKind fn) 4
  | .bar n => barRead s fn n
  | .rom => if fn = 512 then (sget 0 f.bars 6).toNat % 2 ^ 32 / 2 ^ 24 * 2 ^ 24 + (sget 0 f.bars 6).toNat % 2 else 0
  | .dvsecHdr n => if n = 0 then 0x10023 else if n = 1 then 0x1F4B + 0x18 * 2 ^ 20 else 1
  | .dvsec n => if n = 0 then fnKind fn + p * 2 ^ 16
      else if n = 1 then (if fn < 512 then fn else 0xFFFF) else (regv s f_GEN_FWIF_MAJOR.key).toNat
  | .pmcsr => 3 * b2n f.d3 + 8 + 256 * b2n f.pmeEn + 32768 * b2n f.pmeSt
  | .msixCtl => 32768 * b2n f.msixEn + 16384 * b2n f.fnMask + (fnVectors fn - 1)
  | .msixTable => msixTabOff fn
  | .msixPba => pbaOff fn
  | .sriovCtl => if pf then b2n (upOf s p).vfEn + f.sriov else 0
  | .numVfs => if pf then (upOf s p).numVfs + 256 * 2 ^ 16 else 0
  | .vfOffset => if pf then 1 + 2 ^ 16 else 0
  | .vfDevice => if pf then 0x3618 * 2 ^ 16 else 0
  | .supPages => if pf then 0x1F else 0
  | .sysPage => if pf then f.sysPage else 0
  | .vfBar n => barRead s fn (8 + n)
  | .rebarCap => if fn = 512 then 0x7FC000 else 0
  | .rebar => if fn = 512 then 256 * (bar4Bits s - 20) + 0x24 else 0
  | _ => 0

/-- Slot Capabilities (R263): the fixed bits, with number and power limit of the image. -/
def slotCapOf (s : State) (n : Nat) : Nat := setBits (sget 0 s.boot.slotCaps n) 6 0 0x7B

/-- A read of a downstream switch port's register; the second half of a split port has no slot. -/
def dpRead (s : State) (k : Nat) (r : CfgReg) : Nat :=
  let d := dpOf s k
  let x := hpSlot s k
  match r with
  | .slotCap => if k < 8 then slotCapOf s k else 0
  | .slotCap2 => b2n (decide (k < 8))
  | .slotCtl => if k < 8 then 16384 * b2n x.ibDis + 1024 * b2n (!x.power) + 256 * x.pind + 64 * x.aind + 32 * b2n x.hpIrq else 0
  | .slotSta => (if k < 8 then b2n x.sAttn + 2 * b2n x.sFault + 8 * b2n x.sPres + 16 * b2n x.sCmd + 64 * b2n (presence x) else 0) +
      256 * b2n d.dllsc
  | .linkSta => 8192 * b2n d.active
  | .acsCap => 0x5F
  | .acsCtl => (fnOf s (1032 + k)).acs
  | .dpcCtl => d.dpcCtl
  | .dpcSta => b2n d.dpcTrig
  | _ => 0

/-- PCI Express Capabilities: port type, and Slot Implemented where the port has the slot (R263). -/
def pcieCapOf : CfgRole → Nat
  | .upSwitch => 0x52
  | .dpSwitch k | .below k => 0x62 + 256 * b2n (decide (k < 8))
  | .intPort => 0x62
  | .fn _ => 0x02

/-- Lanes of a switch port: x16, or x8 for a half of a bifurcated port (R250). -/
def portLanes (s : State) : CfgRole → Nat
  | .dpSwitch k | .below k => if linkExists s (8 + k % 8) then 8 else 16
  | _ => 16

/-- Is a target a function of the device. -/
def CfgRole.isFn : CfgRole → Bool
  | .fn _ => true
  | _ => false

/-- Link Capabilities (R250, R263): 64 GT/s, lanes, L1 and no L0s, DLL Link Active Reporting on a downstream switch port. -/
def linkCapOf (s : State) (q : CfgRole) : Nat :=
  6 + 16 * portLanes s q + 2 ^ 11 + (match q with
    | .dpSwitch _ => 2 ^ 20
    | _ => 0)

/-- A configuration read. -/
def cfgRead (s : State) (p : Nat) (q : CfgRole) (r : CfgReg) : Nat :=
  let f := fnOf s (roleFn p q)
  match r with
  | .ids => 0x1F4B + cfgDevice q * 2 ^ 16
  | .cls => (if q.isFn then 0x120000 else 0x060400) * 256
  | .command => f.cmd + 0x100000
  | .intPin => 0
  | .busNums => if q.isFn then 0 else f.bus
  | .pcieCap => pcieCapOf q
  | .devCap => 0x8002 + (match q with
    | .fn n => if n < 512 then 2 ^ 28 else 0
    | _ => 0)
  | .devCtl => f.devCtl
  | .devCap2 => 0x13 + 32 * b2n (decide (q = .intPort))
  | .devCtl2 => f.devCtl2
  | .linkCap => linkCapOf s q
  | .linkCtl => f.linkCtl
  | .pmCap => 0xC0030000
  | .aer n => (match n.val with
    | 0 => f.aerUnc
    | 1 => f.aerUncMask
    | 2 => f.aerUncSev
    | 3 => f.aerCor
    | _ => f.aerCorMask)
  | r => (match q with
    | .dpSwitch k => dpRead s k r
    | .fn n => fnRead s p n r
    | _ => 0)

/-- VF Enable or NumVFs written (R245, R262): a lower count removes VFs as an FLR does. -/
def sriovWrite (s : State) (p : Nat) (en : Bool) (n : Nat) : State :=
  let u := upOf s p
  let n := min n 256
  let m := if en then n else 0
  let s := if u.vfEn then ((vfsOf s p).filter (fun t => decide (m ≤ t % 256))).foldl flrStart s else s
  modUp s p (fun u => { u with
    vfEn := en
    numVfs := n })

/-- A write of a function's register beyond those that every function and switch port has. PowerState, Initiate FLR and the lowering of the VF
count have rows of their own; the last acts here as well. -/
def fnWrite (s : State) (p fn : Nat) (r : CfgReg) (v : Nat) : State :=
  match r with
  | .bar n => modFn s fn (fun f => { f with bars := sput 0 f.bars n (BitVec.ofNat 64 v) })
  | .rom => modFn s fn (fun f => { f with bars := sput 0 f.bars 6 (BitVec.ofNat 64 v) })
  | .pmcsr => modFn s fn (fun f => { f with
      pmeEn := bit v 8
      pmeSt := (f.pmeSt && !bit v 15) })
  | .msixCtl => sendHeld (modFn s fn (fun f => { f with
      msixEn := bit v 15
      fnMask := bit v 14 })) fn
  | .sriovCtl => if fn < 512 then s
    else modFn (sriovWrite s p (bit v 0) (upOf s p).numVfs) fn (fun f => { f with sriov := 8 * bits v 4 3 })
  | .numVfs => if fn < 512 then s else sriovWrite s p (upOf s p).vfEn (v % 2 ^ 16)
  | .sysPage => if v ∈ [1, 2, 4, 8, 16] then modFn s fn (fun f => { f with sysPage := v }) else s
  | .vfBar n => modFn s fn (fun f => { f with bars := sput 0 f.bars (8 + n) (BitVec.ofNat 64 v) })
  | .rebar =>
    let n := bits v 13 8
    if fn = 512 ∧ 10 ≤ n ∧ n ≤ 18 then modFn s fn (fun f => { f with bars := sput 18 f.bars 16 (BitVec.ofNat 64 n) }) else s
  | _ => s

/-- A write of a downstream switch port's register. -/
def dpWrite (s : State) (k : Nat) (r : CfgReg) (v : Nat) : State :=
  match r with
  | .slotCtl => if k < 8 then modSlot s k (fun x => { x with ibDis := bit v 14 }) else s
  | .slotSta =>
    let s := if bit v 8 then modDp s k (fun d => { d with dllsc := false }) else s
    if k < 8 then modSlot s k (fun x => { x with
      sAttn := (x.sAttn && !bit v 0)
      sFault := (x.sFault && !bit v 1)
      sPres := (x.sPres && !bit v 3)
      sCmd := (x.sCmd && !bit v 4) }) else s
  | .acsCtl => modFn s (1032 + k) (fun f => { f with acs := v &&& 0x5F })
  | .dpcCtl => modDp s k (fun d => { d with dpcCtl := v % 8 })
  | .dpcSta => if bit v 0 then modDp s k (fun d => { d with dpcTrig := false }) else s
  | _ => s

/-- A configuration write. No function has I/O space or INTx (R247, R249). -/
def cfgWrite (s : State) (p : Nat) (q : CfgRole) (r : CfgReg) (v : Nat) : State :=
  let key := roleFn p q
  match r with
  | .command => modFn s key (fun f => { f with cmd := v &&& 0x0146 })
  | .busNums => if q.isFn then s else modFn s key (fun f => { f with bus := v % 2 ^ 24 })
  | .devCtl => modFn s key (fun f => { f with devCtl := v &&& 0x7FFF })
  | .devCtl2 => modFn s key (fun f => { f with devCtl2 := v &&& 0x3F })
  | .linkCtl => modFn s key (fun f => { f with linkCtl := v &&& 0x1C3 })
  | .aer n => modFn s key (fun f => match n.val with
    | 0 => { f with aerUnc := f.aerUnc - (f.aerUnc &&& v) }
    | 1 => { f with aerUncMask := v }
    | 2 => { f with aerUncSev := v }
    | 3 => { f with aerCor := f.aerCor - (f.aerCor &&& v) }
    | _ => { f with aerCorMask := v })
  | r => (match q with
    | .dpSwitch k => dpWrite s k r v
    | .fn n => fnWrite s p n r v
    | _ => s)

/-- CONFIG_REQUEST (R242–R250, R258): a read, or a write of a value, of a register in the hierarchy of a port. One for a device behind a
downstream link goes on to it. -/
def execConfigRequest (p : Fin 2) (d : CfgDst) (r : CfgReg) (w : Option Word) (s : State) : Ans := keepQueue s <|
  if !(upOf s p).link then .next s
  else match cfgTarget s p d with
    | none => .next (answerReq s 3 [])
    | some (.below k) =>
      .next (if (dpOf s k).active then emit s (.tlp (2 + k) 6 (match w with
          | some v => natLE 4 v.toNat
          | none => []))
        else linkDownAnswer s k)
    | some q =>
      if cfgRetry s p q then .next (answerReq s 2 [])
      else match w with
        | none => .next (answerReq s 1 (natLE 4 (cfgRead s p q r)))
        | some v => .next (answerReq (cfgWrite s p q r v.toNat) 1 [])

end Sys2Proof.Machine
end

