-- ==== Sys2Proof/Machine/Tensor.lean ====
section
/-! DEFINITION. Machine/Tensor.lean: the tensor coprocessor CP0: tile and bank state at acceptance, tile loads, TMMA, rounding
out, LAX export and import, control registers (R137–R147, R50–R52).
Choices beyond the words of the spec: log entries DESIGN CHOICE 12, 22, 23; DEDUCED 10. -/

namespace Sys2Proof.Machine

/-! ### Acceptance (R137, R138, R141) -/

/-- The format of a code that decoding has found valid. -/
def fmtOf (f : BitVec 5) : Fmt := (fmtOfCode f.toNat).getD .fp32

/-- The largest K of a format (R137). -/
def maxK (f : Fmt) : Nat :=
  match fmtBits f with
  | 4 => 256 | 6 => 160 | 8 => 128 | 16 => 64 | _ => 32

/-- K of a kq field. -/
def kOf (kq : Nat) : Nat := 32 * (kq + 1)

/-- Is a format a multiply operand (R54). -/
def mulFmt (f : Fmt) : Bool := f != .int32 && f != .lp8

/-- 16-bit class or FP32, for which ordered mode is selectable (R50). -/
def orderable (f : Fmt) : Bool := f == .fp16 || f == .bf16 || f == .int16 || f == .fp32

/-- A TTILE descriptor (R147). -/
def ttileWord (kq : Nat) (f : Fmt) : Word := BitVec.ofNat 32 (2 ^ 31 + kq * 2 ^ 9 + fmtCode f)

/-- Format of a descriptor. -/
def ttFmt (w : Word) : Fmt := (fmtOfCode (bits w.toNat 4 0)).getD .fp32

/-- The effective mode of a TMMA: ordered (R141). -/
def tmmaOrdered (ord : BitVec 1) (a b : Fmt) : Bool := ord == 1 && orderable a && orderable b

/-- What accepting a CP0 instruction leaves of the tracked tile and bank state; none for a refusal (ILLEGAL, SUB 4). -/
def accept0 (t : Tensor) : CP0Op → Option Tensor
  | .tld f _ _ i kq =>
    if mulFmt (fmtOf f) && decide (kOf kq.toNat ≤ maxK (fmtOf f)) then
      some { t with ttile := sput 0 t.ttile i.toNat (ttileWord kq.toNat (fmtOf f)) } else none
  | .tldt f _ _ i kq =>
    if mulFmt (fmtOf f) && !isMX (fmtOf f) && decide (kOf kq.toNat ≤ maxK (fmtOf f)) then
      some { t with ttile := sput 0 t.ttile i.toNat (ttileWord kq.toNat (fmtOf f)) } else none
  | .tlds _ _ i =>
    let w := sget 0 t.ttile i.toNat
    if w.getLsbD 31 && isMX (ttFmt w) then
      some { t with ttile := sput 0 t.ttile i.toNat (w ||| 0x40000000#32) } else none
  | .tmma bank a b ord =>
    let wa := sget 0 t.ttile a.toNat
    let wb := sget 0 t.ttile (8 + b.toNat)
    let ok (w : Word) : Bool := w.getLsbD 31 && (!isMX (ttFmt w) || w.getLsbD 30)
    let m := if tmmaOrdered ord (ttFmt wa) (ttFmt wb) then 2 else 1
    let cur := sget 0 t.tbank bank.toNat
    if ok wa && ok wb && bits wa.toNat 11 9 == bits wb.toNat 11 9 && (cur == 0 || cur == m) then
      some { t with tbank := sput 0 t.tbank bank.toNat m } else none
  | .tclr bank => some { t with tbank := sput 0 t.tbank bank.toNat 0 }
  | .tim bank _ _ =>
    if sget 0 t.tbank bank.toNat = 2 then none else some { t with tbank := sput 0 t.tbank bank.toNat 1 }
  | _ => some t

/-! ### Which entry may start (R130) -/

/-- Does an entry of the move pipe hold back a TMMA behind it, or a TMMA an entry behind it. -/
def conflict0 (a b : CP0Op) : Bool :=
  let ser : CP0Op → Bool
    | .tsig _ | .twait _ _ | .tmtc _ _ | .tmfc _ _ => true
    | _ => false
  let hit (bank : BitVec 2) (x y : BitVec 3) : CP0Op → Bool
    | .tld _ _ _ t _ | .tldt _ _ _ t _ | .tlds _ _ t => t.toNat == x.toNat || t.toNat == 8 + y.toNat
    | .tclr k | .trnd _ _ _ _ k | .txp k _ _ | .tim k _ _ => k == bank
    | _ => false
  ser a || ser b || match a, b with
    | .tmma k x y _, o | o, .tmma k x y _ => hit k x y o
    | _, _ => true

/-- Is it the MAC pipe's instruction. -/
def isMac : CP0Op → Bool
  | .tmma _ _ _ _ => true
  | _ => false

/-- The entry of one pipe that may start: the first of the pipe, when every entry before it belongs to the other pipe and
shares nothing with it. -/
def startable (q : List (CopEntry CP0Op)) (mac : Bool) : Option (Nat × CopEntry CP0Op) :=
  match q.findIdx? (fun e => isMac e.op == mac) with
  | none => none
  | some i =>
    match q[i]? with
    | none => none
    | some e => if (q.take i).all (fun p => !conflict0 p.op e.op) then some (i, e) else none

/-- Takes entry `i` off the queue. -/
def pop0 (s : State) (c i : Nat) : State :=
  parkCheck (modCell s c (fun x => { x with t := { x.t with q := x.t.q.eraseIdx i } })) c

/-- Starts the instruction of one pipe when it is of the row's kind: `run` gets its index and entry. -/
def start0 (s : State) (c : Nat) (mac : Bool) (run : Nat → CopEntry CP0Op → Option State) : Ans :=
  if cellInReset s c then .next s
  else match startable (cellOf s c).t.q mac with
    | none => .next s
    | some (i, e) => .next ((run i e).getD s)

/-- Replaces a tile. -/
def setTile (x : Cell) (i : Nat) (t : Tile) : Cell :=
  { x with t := { x.t with tiles := (i, t) :: x.t.tiles.filter (fun p => p.1 != i) } }

/-- A tile. -/
def tileOf (x : Cell) (i : Nat) : Option Tile := (x.t.tiles.find? (fun p => p.1 == i)).map Prod.snd

/-- A bank. -/
def bankOf (x : Cell) (k : Nat) : Bank := sget .empty x.t.banks k

/-- Replaces a bank. -/
def setBank (x : Cell) (k : Nat) (b : Bank) : Cell := { x with t := { x.t with banks := sput .empty x.t.banks k b } }

/-- ORs flags into TFLAGS. -/
def orT (x : Cell) (f : NumFlags) : Cell := { x with t := { x.t with flags := x.t.flags ||| f } }

/-! ### Tile loads (R139) -/

/-- Addresses base + i × stride, modulo 2^32, of `n` rows of `len` bytes. -/
def rowsAt (base stride : Word) (n len : Nat) : List (Nat × Nat) :=
  (List.range n).map (fun i => ((base + BitVec.ofNat 32 i * stride).toNat, len))

/-- Both operands are multiples of 8. -/
def mult8 (e : CopEntry CP0Op) : Bool := e.r1.toNat % 8 == 0 && e.r2.toNat % 8 == 0

/-- Fails a tile load: the tile's contents are free (R135). -/
def failTile (s : State) (c i : Nat) (e : CopEntry CP0Op) (t : Nat) (f : Fmt) (kq code : Nat) : State :=
  let (es, s) := freshCodes s (32 * kOf kq) (fmtBits f)
  stop0 (modCell s c (fun x => setTile x t ⟨f, kq, es, []⟩)) c i e.pc code

/-- A TLD or TLDT: `rows` are its ranges, `fill` makes the element codes of what was read. -/
def loadTile (s : State) (c i : Nat) (e : CopEntry CP0Op) (t : Nat) (f : Fmt) (kq : Nat) (rows : List (Nat × Nat))
    (fill : List (List Byte) → List Nat) : State :=
  match cpCheck (cellOf s c) e.user rows (mult8 e) .load with
  | some err => failTile s c i e t f kq err
  | none => cpLoad s c rows fun
    | none, s => failTile s c i e t f kq eUE
    | some ls, s => pop0 (modCell s c (fun x => setTile x t ⟨f, kq, fill ls, []⟩)) c i

/-- The element codes of packed rows of `n`. -/
def unpackRows (w n : Nat) (ls : List (List Byte)) : List Nat :=
  ls.flatMap (fun l => let v := leNat l; (List.range n).map (fun i => (v >>> (w * i)) % 2 ^ w))

/-- TLD (R139). -/
def execTld (c : Fin 256) (s : State) : Ans := keepQueue s <|
  start0 s c false (fun i e => match e.op with
    | .tld f _ _ t kq =>
      let f := fmtOf f
      let n := kOf kq.toNat
      some (loadTile s c i e t.toNat f kq.toNat (rowsAt e.r1 e.r2 32 (fmtBits f * n / 8)) (unpackRows (fmtBits f) n))
    | _ => none)

/-- TLDT (R139): row k of the source holds elements (0..31, k). -/
def execTldt (c : Fin 256) (s : State) : Ans := keepQueue s <|
  start0 s c false (fun i e => match e.op with
    | .tldt f _ _ t kq =>
      let f := fmtOf f
      let n := kOf kq.toNat
      some (loadTile s c i e t.toNat f kq.toNat (rowsAt e.r1 e.r2 n (fmtBits f * 32 / 8)) (fun ls =>
        let src := unpackRows (fmtBits f) 32 ls
        (List.range 32).flatMap (fun r => (List.range n).map (fun k => src.getD (32 * k + r) 0))))
    | _ => none)

/-- TLDS (R139): K / 32 scale bytes of each row. A failing one leaves its whole tile free (R135). -/
def execTlds (c : Fin 256) (s : State) : Ans := keepQueue s <|
  start0 s c false (fun i e => match e.op with
    | .tlds _ _ t =>
      let x := cellOf s c
      let old := (tileOf x t.toNat).getD ⟨ttFmt (sget 0 x.t.ttile t.toNat), bits (sget 0 x.t.ttile t.toNat).toNat 11 9, [], []⟩
      let rows := rowsAt e.r1 e.r2 32 (old.kq + 1)
      let fail (s : State) (code : Nat) : State :=
        let (es, s) := freshCodes s (32 * kOf old.kq) (fmtBits old.fmt)
        let (sc, s) := freshCodes s (32 * (old.kq + 1)) 8
        stop0 (modCell s c (fun x => setTile x t.toNat { old with elems := es, scales := sc })) c i e.pc code
      match cpCheck x e.user rows true .load with
      | some err => some (fail s err)
      | none => some (cpLoad s c rows fun
        | none, s => fail s eUE
        | some ls, s =>
          pop0 (modCell s c (fun x => setTile x t.toNat { old with scales := (ls.flatMap id).map BitVec.toNat })) c i)
    | _ => none)

/-! ### TMMA (R140, R141, R51) -/

/-- The values of a tile's row r. -/
def tileRow (t : Tile) (r : Nat) : List Val :=
  let n := kOf t.kq
  ((t.elems.drop (n * r)).take n).mapIdx (fun k b =>
    if isMX t.fmt then mxVal t.fmt (t.scales.getD ((t.kq + 1) * r + k / 32) 255) b else valOf t.fmt b)

/-- Is a loaded tile whole: all elements, and all scales of an MX format. -/
def tileWhole (t : Tile) : Bool :=
  t.elems.length == 32 * kOf t.kq && (!isMX t.fmt || t.scales.length == 32 * (t.kq + 1))

/-- The bank after a TMMA, none where bank and mode do not fit. -/
def tmmaBank (bank : Bank) (ord : Bool) (a b : Tile) : Option Bank :=
  let ra := (List.range 32).map (tileRow a)
  let rb := (List.range 32).map (tileRow b)
  let idx := (List.range 1024)
  let pairs (n : Nat) : List (Val × Val) := (ra.getD (n / 32) []).zip (rb.getD (n % 32) [])
  if ord then
    match bank with
    | .exact _ => none
    | b => let e := match b with
            | .ordered e => e
            | _ => []
      some (.ordered ((idx.map (fun n => (n, (chunks 32 9 (pairs n)).foldl Ord.addChunk (sget Ord.zero e n)))).filter
        (fun p => p.2 ≠ Ord.zero)))
  else
    match bank with
    | .ordered _ => none
    | b => let e := match b with
            | .exact e => e
            | _ => []
      some (.exact ((idx.map (fun n => (n, (pairs n).foldl (fun a p => a.addProd p.1 p.2) (sget Acc.zero e n)))).filter
        (fun p => p.2 ≠ Acc.zero)))

/-- TMMA (R140, R141). Where an earlier error discarded the load of one of its tiles, the spec gives the tile no contents,
and the bank's are free (DESIGN CHOICE, log entry 12). -/
def execTmma (c : Fin 256) (s : State) : Ans := keepQueue s <|
  start0 s c true (fun i e => match e.op with
    | .tmma k a b ord =>
      let x := cellOf s c
      let r : Option Bank := match tileOf x a.toNat, tileOf x (8 + b.toNat) with
        | some ta, some tb =>
          if tileWhole ta && tileWhole tb && ta.kq == tb.kq then
            tmmaBank (bankOf x k.toNat) (tmmaOrdered ord ta.fmt tb.fmt) ta tb else none
        | _, _ => none
      match r with
      | some bk => some (pop0 (setCell s c (setBank x k.toNat bk)) c i)
      | none =>
        let (bk, s) := freeBank s
        some (pop0 (modCell s c (fun x => setBank x k.toNat bk)) c i)
    | _ => none)

/-- TCLR (R141). -/
def execTclr (c : Fin 256) (s : State) : Ans := keepQueue s <|
  start0 s c false (fun i e => match e.op with
    | .tclr k => some (pop0 (modCell s c (fun x => setBank x k.toNat .empty)) c i)
    | _ => none)

/-! ### Rounding out (R142, R143) -/

/-- Entry n of a bank as a long accumulator: an ordered entry exactly (R52), an EMPTY one zero. -/
def bankAcc : Bank → Nat → Acc
  | .empty, _ => Acc.zero
  | .exact e, n => sget Acc.zero e n
  | .ordered e, n => (sget Ord.zero e n).toAcc

/-- A CP0 control register. -/
def tcr (x : Cell) (n : Nat) : Word := sget 0 x.t.cr n

/-- The mode of entry (i, j) of a TRND (R143). -/
def trndMode (x : Cell) (rm i j : Nat) : Mode :=
  modeOf rm (srBits (tcr x 5 ++ tcr x 4) (tcr x 6) (tcr x 8 + BitVec.ofNat 32 j) (tcr x 9 + BitVec.ofNat 32 i) (tcr x 10)
    (tcr x 11))

/-- Row i of a TRND: its bytes, its MX scale byte and the flags. -/
def trndRow (x : Cell) (k : Nat) (f : Fmt) (rm i : Nat) : List Byte × Nat × NumFlags :=
  let b := bankOf x k
  let as := (List.range 32).map (fun j => (bankAcc b (32 * i + j), trndMode x rm i j))
  if isMX f then
    let (sc, es, fl) := accsToMX f as
    (packElems (fmtBits f) es, sc, fl)
  else
    let rs := as.map (fun p => p.1.round f p.2)
    (packElems (fmtBits f) (rs.map Prod.fst), 0, rs.foldl (fun a r => a ||| r.2) 0)

/-- TRND (R142). -/
def execTrnd (c : Fin 256) (s : State) : Ans := keepQueue s <|
  start0 s c false (fun i e => match e.op with
    | .trnd f _ _ rm k =>
      let x := cellOf s c
      let f := fmtOf f
      let rows := (List.range 32).map (trndRow x k.toNat f rm.toNat)
      let data := (rowsAt e.r1 e.r2 32 0).zip (rows.map (fun r => r.1))
      let ws := data.map (fun p => (p.1.1, p.2)) ++
        (if isMX f then rows.mapIdx (fun j r => ((tcr x 12 + BitVec.ofNat 32 j).toNat, natLE 1 r.2.1)) else [])
      match cpCheck x e.user (ws.map (fun w => (w.1, w.2.length))) (mult8 e) .store with
      | some err => some (stop0 (cpWriteFree s c ws) c i e.pc err)
      | none => some (cpStore s c ws fun
        | false, s => stop0 s c i e.pc eUE
        | true, s => pop0 (modCell s c (fun x => orT x (rows.foldl (fun a r => a ||| r.2.2) 0))) c i)
    | _ => none)

/-! ### LAX export and import (R144) -/

/-- The slots of a TXP or TIM: first entry, and ranges of 96 bytes. -/
def laxSlots (r1 r2 : Word) : Nat × List (Nat × Nat) :=
  let first := bits r2.toNat 4 0
  let n := bits r2.toNat 9 5 + 1
  (first, (List.range (32 * n)).map (fun i => ((r1 + BitVec.ofNat 32 (96 * i)).toNat, 96)))

/-- RANGE: rows beyond row 31. -/
def laxRange (r2 : Word) : Bool := decide (bits r2.toNat 4 0 + (bits r2.toNat 9 5 + 1) > 32)

/-- TXP (R144). -/
def execTxp (c : Fin 256) (s : State) : Ans := keepQueue s <|
  start0 s c false (fun i e => match e.op with
    | .txp k _ _ =>
      let x := cellOf s c
      let (first, slots) := laxSlots e.r1 e.r2
      let ws := slots.mapIdx (fun j r => (r.1, padTo 96 (bankAcc (bankOf x k.toNat) (32 * first + j)).toLAX))
      if laxRange e.r2 then some (stop0 (cpWriteFree s c (ws.take (32 * (32 - first)))) c i e.pc eRANGE)
      else match cpCheck x e.user slots (e.r1.toNat % 32 == 0) .store with
        | some err => some (stop0 (cpWriteFree s c ws) c i e.pc err)
        | none => some (cpStore s c ws fun
          | false, s => stop0 s c i e.pc eUE
          | true, s => pop0 s c i)
    | _ => none)

/-- Fails a TIM for another reason than a malformed record: the bank's contents are free (R135). -/
def failTim (s : State) (c i k : Nat) (e : CopEntry CP0Op) (code : Nat) : State :=
  let (bk, s) := freeBank s
  stop0 (modCell s c (fun x => setBank x k bk)) c i e.pc code

/-- TIM (R144): every record is checked before any entry changes. -/
def execTim (c : Fin 256) (s : State) : Ans := keepQueue s <|
  start0 s c false (fun i e => match e.op with
    | .tim k _ _ =>
      let x := cellOf s c
      let (first, slots) := laxSlots e.r1 e.r2
      if laxRange e.r2 then some (failTim s c i k.toNat e eRANGE)
      else match cpCheck x e.user slots (e.r1.toNat % 32 == 0) .load with
        | some err => some (failTim s c i k.toNat e err)
        | none => some (cpLoad s c slots fun
          | none, s => failTim s c i k.toNat e eUE
          | some ls, s =>
            let rs := ls.map ofLAX
            if rs.any Option.isNone then stop0 s c i e.pc eLAX
            else
              let m : SMap Acc := match bankOf x k.toNat with
                | .exact m => m
                | _ => []
              let m := (rs.zipIdx).foldl (fun m p => smod Acc.zero m (32 * first + p.2) (fun a => a.merge (p.1.getD Acc.zero))) m
              pop0 (modCell s c (fun x => setBank x k.toNat (.exact m))) c i)
    | _ => none)

/-! ### Control registers and signals (R132, R147) -/

/-- TMTC of a value (R147). -/
def tmtcWrite (x : Cell) (n : Nat) (v : Word) : Cell :=
  match n with
  | 0 => { x with t := { x.t with flags := x.t.flags &&& ~~~(v.truncate 5) } }
  | 1 => if v.getLsbD 31 then { x with t := { x.t with halted := false, err := 0 } } else x
  | n =>
    if (4 ≤ n ∧ n ≤ 6) ∨ (8 ≤ n ∧ n ≤ 12) then { x with t := { x.t with cr := sput 0 x.t.cr n v } } else x

/-- The value of a CP0 control register (R147). -/
def tmfcRead (x : Cell) (n : Nat) : Word :=
  match n with
  | 0 => x.t.flags.zeroExtend 32
  | 1 => BitVec.ofNat 32 (b2n x.t.halted * 2 ^ 31 + x.t.err)
  | 2 => x.t.errpc
  | n => if 0x10 ≤ n then sget 0 x.t.ttile (n - 0x10) else tcr x n

/-- TMTC (R147): starts once every earlier CP0 instruction has started. -/
def execTmtc (c : Fin 256) (s : State) : Ans := keepQueue s <|
  start0 s c false (fun i e => match e.op with
    | .tmtc _ n => if i = 0 then some (pop0 (modCell s c (fun x => tmtcWrite x n.toNat e.r1)) c i) else none
    | _ => none)

/-- TMFC (R132): stalls the core until the queue is empty, at once while HALTED. -/
def tmfcBody (d : BitVec 5) (n : BitVec 7) (s : State) (x : Cell) : State × KOut :=
  if !t0Listed n then (s, .trap 0x01 3 (kEncode (.cp0 (.tmfc d n))))
  else if !x.t.halted && !x.t.q.isEmpty then (s, .hold x)
  else (s, .seq { x with k := setG x.k d (tmfcRead x n.toNat) })

/-- TMFC (R132). -/
def execTmfc (c : Fin 256) (d : BitVec 5) (n : BitVec 7) (s : State) : Ans := keepQueue s <| .next (issue s c (tmfcBody d n))

/-- TSIG (R132). -/
def execTsig (c : Fin 256) (s : State) : Ans := keepQueue s <|
  start0 s c false (fun i e => match e.op with
    | .tsig sl => if i = 0 then some (pop0 (modCell s c (fun x => incSluice x sl.toNat 1)) c i) else none
    | _ => none)

/-- TWAIT (R132): a wait that is not satisfied keeps its entry at the head of the queue. -/
def execTwait (c : Fin 256) (s : State) : Ans := keepQueue s <|
  start0 s c false (fun i e => match e.op with
    | .twait _ sl =>
      if i ≠ 0 ∨ (cellOf s c).t.wait.isSome then none
      else
        let w := newWait s (cellOf s c) sl e.r1
        if waitDone (cellOf s c) w then some (pop0 s c i)
        else some (modCell s c (fun x => { x with t := { x.t with wait := some w } }))
    | _ => none)

end Sys2Proof.Machine
end

