-- ==== Sys2Proof/Machine/Issue.lean ====
section
/-! DEFINITION. Machine/Issue.lean: the passing of coprocessor instructions to their slots, and undefined encodings (R112,
R113, R126, R129, R135).
Choices beyond the words of the spec: log entries DESIGN CHOICE 90; DEDUCED 20. -/

namespace Sys2Proof.Machine

/-- The first core register operand of a CP0 instruction. -/
def cp0Regs : CP0Op → BitVec 5 × BitVec 5
  | .tld _ a b _ _ | .tldt _ a b _ _ | .tlds a b _ | .trnd _ a b _ _ | .txp _ a b | .tim _ a b => (a, b)
  | .tmtc a _ | .twait a _ => (a, 0)
  | _ => (0, 0)

/-- The core register operand of a CP1 instruction. -/
def cp1Reg : CP1Op → BitVec 5
  | .vld _ r | .vst _ r _ | .vbc _ r _ | .vxp _ r | .vxim _ r | .vmtc r _ | .vwait r _ => r
  | _ => 0

/-- A CP0 instruction at issue (R113, R129, R135, R138, R147). An instruction that is discarded while HALTED leaves the tracked tile
and bank state as it was (DESIGN CHOICE, log entry 90). -/
def cp0Body (op : CP0Op) (s : State) (x : Cell) : State × KOut :=
  let w := kEncode (.cp0 op)
  let v1 := gReg x.k (cp0Regs op).1
  let v2 := gReg x.k (cp0Regs op).2
  match op with
  | .tmfc d n => tmfcBody d n s x
  | _ =>
    let priv : Bool := match op with
      | .tmtc _ n => n == 1 || n == 2
      | _ => false
    match accept0 x.t op with
    | none => (s, .trap 0x01 4 w)
    | some t =>
      if userMode x.k && priv then (s, .trap 0x02 0 w)
      else if x.t.halted then
        match op with
        | .tmtc _ n => if n = 1 then (s, .seq (tmtcWrite x 1 v1)) else (s, .seq x)
        | _ => (s, .seq x)
      else if x.t.q.length ≥ 16 then (s, .hold x)
      else (s, .seq { x with t := { t with q := x.t.q ++ [⟨op, v1, v2, userMode x.k, x.k.pc⟩] } })

/-- A CP1 instruction at issue (R113, R129, R135, R156). -/
def cp1Body (op : CP1Op) (s : State) (x : Cell) : State × KOut :=
  let w := kEncode (.cp1 op)
  let v1 := gReg x.k (cp1Reg op)
  match op with
  | .vmfc d n => vmfcBody d n s x
  | _ =>
    let priv : Bool := match op with
      | .vmtc _ n => n == 1 || n == 2
      | _ => false
    if userMode x.k && priv then (s, .trap 0x02 0 w)
    else if x.v.halted then
      match op with
      | .vmtc _ n => if n = 1 then (s, .seq (vmtcWrite x 1 v1)) else (s, .seq x)
      | _ => (s, .seq x)
    else if x.v.q.length ≥ 16 then (s, .hold x)
    else (s, .seq { x with v := { x.v with q := x.v.q ++ [⟨op, v1, 0, userMode x.k, x.k.pc⟩] } })

/-- A coprocessor instruction word at issue (R112, R113, R126); a word of another major is none. -/
def coprocBody (c : Nat) (w : Word) (s : State) (x : Cell) : State × KOut :=
  match kDecode w with
  | .ill sub => (s, .trap 0x01 sub w)
  | .ok (.cp0 op) => cp0Body op s x
  | .ok (.cp1 op) => cp1Body op s x
  | .ok (.cp2 op) => cp2Body op s x
  | .ok (.cp3 op) => cp3Body c op s x
  | .ok _ => (s, .hold x)

/-- COPROC_ISSUE (R113). -/
def execCoprocIssue (c : Fin 256) (w : Word) (s : State) : Ans := keepQueue s <|
  if w.toNat / 2 ^ 26 < 0x38 then .next s else .next (issue s c (coprocBody c w))

/-- An undefined or reserved encoding traps ILLEGAL with its subcode (R126). A word that R126 does not refuse is not this
event's, and nothing happens. -/
def execIllegalInstruction (c : Fin 256) (w : Word) (s : State) : Ans := keepQueue s <|
  match kDecode w with
  | .ill sub => .next (issueK s c (fun _ => .trap 0x01 sub w))
  | .ok _ => .next s

end Sys2Proof.Machine
end

