-- ==== Sys2Proof/Machine/TimeBase.lean ====
section
/-! DEFINITION. Machine/TimeBase.lean: the time base: its tick, its source, its registers and pins (R290–R293).
Choices beyond the words of the spec: log entries DESIGN CHOICE 40. -/

namespace Sys2Proof.Machine

/-- The rate correction in force, parts per 10^9 (R290, R291). -/
def tmbRate (s : State) : Int :=
  if tmbRole s = 0 ∨ tmbRole s = 3 then (BitVec.ofNat 32 (rd s f_TMB_RATE_PPB)).toInt else s.tb.servo

/-- One tick of the 1 GHz clock (R290): a pending target is applied, then the count advances by 1 ns and the rate correction, at
half rate while a backward correction lasts. -/
def tmbTick (s : State) : State :=
  let t := s.tb
  let t := match t.set with
    | none => t
    | some v =>
      if v ≥ t.ns.toNat then { t with
        set := none
        ns := BitVec.ofNat 64 v
        frac := 0 }
      else { t with
        set := none
        slew := t.slew + 2 * (t.ns.toNat - v) }
  let full := (2 ^ 32 * (1000000000 + tmbRate s) / 1000000000).toNat
  let step := if t.slew > 0 then full / 2 else full
  let v := t.ns.toNat * 2 ^ 32 + t.frac.toNat + step
  let t := { t with
    ns := BitVec.ofNat 64 (v / 2 ^ 32)
    frac := BitVec.ofNat 32 v
    slew := t.slew - 1
    ppsOut := t.ppsOut && decide (s.clk < t.ppsFall) }
  { s with tb := t }

/-- A PPS_IN edge (R291): it represents TMB_TOD_NEXT, or the previous edge's time plus 1 s. -/
def execPpsInEdge (s : State) : Ans := keepQueue s <|
  if tmbRole s ≠ 1 then .next s
  else
    let t := s.tb
    let v := if t.tod then some (regv s f_TMB_TOD_NEXT_V.key).toNat else if t.edge = 0 then none else some (t.edge - 1 + 1000000000)
    match v with
    | none => .next s
    | some v =>
      let s := { s with tb := { t with
        edge := v + 1
        tod := false } }
      .next (servo s ((v : Int) - (now s : Int)))

/-- The count passes a whole second (R290). -/
def execPpsOutPulse (s : State) : Ans := keepQueue s <|
  let sec := now s / 1000000000
  if sec ≤ s.tb.sec then .next s
  else
    let w := rd s f_TMB_CTL_PPS_W
    .next { s with tb := { s.tb with
      sec := sec
      ppsOut := decide (0 < w)
      ppsFall := s.clk + 1000000 * w } }

/-- May the manager or the firmware set rate and time: roles FREE and PTP. -/
def tmbOpen (s : State) : Bool := tmbRole s == 0 || tmbRole s == 3

/-- A TMB_SET write (R290, R291). -/
def execTmbSet (v : DWord) (s : State) : Ans := keepQueue s <|
  if !barOpen s then .next s else
  if tmbOpen s then
    let s := setReg s f_TMB_SET_V.key v
    .next { s with tb := { s.tb with set := some v.toNat } }
  else .next (writeIgnored s)

/-- A TMB_RATE write, clamped to ±200 ppm (R290). -/
def execTmbRate (v : Word) (s : State) : Ans := keepQueue s <|
  if !barOpen s then .next s else
  if tmbOpen s then .next (wr s f_TMB_RATE_PPB (offset32 (max (-200000) (min 200000 v.toInt))))
  else .next (writeIgnored s)

/-- Do source fields fit a role (R291). -/
def sourceFits (s : State) (role link member : Nat) : Bool :=
  match role with
  | 2 => rd s (f_LNK_CTL_MODE link) == 1 && member == 0
  | 3 => decide (2 ≤ rd s (f_LNK_CTL_MODE link)) && decide (member < members (rd s (f_LNK_CTL_MODE link)))
  | _ => true

/-- A TMB_CTL write (R291, R9). A reserved SRC_LINK leaves that field as it was. -/
def execTmbCtlWrite (w : Word) (s : State) : Ans := keepQueue s <|
  if !barOpen s then .next s else
  let v := w.toNat
  let role := bits v 31 30
  let bad := decide (bits v 29 24 > 35)
  let link := if bad then rd s f_TMB_CTL_SRC_LINK else bits v 29 24
  let member := bits v 23 21
  let s := wr (wr s f_TMB_CTL_PPS_W (bits v 15 8)) f_TMB_CTL_SYNC_TOL (bits v 7 0)
  let s := if bad then writeIgnored s else s
  if !sourceFits s role link member then .next (writeIgnored s)
  else
    -- the source fields name the source of roles LINK and PTP alone
    let changed := decide (role ≠ tmbRole s) || (decide (2 ≤ role) &&
      (decide (link ≠ rd s f_TMB_CTL_SRC_LINK) || decide (member ≠ rd s f_TMB_CTL_SRC_MEMBER)))
    let s := wr (wr (wr s f_TMB_CTL_ROLE role) f_TMB_CTL_SRC_LINK link) f_TMB_CTL_SRC_MEMBER member
    if !changed then .next s
    else
      -- the new source has not synchronised yet
      let s := timeBack (wr s f_TMB_STAT_SYNCED 0)
      .next { s with tb := { s.tb with
        good := 0
        edge := 0 } }

/-- A read of TMB_TIME_LO captures TMB_TIME_HI and TMB_TIME_FRAC (R290). -/
def execTmbTimeCapture (s : State) : Ans := keepQueue s <|
  if !barOpen s then .next s else
  let s := wr (wr s f_TMB_TIME_HI_V (now s / 2 ^ 32)) f_TMB_TIME_FRAC_V s.tb.frac.toNat
  .next (emit s (.rdata 4 (natLE 4 (now s))))

/-- The time source of role PPS or PTP is lost (R293). -/
def execTimeSourceLost (s : State) : Ans := keepQueue s <|
  .next (if tmbRole s = 1 ∨ tmbRole s = 3 then timeLost s else s)

end Sys2Proof.Machine
end

