-- ==== Sys2Proof/Machine/Dispatch.lean ====
section
/-! DEFINITION. Machine/Dispatch.lean: every command and its meaning, one arm for each row of the command table. -/

namespace Sys2Proof.Machine

/-- The effect of a command on everything but the queue. -/
def exec (i : Instr) (s : State) : Host.Outcome State Fault Refusal :=
  match i with
  | .registerWrite src off wide v => Sys2Proof.Machine.execRegisterWrite src off wide v s
  | .bar4Access off q => Sys2Proof.Machine.execBar4Access off q s
  | .configRequest p d r w => Sys2Proof.Machine.execConfigRequest p d r w s
  | .cellReset c => Sys2Proof.Machine.execCellReset c s
  | .blockReset k => Sys2Proof.Machine.execBlockReset k s
  | .regionReset r => Sys2Proof.Machine.execRegionReset r s
  | .rgnUnitRstCell r b c => Sys2Proof.Machine.execRgnUnitRstCell r b c s
  | .rgnUnitRstBlock r b => Sys2Proof.Machine.execRgnUnitRstBlock r b s
  | .rgnRsvWeightWrite r w => Sys2Proof.Machine.execRgnRsvWeightWrite r w s
  | .reservoirPatrolScrub r => Sys2Proof.Machine.execReservoirPatrolScrub r s
  | .flumeMsg p err => Sys2Proof.Machine.execFlumeMsg p err s
  | .flumeRdReq p err => Sys2Proof.Machine.execFlumeRdReq p err s
  | .flumeWr p err => Sys2Proof.Machine.execFlumeWr p err s
  | .flumeRdRsp p err => Sys2Proof.Machine.execFlumeRdRsp p err s
  | .flumeWrAck p => Sys2Proof.Machine.execFlumeWrAck p s
  | .flitCreditReturn router port plane vc => Sys2Proof.Machine.execFlitCreditReturn router port plane vc s
  | .mergeOpen k ix => Sys2Proof.Machine.execMergeOpen k ix s
  | .mergeAdd k ix data => Sys2Proof.Machine.execMergeAdd k ix data s
  | .mergeClose k ix => Sys2Proof.Machine.execMergeClose k ix s
  | .add c d a b => Sys2Proof.Machine.execAdd c d a b s
  | .sub c d a b => Sys2Proof.Machine.execSub c d a b s
  | .adc c d a b => Sys2Proof.Machine.execAdc c d a b s
  | .sbc c d a b => Sys2Proof.Machine.execSbc c d a b s
  | .cmp c a b => Sys2Proof.Machine.execCmp c a b s
  | .and c d a b => Sys2Proof.Machine.execAnd c d a b s
  | .or c d a b => Sys2Proof.Machine.execOr c d a b s
  | .xor c d a b => Sys2Proof.Machine.execXor c d a b s
  | .andn c d a b => Sys2Proof.Machine.execAndn c d a b s
  | .sll c d a b => Sys2Proof.Machine.execSll c d a b s
  | .srl c d a b => Sys2Proof.Machine.execSrl c d a b s
  | .sra c d a b => Sys2Proof.Machine.execSra c d a b s
  | .ror c d a b => Sys2Proof.Machine.execRor c d a b s
  | .mul c d a b => Sys2Proof.Machine.execMul c d a b s
  | .mulh c d a b => Sys2Proof.Machine.execMulh c d a b s
  | .mulhu c d a b => Sys2Proof.Machine.execMulhu c d a b s
  | .div c d a b => Sys2Proof.Machine.execDiv c d a b s
  | .divu c d a b => Sys2Proof.Machine.execDivu c d a b s
  | .rem c d a b => Sys2Proof.Machine.execRem c d a b s
  | .remu c d a b => Sys2Proof.Machine.execRemu c d a b s
  | .divideComplete c => Sys2Proof.Machine.execDivideComplete c s
  | .csel c cond d a b => Sys2Proof.Machine.execCsel c cond d a b s
  | .addi c d a ix => Sys2Proof.Machine.execAddi c d a ix s
  | .cmpi c a ix => Sys2Proof.Machine.execCmpi c a ix s
  | .andi c d a ix => Sys2Proof.Machine.execAndi c d a ix s
  | .ori c d a ix => Sys2Proof.Machine.execOri c d a ix s
  | .xori c d a ix => Sys2Proof.Machine.execXori c d a ix s
  | .shiSll c d a n => Sys2Proof.Machine.execShiSll c d a n s
  | .shiSrl c d a n => Sys2Proof.Machine.execShiSrl c d a n s
  | .shiSra c d a n => Sys2Proof.Machine.execShiSra c d a n s
  | .shiRor c d a n => Sys2Proof.Machine.execShiRor c d a n s
  | .lui c d ix => Sys2Proof.Machine.execLui c d ix s
  | .lb c d a ix => Sys2Proof.Machine.execLb c d a ix s
  | .lbu c d a ix => Sys2Proof.Machine.execLbu c d a ix s
  | .lh c d a ix => Sys2Proof.Machine.execLh c d a ix s
  | .lhu c d a ix => Sys2Proof.Machine.execLhu c d a ix s
  | .lw c d a ix => Sys2Proof.Machine.execLw c d a ix s
  | .sb c b a ix => Sys2Proof.Machine.execSb c b a ix s
  | .sh c b a ix => Sys2Proof.Machine.execSh c b a ix s
  | .sw c b a ix => Sys2Proof.Machine.execSw c b a ix s
  | .bc c cond off => Sys2Proof.Machine.execBc c cond off s
  | .j c off => Sys2Proof.Machine.execJ c off s
  | .jal c off => Sys2Proof.Machine.execJal c off s
  | .jalr c d a ix => Sys2Proof.Machine.execJalr c d a ix s
  | .loop c lvl r len => Sys2Proof.Machine.execLoop c lvl r len s
  | .loopi c lvl n len => Sys2Proof.Machine.execLoopi c lvl n len s
  | .mfc c d n => Sys2Proof.Machine.execMfc c d n s
  | .mtc c r n => Sys2Proof.Machine.execMtc c r n s
  | .syscall c code => Sys2Proof.Machine.execSyscall c code s
  | .eret c => Sys2Proof.Machine.execEret c s
  | .brk c code => Sys2Proof.Machine.execBreak c code s
  | .fence c cp ix => Sys2Proof.Machine.execFence c cp ix s
  | .park c => Sys2Proof.Machine.execPark c s
  | .interruptEntry c => Sys2Proof.Machine.execInterruptEntry c s
  | .timerCompareMatch c => Sys2Proof.Machine.execTimerCompareMatch c s
  | .windowResponse c => Sys2Proof.Machine.execWindowResponse c s
  | .busTimeout c => Sys2Proof.Machine.execBusTimeout c s
  | .imemParityReload c => Sys2Proof.Machine.execImemParityReload c s
  | .cellStart c image => Sys2Proof.Machine.execCellStart c image s
  | .coprocIssue c w => Sys2Proof.Machine.execCoprocIssue c w s
  | .tld c => Sys2Proof.Machine.execTld c s
  | .tldt c => Sys2Proof.Machine.execTldt c s
  | .tlds c => Sys2Proof.Machine.execTlds c s
  | .tmma c => Sys2Proof.Machine.execTmma c s
  | .tclr c => Sys2Proof.Machine.execTclr c s
  | .trnd c => Sys2Proof.Machine.execTrnd c s
  | .txp c => Sys2Proof.Machine.execTxp c s
  | .tim c => Sys2Proof.Machine.execTim c s
  | .tmtc c => Sys2Proof.Machine.execTmtc c s
  | .tmfc c d n => Sys2Proof.Machine.execTmfc c d n s
  | .tsig c => Sys2Proof.Machine.execTsig c s
  | .twait c => Sys2Proof.Machine.execTwait c s
  | .vld c => Sys2Proof.Machine.execVld c s
  | .vst c => Sys2Proof.Machine.execVst c s
  | .vbc c => Sys2Proof.Machine.execVbc c s
  | .vadd c => Sys2Proof.Machine.execVadd c s
  | .vsub c => Sys2Proof.Machine.execVsub c s
  | .vmul c => Sys2Proof.Machine.execVmul c s
  | .vmax c => Sys2Proof.Machine.execVmax c s
  | .vmin c => Sys2Proof.Machine.execVmin c s
  | .vfma c => Sys2Proof.Machine.execVfma c s
  | .vsel c => Sys2Proof.Machine.execVsel c s
  | .vcmp c => Sys2Proof.Machine.execVcmp c s
  | .vhmax c => Sys2Proof.Machine.execVhmax c s
  | .vcvt c => Sys2Proof.Machine.execVcvt c s
  | .vfnExp2 c => Sys2Proof.Machine.execVfnExp2 c s
  | .vfnExp c => Sys2Proof.Machine.execVfnExp c s
  | .vfnLog2 c => Sys2Proof.Machine.execVfnLog2 c s
  | .vfnLog c => Sys2Proof.Machine.execVfnLog c s
  | .vfnRcp c => Sys2Proof.Machine.execVfnRcp c s
  | .vfnRsqrt c => Sys2Proof.Machine.execVfnRsqrt c s
  | .vexpd c => Sys2Proof.Machine.execVexpd c s
  | .vexp2d c => Sys2Proof.Machine.execVexp2d c s
  | .vred c => Sys2Proof.Machine.execVred c s
  | .vdot c => Sys2Proof.Machine.execVdot c s
  | .vxclr c => Sys2Proof.Machine.execVxclr c s
  | .vxrnd c => Sys2Proof.Machine.execVxrnd c s
  | .vquot c => Sys2Proof.Machine.execVquot c s
  | .vxp c => Sys2Proof.Machine.execVxp c s
  | .vxim c => Sys2Proof.Machine.execVxim c s
  | .vmtc c => Sys2Proof.Machine.execVmtc c s
  | .vmfc c d n => Sys2Proof.Machine.execVmfc c d n s
  | .vsig c => Sys2Proof.Machine.execVsig c s
  | .vwait c => Sys2Proof.Machine.execVwait c s
  | .sinc c r sl => Sys2Proof.Machine.execSinc c r sl s
  | .swait c r sl => Sys2Proof.Machine.execSwait c r sl s
  | .stest c d sl => Sys2Proof.Machine.execStest c d sl s
  | .sset c r sl => Sys2Proof.Machine.execSset c r sl s
  | .smtc c r n => Sys2Proof.Machine.execSmtc c r n s
  | .smfc c d n => Sys2Proof.Machine.execSmfc c d n s
  | .sluiceWaitSatisfied c e => Sys2Proof.Machine.execSluiceWaitSatisfied c e s
  | .waitWatchdogTimeout c e => Sys2Proof.Machine.execWaitWatchdogTimeout c e s
  | .inboxMessageArrival c => Sys2Proof.Machine.execInboxMessageArrival c s
  | .inboxDeposit c => Sys2Proof.Machine.execInboxDeposit c s
  | .dq c r => Sys2Proof.Machine.execDq c r s
  | .dmsg c r1 r2 ord => Sys2Proof.Machine.execDmsg c r1 r2 ord s
  | .dmaCopy d => Sys2Proof.Machine.execDmaCopy d s
  | .dmaZero d => Sys2Proof.Machine.execDmaZero d s
  | .dmaDescriptorComplete c => Sys2Proof.Machine.execDmaDescriptorComplete c s
  | .dmsgSend c => Sys2Proof.Machine.execDmsgSend c s
  | .sluUnpark c => Sys2Proof.Machine.execSluUnpark c s
  | .barrierArrive c b gen => Sys2Proof.Machine.execBarrierArrive c b gen s
  | .barrierArriveFrame link b gen => Sys2Proof.Machine.execBarrierArriveFrame link b gen s
  | .barrierReleaseFrame link b gen status => Sys2Proof.Machine.execBarrierReleaseFrame link b gen status s
  | .barrierTimeout b => Sys2Proof.Machine.execBarrierTimeout b s
  | .barrierDisable b => Sys2Proof.Machine.execBarrierDisable b s
  | .sluDumpArm => Sys2Proof.Machine.execSluDumpArm s
  | .dumpCapture => Sys2Proof.Machine.execDumpCapture s
  | .dumpDone => Sys2Proof.Machine.execDumpDone s
  | .extentOwnerWrite e v => Sys2Proof.Machine.execExtentOwnerWrite e v s
  | .granuleOwnerWrite g v => Sys2Proof.Machine.execGranuleOwnerWrite g v s
  | .extentScrubDone e => Sys2Proof.Machine.execExtentScrubDone e s
  | .granuleScrubDone g => Sys2Proof.Machine.execGranuleScrubDone g s
  | .translationWalk wk t ta w who source => Sys2Proof.Machine.execTranslationWalk wk t ta w who source s
  | .prqRecordWrite => Sys2Proof.Machine.execPrqRecordWrite s
  | .prDone => Sys2Proof.Machine.execPrDone s
  | .pageRequestDeadline who => Sys2Proof.Machine.execPageRequestDeadline who s
  | .trnInv scope t => Sys2Proof.Machine.execTrnInv scope t s
  | .trnInvComplete => Sys2Proof.Machine.execTrnInvComplete s
  | .doorbellPi loc link form v => Sys2Proof.Machine.execDoorbellPi loc link form v s
  | .doorbellCqh loc link form v => Sys2Proof.Machine.execDoorbellCqh loc link form v s
  | .furrowFetch f => Sys2Proof.Machine.execFurrowFetch f s
  | .entryCompletion f ix => Sys2Proof.Machine.execEntryCompletion f ix s
  | .furrowCreate => Sys2Proof.Machine.execFurrowCreate s
  | .furrowEnable => Sys2Proof.Machine.execFurrowEnable s
  | .furrowFreeze => Sys2Proof.Machine.execFurrowFreeze s
  | .furrowRelease => Sys2Proof.Machine.execFurrowRelease s
  | .furrowRead => Sys2Proof.Machine.execFurrowRead s
  | .pcieCompletion port tag st poison data => Sys2Proof.Machine.execPcieCompletion port tag st poison data s
  | .pcieCompletionTimeout port tag => Sys2Proof.Machine.execPcieCompletionTimeout port tag s
  | .p2pRequest k d q => Sys2Proof.Machine.execP2pRequest k d q s
  | .perstAssert p => Sys2Proof.Machine.execPerstAssert p s
  | .perstDeassert p => Sys2Proof.Machine.execPerstDeassert p s
  | .hotReset p => Sys2Proof.Machine.execHotReset p s
  | .upLinkDown p => Sys2Proof.Machine.execUpLinkDown p s
  | .portReset p => Sys2Proof.Machine.execPortReset p s
  | .flrInitiate t => Sys2Proof.Machine.execFlrInitiate t s
  | .flrTlpCutoff t => Sys2Proof.Machine.execFlrTlpCutoff t s
  | .flrComplete t => Sys2Proof.Machine.execFlrComplete t s
  | .pfFlr p => Sys2Proof.Machine.execPfFlr p s
  | .vfDisable p n => Sys2Proof.Machine.execVfDisable p n s
  | .slotChainScan di => Sys2Proof.Machine.execSlotChainScan di s
  | .slotControlWrite n power pind aind hp => Sys2Proof.Machine.execSlotControlWrite n power pind aind hp s
  | .slotPerstDeassert n => Sys2Proof.Machine.execSlotPerstDeassert n s
  | .surpriseDown k => Sys2Proof.Machine.execSurpriseDown k s
  | .containmentEnd k => Sys2Proof.Machine.execContainmentEnd k s
  | .powerStateWrite fn => Sys2Proof.Machine.execPowerStateWrite fn s
  | .pmeTurnOff p => Sys2Proof.Machine.execPmeTurnOff p s
  | .wake reason slot fn => Sys2Proof.Machine.execWake reason slot fn s
  | .hostResume fn => Sys2Proof.Machine.execHostResume fn s
  | .elsLoss m => Sys2Proof.Machine.execElsLoss m s
  | .elsRestore m => Sys2Proof.Machine.execElsRestore m s
  | .retrain n => Sys2Proof.Machine.execRetrain n s
  | .trainingComplete n remap grp sg1204 node credits rtt off => Sys2Proof.Machine.execTrainingComplete n remap grp sg1204 node credits rtt off s
  | .trainingFail n => Sys2Proof.Machine.execTrainingFail n s
  | .linkDark n dark => Sys2Proof.Machine.execLinkDark n dark s
  | .alignmentMarker n j pos l => Sys2Proof.Machine.execAlignmentMarker n j pos l s
  | .dataFrame n fr => Sys2Proof.Machine.execDataFrame n fr s
  | .ctrlFrame n fr => Sys2Proof.Machine.execCtrlFrame n fr s
  | .idleSlot n slot => Sys2Proof.Machine.execIdleSlot n slot s
  | .replayTimeout n => Sys2Proof.Machine.execReplayTimeout n s
  | .keepaliveSend n => Sys2Proof.Machine.execKeepaliveSend n s
  | .keepaliveTimeout n => Sys2Proof.Machine.execKeepaliveTimeout n s
  | .sleepEntry n => Sys2Proof.Machine.execSleepEntry n s
  | .sleepFrame n fr => Sys2Proof.Machine.execSleepFrame n fr s
  | .sleepExit n => Sys2Proof.Machine.execSleepExit n s
  | .timeExchange n => Sys2Proof.Machine.execTimeExchange n s
  | .timeFrame n t2 t3 => Sys2Proof.Machine.execTimeFrame n t2 t3 s
  | .ppsInEdge => Sys2Proof.Machine.execPpsInEdge s
  | .ppsOutPulse => Sys2Proof.Machine.execPpsOutPulse s
  | .tmbSet v => Sys2Proof.Machine.execTmbSet v s
  | .tmbRate v => Sys2Proof.Machine.execTmbRate v s
  | .tmbCtlWrite w => Sys2Proof.Machine.execTmbCtlWrite w s
  | .tmbTimeCapture => Sys2Proof.Machine.execTmbTimeCapture s
  | .ethFrameArrival p data => Sys2Proof.Machine.execEthFrameArrival p data s
  | .pfcFrame p en times => Sys2Proof.Machine.execPfcFrame p en times s
  | .frameParse n err => Sys2Proof.Machine.execFrameParse n err s
  | .frameRelease n => Sys2Proof.Machine.execFrameRelease n s
  | .post f ix => Sys2Proof.Machine.execPost f ix s
  | .send f ix => Sys2Proof.Machine.execSend f ix s
  | .frameSelect p => Sys2Proof.Machine.execFrameSelect p s
  | .ruleWrite table index => Sys2Proof.Machine.execRuleWrite table index s
  | .ruleDelete table index => Sys2Proof.Machine.execRuleDelete table index s
  | .ruleRead table index err => Sys2Proof.Machine.execRuleRead table index err s
  | .serviceWrite p v => Sys2Proof.Machine.execServiceWrite p v s
  | .gateEntryBoundary p => Sys2Proof.Machine.execGateEntryBoundary p s
  | .gateListChange p => Sys2Proof.Machine.execGateListChange p s
  | .queueHistogramSample p => Sys2Proof.Machine.execQueueHistogramSample p s
  | .histogramClear q shadow => Sys2Proof.Machine.execHistogramClear q shadow s
  | .lateralWrite f ix => Sys2Proof.Machine.execLateralWrite f ix s
  | .lateralRead f ix => Sys2Proof.Machine.execLateralRead f ix s
  | .atomicFadd f ix => Sys2Proof.Machine.execAtomicFadd f ix s
  | .atomicSwap f ix => Sys2Proof.Machine.execAtomicSwap f ix s
  | .atomicCswap f ix => Sys2Proof.Machine.execAtomicCswap f ix s
  | .winReg f ix => Sys2Proof.Machine.execWinReg f ix s
  | .winDereg f ix => Sys2Proof.Machine.execWinDereg f ix s
  | .firstTransmission f ix => Sys2Proof.Machine.execFirstTransmission f ix s
  | .packetRetransmit f ix k => Sys2Proof.Machine.execPacketRetransmit f ix k s
  | .messageDeadline f ix => Sys2Proof.Machine.execMessageDeadline f ix s
  | .writePacket => Sys2Proof.Machine.execWritePacket s
  | .readReqPacket => Sys2Proof.Machine.execReadReqPacket s
  | .atomicPacket => Sys2Proof.Machine.execAtomicPacket s
  | .ackPacket => Sys2Proof.Machine.execAckPacket s
  | .readRspPacket => Sys2Proof.Machine.execReadRspPacket s
  | .atomicRspPacket => Sys2Proof.Machine.execAtomicRspPacket s
  | .ackSend node id => Sys2Proof.Machine.execAckSend node id s
  | .filterEntryExpiry node id => Sys2Proof.Machine.execFilterEntryExpiry node id s
  | .closingWriteRelease node src dst g => Sys2Proof.Machine.execClosingWriteRelease node src dst g s
  | .closingWriteDiscard node src dst g => Sys2Proof.Machine.execClosingWriteDiscard node src dst g s
  | .groupEntryExpiry node src dst g => Sys2Proof.Machine.execGroupEntryExpiry node src dst g s
  | .read f ix => Sys2Proof.Machine.execRead f ix s
  | .write f ix => Sys2Proof.Machine.execWrite f ix s
  | .flush f ix => Sys2Proof.Machine.execFlush f ix s
  | .writeZeroes f ix => Sys2Proof.Machine.execWriteZeroes f ix s
  | .trim f ix => Sys2Proof.Machine.execTrim f ix s
  | .ctxPut f ix => Sys2Proof.Machine.execCtxPut f ix s
  | .ctxGet f ix => Sys2Proof.Machine.execCtxGet f ix s
  | .nsCreate f ix => Sys2Proof.Machine.execNsCreate f ix s
  | .nsDelete f ix => Sys2Proof.Machine.execNsDelete f ix s
  | .getLog f ix => Sys2Proof.Machine.execGetLog f ix s
  | .restartQueueResume f ix => Sys2Proof.Machine.execRestartQueueResume f ix s
  | .restartQueueDiscard f ix => Sys2Proof.Machine.execRestartQueueDiscard f ix s
  | .recover f ix => Sys2Proof.Machine.execRecover f ix s
  | .rangeLockGrant f ix => Sys2Proof.Machine.execRangeLockGrant f ix s
  | .nvmeCompletion d id st => Sys2Proof.Machine.execNvmeCompletion d id st s
  | .nvmeTimeout d id => Sys2Proof.Machine.execNvmeTimeout d id s
  | .driveControllerReset d => Sys2Proof.Machine.execDriveControllerReset d s
  | .smartPoll d warn => Sys2Proof.Machine.execSmartPoll d warn s
  | .driveActivationDone d => Sys2Proof.Machine.execDriveActivationDone d s
  | .storagePowerRequest req => Sys2Proof.Machine.execStoragePowerRequest req s
  | .storagePowerTransition => Sys2Proof.Machine.execStoragePowerTransition s
  | .segmentCompaction n u => Sys2Proof.Machine.execSegmentCompaction n u s
  | .gcmEnc f ix => Sys2Proof.Machine.execGcmEnc f ix s
  | .gcmDec f ix => Sys2Proof.Machine.execGcmDec f ix s
  | .tagVerdict f ix => Sys2Proof.Machine.execTagVerdict f ix s
  | .xtsEnc f ix => Sys2Proof.Machine.execXtsEnc f ix s
  | .xtsDec f ix => Sys2Proof.Machine.execXtsDec f ix s
  | .sha256 f ix => Sys2Proof.Machine.execSha256 f ix s
  | .sha384 f ix => Sys2Proof.Machine.execSha384 f ix s
  | .save f ix => Sys2Proof.Machine.execSave f ix s
  | .load f ix => Sys2Proof.Machine.execLoad f ix s
  | .manWrite f ix => Sys2Proof.Machine.execManWrite f ix s
  | .manRead f ix => Sys2Proof.Machine.execManRead f ix s
  | .trnSave f ix => Sys2Proof.Machine.execTrnSave f ix s
  | .drainDeadline => Sys2Proof.Machine.execDrainDeadline s
  | .trnRestore f ix content => Sys2Proof.Machine.execTrnRestore f ix content s
  | .turnoutGo => Sys2Proof.Machine.execTurnoutGo s
  | .siphonEnable => Sys2Proof.Machine.execSiphonEnable s
  | .storeConnectionLoss k => Sys2Proof.Machine.execStoreConnectionLoss k s
  | .storeCommandTimeout k id => Sys2Proof.Machine.execStoreCommandTimeout k id s
  | .keepAlive => Sys2Proof.Machine.execKeepAlive s
  | .attend f ix perr => Sys2Proof.Machine.execAttend f ix perr s
  | .append f ix => Sys2Proof.Machine.execAppend f ix s
  | .scan f ix perr => Sys2Proof.Machine.execScan f ix perr s
  | .mergeLax f ix => Sys2Proof.Machine.execMergeLax f ix s
  | .mergeFinalise f ix => Sys2Proof.Machine.execMergeFinalise f ix s
  | .mergeRound f ix => Sys2Proof.Machine.execMergeRound f ix s
  | .sample f ix => Sys2Proof.Machine.execSample f ix s
  | .gather f ix perr => Sys2Proof.Machine.execGather f ix perr s
  | .run f ix => Sys2Proof.Machine.execRun f ix s
  | .runTimeout f ix => Sys2Proof.Machine.execRunTimeout f ix s
  | .miminCreate f ix => Sys2Proof.Machine.execMiminCreate f ix s
  | .miminDestroy f ix => Sys2Proof.Machine.execMiminDestroy f ix s
  | .pin f ix => Sys2Proof.Machine.execPin f ix s
  | .unpin f ix => Sys2Proof.Machine.execUnpin f ix s
  | .truncate f ix => Sys2Proof.Machine.execTruncate f ix s
  | .twinCompare f ix same => Sys2Proof.Machine.execTwinCompare f ix same s
  | .turnoutCreate => Sys2Proof.Machine.execTurnoutCreate s
  | .turnoutDestroy => Sys2Proof.Machine.execTurnoutDestroy s
  | .turnoutReset => Sys2Proof.Machine.execTurnoutReset s
  | .keyLoad => Sys2Proof.Machine.execKeyLoad s
  | .keyFree => Sys2Proof.Machine.execKeyFree s
  | .turnoutCommandBusy => Sys2Proof.Machine.execTurnoutCommandBusy s
  | .channelUpPi t v => Sys2Proof.Machine.execChannelUpPi t v s
  | .channelUpCi t v => Sys2Proof.Machine.execChannelUpCi t v s
  | .channelDnPi t v => Sys2Proof.Machine.execChannelDnPi t v s
  | .channelDnCi t v => Sys2Proof.Machine.execChannelDnCi t v s
  | .powerOn => Sys2Proof.Machine.execPowerOn s
  | .powerOnRelease straps locked => Sys2Proof.Machine.execPowerOnRelease straps locked s
  | .fuseSenseDone reach k0 k1 k2 k3 rollback test avs factory => Sys2Proof.Machine.execFuseSenseDone reach k0 k1 k2 k3 rollback test avs factory s
  | .optionFetchDone nor a b => Sys2Proof.Machine.execOptionFetchDone nor a b s
  | .imageApplyDone data => Sys2Proof.Machine.execImageApplyDone data s
  | .selfTestDone recs => Sys2Proof.Machine.execSelfTestDone recs s
  | .selfTestAbort => Sys2Proof.Machine.execSelfTestAbort s
  | .firmwareLoad err runtime => Sys2Proof.Machine.execFirmwareLoad err runtime s
  | .firmwareActivate err runtime => Sys2Proof.Machine.execFirmwareActivate err runtime s
  | .svnCommit => Sys2Proof.Machine.execSvnCommit s
  | .firmwareReady => Sys2Proof.Machine.execFirmwareReady s
  | .bootTimeout => Sys2Proof.Machine.execBootTimeout s
  | .componentCrash k => Sys2Proof.Machine.execComponentCrash k s
  | .componentHeartbeatMiss k => Sys2Proof.Machine.execComponentHeartbeatMiss k s
  | .managementWatchdog => Sys2Proof.Machine.execManagementWatchdog s
  | .sysRst width => Sys2Proof.Machine.execSysRst width s
  | .rstSw key => Sys2Proof.Machine.execRstSw key s
  | .chipReset ix => Sys2Proof.Machine.execChipReset ix s
  | .fullReset ix => Sys2Proof.Machine.execFullReset ix s
  | .resetRelease locked => Sys2Proof.Machine.execResetRelease locked s
  | .thermalTrip k => Sys2Proof.Machine.execThermalTrip k s
  | .supplyFault rail => Sys2Proof.Machine.execSupplyFault rail s
  | .faultWindowClose src => Sys2Proof.Machine.execFaultWindowClose src s
  | .faultClearActive src => Sys2Proof.Machine.execFaultClearActive src s
  | .faultClearLasting src => Sys2Proof.Machine.execFaultClearLasting src s
  | .recoveryEnd => Sys2Proof.Machine.execRecoveryEnd s
  | .faultInject cls src code detail => Sys2Proof.Machine.execFaultInject cls src code detail s
  | .telSnapArm => Sys2Proof.Machine.execTelSnapArm s
  | .snapshotCopy => Sys2Proof.Machine.execSnapshotCopy s
  | .ditchRiderPoll => Sys2Proof.Machine.execDitchRiderPoll s
  | .extest => Sys2Proof.Machine.execExtest s
  | .samplePreload data => Sys2Proof.Machine.execSamplePreload data s
  | .bypass code => Sys2Proof.Machine.execBypass code s
  | .dsel c => Sys2Proof.Machine.execDsel c s
  | .ddata w => Sys2Proof.Machine.execDdata w s
  | .debugStatus => Sys2Proof.Machine.execDebugStatus s
  | .claim => Sys2Proof.Machine.execClaim s
  | .debugRelease => Sys2Proof.Machine.execDebugRelease s
  | .halt => Sys2Proof.Machine.execHalt s
  | .resume => Sys2Proof.Machine.execResume s
  | .step => Sys2Proof.Machine.execStep s
  | .rdReg arg => Sys2Proof.Machine.execRdReg arg s
  | .wrReg arg => Sys2Proof.Machine.execWrReg arg s
  | .rdMem a => Sys2Proof.Machine.execRdMem a s
  | .wrMem a => Sys2Proof.Machine.execWrMem a s
  | .debugReset => Sys2Proof.Machine.execDebugReset s
  | .breakpointHit c => Sys2Proof.Machine.execBreakpointHit c s
  | .debugNonceRequest => Sys2Proof.Machine.execDebugNonceRequest s
  | .debugVerify => Sys2Proof.Machine.execDebugVerify s
  | .debugLock => Sys2Proof.Machine.execDebugLock s
  | .debugUnlockExpiry => Sys2Proof.Machine.execDebugUnlockExpiry s
  | .nonceVoid => Sys2Proof.Machine.execNonceVoid s
  | .powerMeasurement l => Sys2Proof.Machine.execPowerMeasurement l s
  | .prochotAssert => Sys2Proof.Machine.execProchotAssert s
  | .thermalSensorRead t => Sys2Proof.Machine.execThermalSensorRead t s
  | .droopTrip r => Sys2Proof.Machine.execDroopTrip r s
  | .droopHoldEnd r => Sys2Proof.Machine.execDroopHoldEnd r s
  | .regulatorTimeout rail => Sys2Proof.Machine.execRegulatorTimeout rail s
  | .smbusRequest r => Sys2Proof.Machine.execSmbusRequest r s
  | .setTod v => Sys2Proof.Machine.execSetTod v s
  | .i2cTransaction outcome => Sys2Proof.Machine.execI2cTransaction outcome s
  | .i2cBusClear bus pulses found => Sys2Proof.Machine.execI2cBusClear bus pulses found s
  | .healthToggle => Sys2Proof.Machine.execHealthToggle s
  | .pullupTest pin fell => Sys2Proof.Machine.execPullupTest pin fell s
  | .padShortDetect pin => Sys2Proof.Machine.execPadShortDetect pin s
  | .illegalInstruction c w => Sys2Proof.Machine.execIllegalInstruction c w s
  | .timeSourceLost => Sys2Proof.Machine.execTimeSourceLost s
  | .storeTargetCompletion k id st data => Sys2Proof.Machine.execStoreTargetCompletion k id st data s
  | .storeConnectionOpen k queues lbaOk => Sys2Proof.Machine.execStoreConnectionOpen k queues lbaOk s
  | .dpLinkUp k => Sys2Proof.Machine.execDpLinkUp k s
  | .auxPowerOn => Sys2Proof.Machine.execAuxPowerOn s
  | .refclk25mLoss => Sys2Proof.Machine.execRefclk25mLoss s
  | .prochotRelease => Sys2Proof.Machine.execProchotRelease s
  | .pcsLockLoss n => Sys2Proof.Machine.execPcsLockLoss n s
  | .activationComplete => Sys2Proof.Machine.execActivationComplete s
  | .driveControllerStart d ok worn slabs => Sys2Proof.Machine.execDriveControllerStart d ok worn slabs s

end Sys2Proof.Machine
end

