-- ==== Sys2Proof/Machine/Tick.lean ====
section
/-! DEFINITION. Machine/Tick.lean: one nanosecond of the block's own clock, which passes when no command waits (DESIGN CHOICE, log entry 2): the
time base, the region clocks, the ends of unit resets, retraining, and the messages the device's own units send unasked.
Choices beyond the words of the spec: log entries DESIGN CHOICE 2, 70, 99. -/

namespace Sys2Proof.Machine

/-- Clears RGN_UNIT_RST.BUSY of a region when the unit whose reset ends is the one it asked for (R87). -/
def unitDone (s : State) (r unit : Nat) : State :=
  if sget 0 s.fab.unit r = unit + 1 then
    { wr s (f_RGN_UNIT_RST_BUSY r) 0 with fab := { s.fab with unit := sput 0 s.fab.unit r 0 } }
  else s

/-- A unit reset completes (R62, R65, R67). -/
def fireTimer (s : State) : Timer → State
  | .cellUp c => unitDone (modCell s c (fun x => { x with inReset := false })) (c / 16) c
  | .blockUp k => unitDone { s with fab := { s.fab with blockRst := ndel s.fab.blockRst k } } (k / 4) (0x100 + k)
  | .regionUp r => { s with fab := { s.fab with regionRst := ndel s.fab.regionRst r } }

/-- The unit resets that are due complete, in the order in which they were asserted. -/
def fireTimers (s : State) : State :=
  let due := s.fab.timers.filter (fun p => decide (p.1 ≤ s.clk))
  due.foldl (fun s p => fireTimer s p.2)
    { s with fab := { s.fab with timers := s.fab.timers.filter (fun p => !decide (p.1 ≤ s.clk)) } }

/-- A region's clock edges of one ns, in 1/32000 cycle: STEP of 16 PLL edges, halved while stretched (R443, R444). -/
def tickEdges (s : State) (r : Nat) : Nat :=
  edgesPerNs * rd s f_PWR_STAT_STEP / 16 / (1 + rd s (f_RGN_CLK_STAT_STRETCHED r))

/-- Every region clock runs for one ns. -/
def tickRegions (s : State) : State :=
  { s with fab := { s.fab with
    edges := (List.range 16).foldl (fun m r => smod 0 m r (fun e => e + tickEdges s r)) s.fab.edges } }

/-- A link with AUTO whose training failed trains again when its 100 ms have passed (R279). -/
def tickLinks (s : State) : State :=
  (List.range 36).foldl (fun s n =>
    let l := lnkOf s n
    if decide (0 < l.retryAt) && decide (l.retryAt ≤ s.clk + 1) then
      (if rd s (f_LNK_CTL_AUTO n) = 1 ∧ lnkState s n = lsDown then startTraining s n
        else modLnk s n (fun l => { l with retryAt := 0 })) else s) s

/-- The links' receivers and transmitters: groups deliver, and markers leave when their cycle comes (R281, R287). -/
def tickFrames (s : State) : State :=
  let s := (List.range 36).foldl (fun s n => if (lnkOf s n).skew.isEmpty then s else deskewOut s n) s
  if markerNo s.clk = markerNo (s.clk - 1) then s else (List.range 36).foldl markerOut s

/-- One nanosecond passes. In reset, without power or without the reference clock nothing moves but time. -/
def tick (s : State) : State :=
  let s := { s with clk := s.clk + 1 }
  if clocksRun s then serveSide (tickHealth (tickProchot (sendPmes (tickDrives (tickFrames (tickLinks (fireTimers (tickRegions (tickSnap (tmbTick s)))))))))) else s

end Sys2Proof.Machine
end

