-- ==== Sys2Proof/Machine/Step.lean ====
section
/-! DEFINITION. Machine/Step.lean: one step: the command at the front of the queue, or, when none waits, one nanosecond.
Choices beyond the words of the spec: log entries DESIGN CHOICE 2, 11, 68, 70. -/

namespace Sys2Proof.Machine

/-- One step (DESIGN CHOICE, log entry 2); time leaves the queue as it stands. -/
def step (s : State) : Host.Outcome State Fault Refusal :=
  match s.pending with
  | [] => keepQueue s (.next (tick s))
  | c :: q => exec c { s with pending := q }

/-- The state with the command that a table word spells at the front of the queue; no word spells one. -/
def State.withFetchWord (s : State) (nbits w : Nat) : State :=
  match decodeTableWord nbits w with
  | some c => { s with pending := c :: s.pending }
  | none => s

end Sys2Proof.Machine
end

