-- ==== Sys2Proof/WellFormed.lean ====
section
/-! DEFINITION. WellFormed.lean: what a command's operands must satisfy beyond their types: the lengths and forms that the spec
gives the things they carry.
Choices beyond the words of the spec: log entries DESIGN CHOICE 9. -/

namespace Sys2Proof
open Sys2Proof.Machine

/-- A memory request carries a byte at least, and a write 512 bytes at most (R250). -/
def memReqOk : MemReq → Bool
  | .read n => decide (0 < n.val)
  | .write d => decide (0 < d.length) && decide (d.length ≤ 512)

/-- The offset lies in the source's BAR0: 64 MiB for PF0, 64 KiB for a VF (R244). -/
def srcReach : RegSrc → Nat → Bool
  | .vf _, o => decide (o < 0x10000)
  | .companion, o => decide (o < 0x10000)
  | .pf0, _ => true
  | .firmware, _ => true

/-- A flume packet of a type fits the header and the flits of R78, at most 4 KiB; messages use plane 0 (R75). -/
def packetOk (ty : Nat) (p : Packet) : Bool :=
  decide (p.ty = ty) && decide (p.dest < 4096) && decide (p.src < 4096) && decide (p.status ≤ 3) &&
    decide (p.owner ≤ 0x202) && decide (p.tag < 65536) && decide (p.addr < 2 ^ 52) &&
    decide (p.data.length ≤ 4096) && decide (p.len ≤ 4096) && decide (p.plane < 2) && (ty != 0 || decide (p.data.length ≤ 64 ∧ p.plane = 0))

/-- A fuse key slot holds a SHA-384 digest, or is revoked (R413). -/
def keyOk (k : FuseKey) : Bool := decide (k.digest.length = 48) || k.revoked

/-- A native frame fills whole slots (R283). -/
def frameOk (l : List Byte) : Bool := decide (0 < l.length) && decide (l.length % 64 = 0)

/-- A frame header carries a CREDIT for each VC (R283). -/
def rxOk (p : RxNat) : Bool := decide (p.credit.length = 8)

/-- A turnout image names a turnout (R380). -/
def imageOk (x : TurnImage) : Bool := decide (x.src < 512)

/-- Well-formed commands. -/
def Instr.wf : Instr → Bool
  | .registerWrite src off wide _ => decide (off.toNat % (if wide then 8 else 4) = 0) && srcReach src off.toNat
  | .bar4Access _ q => memReqOk q
  | .flumeMsg p _ => packetOk 0 p
  | .flumeRdReq p _ => packetOk 1 p
  | .flumeWr p _ => packetOk 3 p
  | .flumeRdRsp p _ => packetOk 2 p
  | .flumeWrAck p => packetOk 4 p.1
  | .mergeAdd _ _ data => decide (8 ≤ data.length) && decide (data.length ≤ 96)
  | .cellStart _ image => decide (image.length ≤ 0x8000)
  | .translationWalk _ _ _ _ _ source => decide (source.val ≠ 0)
  | .pcieCompletion _ _ _ _ data => decide (data.length ≤ 4096)
  | .p2pRequest _ _ q => memReqOk q
  | .trainingComplete _ _ _ _ _ credits _ _ => decide (credits.length = 8)
  | .alignmentMarker _ _ _ l => decide (l.length = 15)
  | .dataFrame _ fr => frameOk fr
  | .ctrlFrame _ fr => frameOk fr
  | .idleSlot _ slot => decide (slot.length = 64)
  | .sleepFrame _ fr => frameOk fr
  | .ethFrameArrival _ data => decide (64 ≤ data.length) && decide (data.length ≤ 9216)
  | .pfcFrame _ _ times => decide (times.length = 8)
  | .barrierArriveFrame p _ _ => rxOk p
  | .barrierReleaseFrame p _ _ _ => rxOk p
  | .timeFrame p _ _ => rxOk p
  | .trnRestore _ _ content => imageOk content
  | .fuseSenseDone _ k0 k1 k2 k3 _ _ avs _ => [k0, k1, k2, k3].all keyOk && decide (avs.length = 5)
  | .optionFetchDone _ a b => decide (a.length = 256) && decide (b.length = 256)
  | .bypass code => decide (code.toNat ∉ [0x00, 0x01, 0x10, 0x11, 0x12])
  | .powerMeasurement l => decide ((l.map Prod.fst).Nodup)
  | .thermalSensorRead t => decide (t.length = 24)
  | .storeTargetCompletion _ _ _ data => decide (data.length % 4096 = 0)
  | .configRequest .. | .cellReset .. | .blockReset .. | .regionReset .. | .rgnUnitRstCell .. | .rgnUnitRstBlock .. | .rgnRsvWeightWrite ..
  | .reservoirPatrolScrub .. | .flitCreditReturn .. | .mergeOpen .. | .mergeClose .. | .add .. | .sub .. | .adc ..
  | .sbc .. | .cmp .. | .and .. | .or .. | .xor .. | .andn .. | .sll ..
  | .srl .. | .sra .. | .ror .. | .mul .. | .mulh .. | .mulhu .. | .div ..
  | .divu .. | .rem .. | .remu .. | .divideComplete .. | .csel .. | .addi .. | .cmpi ..
  | .andi .. | .ori .. | .xori .. | .shiSll .. | .shiSrl .. | .shiSra .. | .shiRor ..
  | .lui .. | .lb .. | .lbu .. | .lh .. | .lhu .. | .lw .. | .sb ..
  | .sh .. | .sw .. | .bc .. | .j .. | .jal .. | .jalr .. | .loop ..
  | .loopi .. | .mfc .. | .mtc .. | .syscall .. | .eret .. | .brk .. | .fence ..
  | .park .. | .interruptEntry .. | .timerCompareMatch .. | .windowResponse .. | .busTimeout .. | .imemParityReload .. | .coprocIssue ..
  | .tld .. | .tldt .. | .tlds .. | .tmma .. | .tclr .. | .trnd .. | .txp ..
  | .tim .. | .tmtc .. | .tmfc .. | .tsig .. | .twait .. | .vld .. | .vst ..
  | .vbc .. | .vadd .. | .vsub .. | .vmul .. | .vmax .. | .vmin .. | .vfma ..
  | .vsel .. | .vcmp .. | .vhmax .. | .vcvt .. | .vfnExp2 .. | .vfnExp .. | .vfnLog2 ..
  | .vfnLog .. | .vfnRcp .. | .vfnRsqrt .. | .vexpd .. | .vexp2d .. | .vred .. | .vdot ..
  | .vxclr .. | .vxrnd .. | .vquot .. | .vxp .. | .vxim .. | .vmtc .. | .vmfc ..
  | .vsig .. | .vwait .. | .sinc .. | .swait .. | .stest .. | .sset .. | .smtc ..
  | .smfc .. | .sluiceWaitSatisfied .. | .waitWatchdogTimeout .. | .inboxMessageArrival .. | .inboxDeposit .. | .dq .. | .dmsg ..
  | .dmaCopy .. | .dmaZero .. | .dmaDescriptorComplete .. | .dmsgSend .. | .sluUnpark .. | .barrierArrive .. 
  | .barrierTimeout .. | .barrierDisable .. | .sluDumpArm | .dumpCapture | .dumpDone | .extentOwnerWrite ..
  | .granuleOwnerWrite .. | .extentScrubDone .. | .granuleScrubDone .. | .prqRecordWrite | .prDone | .pageRequestDeadline .. | .trnInv ..
  | .trnInvComplete | .doorbellPi .. | .doorbellCqh .. | .furrowFetch .. | .entryCompletion .. | .furrowCreate | .furrowEnable
  | .furrowFreeze | .furrowRelease | .furrowRead | .pcieCompletionTimeout .. | .perstAssert .. | .perstDeassert .. | .hotReset ..
  | .upLinkDown .. | .portReset .. | .flrInitiate .. | .flrTlpCutoff .. | .flrComplete .. | .pfFlr .. | .vfDisable ..
  | .slotChainScan .. | .slotControlWrite .. | .slotPerstDeassert .. | .surpriseDown .. | .containmentEnd .. | .powerStateWrite .. | .pmeTurnOff ..
  | .wake .. | .hostResume .. | .elsLoss .. | .elsRestore .. | .retrain .. | .trainingFail .. | .linkDark ..
  | .replayTimeout .. | .keepaliveSend .. | .keepaliveTimeout .. | .sleepEntry .. | .sleepExit .. | .timeExchange ..
  | .ppsInEdge | .ppsOutPulse | .tmbSet .. | .tmbRate .. | .tmbCtlWrite .. | .tmbTimeCapture | .frameParse ..
  | .frameRelease .. | .post .. | .send .. | .frameSelect .. | .ruleWrite .. | .ruleDelete .. | .ruleRead ..
  | .serviceWrite .. | .gateEntryBoundary .. | .gateListChange .. | .queueHistogramSample .. | .histogramClear .. | .lateralWrite .. | .lateralRead ..
  | .atomicFadd .. | .atomicSwap .. | .atomicCswap .. | .winReg .. | .winDereg .. | .firstTransmission .. | .packetRetransmit ..
  | .messageDeadline .. | .writePacket | .readReqPacket | .atomicPacket | .ackPacket | .readRspPacket | .atomicRspPacket
  | .ackSend .. | .filterEntryExpiry .. | .closingWriteRelease .. | .closingWriteDiscard .. | .groupEntryExpiry .. | .read .. | .write ..
  | .flush .. | .writeZeroes .. | .trim .. | .ctxPut .. | .ctxGet .. | .nsCreate .. | .nsDelete ..
  | .getLog .. | .restartQueueResume .. | .restartQueueDiscard .. | .recover .. | .rangeLockGrant .. | .nvmeCompletion .. | .nvmeTimeout ..
  | .driveControllerReset .. | .smartPoll .. | .driveActivationDone .. | .storagePowerRequest .. | .storagePowerTransition | .segmentCompaction .. | .gcmEnc ..
  | .gcmDec .. | .tagVerdict .. | .xtsEnc .. | .xtsDec .. | .sha256 .. | .sha384 .. | .save ..
  | .load .. | .manWrite .. | .manRead .. | .trnSave .. | .drainDeadline | .turnoutGo | .siphonEnable
  | .storeConnectionLoss .. | .storeCommandTimeout .. | .keepAlive | .attend .. | .append .. | .scan .. | .mergeLax ..
  | .mergeFinalise .. | .mergeRound .. | .sample .. | .gather .. | .run .. | .runTimeout .. | .miminCreate ..
  | .miminDestroy .. | .pin .. | .unpin .. | .truncate .. | .twinCompare .. | .turnoutCreate | .turnoutDestroy
  | .turnoutReset | .keyLoad | .keyFree | .turnoutCommandBusy | .channelUpPi .. | .channelUpCi .. | .channelDnPi ..
  | .channelDnCi .. | .powerOn | .powerOnRelease .. | .imageApplyDone .. | .selfTestDone .. | .selfTestAbort | .firmwareLoad ..
  | .firmwareActivate .. | .svnCommit | .firmwareReady | .bootTimeout | .componentCrash .. | .componentHeartbeatMiss .. | .managementWatchdog
  | .sysRst .. | .rstSw .. | .chipReset .. | .fullReset .. | .resetRelease .. | .thermalTrip .. | .supplyFault ..
  | .faultWindowClose .. | .faultClearActive .. | .faultClearLasting .. | .recoveryEnd | .faultInject .. | .telSnapArm | .snapshotCopy
  | .ditchRiderPoll | .extest | .samplePreload .. | .dsel .. | .ddata .. | .debugStatus | .claim
  | .debugRelease | .halt | .resume | .step | .rdReg .. | .wrReg .. | .rdMem ..
  | .wrMem .. | .debugReset | .breakpointHit .. | .debugNonceRequest | .debugVerify | .debugLock | .debugUnlockExpiry
  | .nonceVoid | .prochotAssert | .droopTrip .. | .droopHoldEnd .. | .regulatorTimeout .. | .smbusRequest .. | .setTod ..
  | .i2cTransaction .. | .i2cBusClear .. | .healthToggle | .pullupTest .. | .padShortDetect .. | .illegalInstruction .. | .timeSourceLost
  | .storeConnectionOpen .. | .dpLinkUp .. | .auxPowerOn | .refclk25mLoss | .prochotRelease | .pcsLockLoss .. | .activationComplete
  | .driveControllerStart .. => true

end Sys2Proof
end

