-- ==== Sys2Proof/Safety.lean ====
section
/-! DEFINITION. Safety.lean: the words that the statements use: sound states, the conditions under which a command has its
effect, and the shapes of next states that many commands share. -/

namespace Sys2Proof.Machine

/-- The memories are in canonical form: keys strictly rising, no entry equal to what an unlisted key reads as. -/
def Mems.wf (m : Mems) : Bool :=
  swf 0 m.sram && swf none m.hbm && swf none m.ext && swf 0 m.ecc && swf false m.par

/-- Every command that waits is well formed. -/
def QueueOk (s : State) : Prop := ∀ c ∈ s.pending, Instr.wf c = true

/-- A state with the queue of another: a meaning never touches the queue. -/
def withQueue (s t : State) : State := { t with pending := s.pending }

/-! ### The Kiben core -/

/-- The core of a cell can issue the instruction at its pc: it runs, the cell is not in reset, no interrupt is
to be taken first, and the fetch meets no breakpoint, trap or parity error. -/
def Ready (s : State) (c : Nat) : Prop := canIssue s c = true ∧ pendingInt (cellOf s c) = none ∧ fetchCheck s c = .ok

/-- The core's registers. -/
abbrev coreOf (s : State) (c : Nat) : KCore := (cellOf s c).k

/-- The next state of an instruction that completes sequentially with the core registers `k`: the next pc follows R109, and
nothing outside the cell changes. -/
def seqTo (s : State) (c : Nat) (k : KCore) : State :=
  setCell s c (boundary { cellOf s c with k := { nextPc k with run := .running } })

/-- The next state of an instruction that jumps to `t` with the core registers `k`. -/
def jumpTo (s : State) (c : Nat) (k : KCore) (t : Word) : State :=
  setCell s c (boundary { cellOf s c with k := { k with pc := t, run := .running } })

/-- FLAGS with N and Z of a result (R103). -/
def nzcv (r : Word) (c v : Bool) : BitVec 4 := mkFlags r.msb (r == 0) c v

/-- Does an exact result lie outside the signed 32-bit range (R103). -/
def outside32 (n : Int) : Bool := decide (n < -2 ^ 31 ∨ 2 ^ 31 ≤ n)

/-- The next state of a trap that saves `epc` (R121): CR_EPC, CR_CAUSE, CR_TVAL, CR_STATUS and pc change, and a RUN that the
cell executes notes it (R187). -/
def trapTo (s : State) (c : Nat) (k : KCore) (code sub : Nat) (tval epc : Word) : State :=
  runTrap (setCell s c (boundary { cellOf s c with k := { k with
    epc := epc
    cause := BitVec.ofNat 32 (256 * sub + code)
    tval := tval
    status := BitVec.ofNat 5 (16 + 8 * b2n (ie k) + 4 * b2n (!userMode k) + 1)
    pc := k.tvec
    run := .running } })) c code tval (userMode k)

/-- The next state of a trap condition that arises while EXL = 1: the core stops with all its state, and an event is recorded
(R125). -/
def stopOn (s : State) (c : Nat) (code : Nat) : State :=
  event (setCell s c { cellOf s c with k := { coreOf s c with run := .stopped } }) c 1 0x04 code

/-! ### Furrow entries -/

/-- Entry `i` of furrow `f` is fetched and not yet started, and it is of a class and an opcode. -/
def EntryReady (s : State) (f i cls op : Nat) (e : Entry) : Prop :=
  entryOf s f i = some e ∧ e.ph = .fetched ∧ furClass s f = cls ∧ e.op = op

/-- An entry of a CIPHER or SIPHON furrow once it has started. -/
def fetchStart (e : Entry) : Entry := { e with snap := e.snap.set 2 1 }

/-- The entry is ready, and every entry of its furrow fetched before it has started (R358, R373). -/
def InTurn (s : State) (f i cls op : Nat) (e : Entry) : Prop :=
  EntryReady s f i cls op e ∧
  s.infl.any (fun x => x.f == e.f && decide (x.seq < e.seq) && decide (x.ph = .fetched) && x.snap.getD 2 0 == 0) = false

/-- A fetched STORAGE entry has started, or can start (R342). -/
def StoReady (s : State) (f i op : Nat) (e : Entry) : Prop :=
  EntryReady s f i clStorage op e ∧ (stoStarted e = true ∨ stoCanStart s e = true)

/-- The entry once it has started. -/
def stoEntry (e : Entry) : Entry := if stoStarted e then e else { e with snap := [2] }

/-- The state once the entry has started. -/
def stoState (s : State) (e : Entry) : State := if stoStarted e then s else modEntry s e.f e.i (fun e => { e with snap := [2] })

/-- From `u` on, a command row goes on over its pieces: at once where there is none; with an NVMe command for each where every drive
is ready and has room; with DEVICE_FAULT, noting the first drive that is not ready (R340, R344). -/
def StoGoes (c : Instr) (s u : State) (e : Entry) (ps : List (Nat × Nat × Nat)) (kind : NvKind) (data : Nat → List Byte)
    (ent : Option CtxRec) (res : Nat) (done : State) : Prop :=
  (ps = [] → exec c s = .next (withQueue s done)) ∧
  (ps ≠ [] → ps.all (fun p => drvReady u p.1) = true → drvsFree u (ps.map (fun p => p.1)) = true →
    exec c s = .next (withQueue s (modEntry
      (ps.foldl (fun s p => nvIssue s p.1 e.f e.i kind (eNs e.b) p.2.1 p.2.2 ((data p.2.1).take p.2.2) ent) u) e.f e.i
      (fun e => { e with ph := .running, snap := [2, 0, 0, 0, 0, res] })))) ∧
  (∀ p, ps.find? (fun p => !drvReady u p.1) = some p → ent = none →
    exec c s = .next (withQueue s (endEntry (modEntry u e.f e.i (fun e => { e with snap := [2, p.1 + 1, 0, p.2.1 / 4096, 0, 0] })) e.f e.i
      0x0F noResult)))

end Sys2Proof.Machine
end

