-- ==== Sys2Proof/Certificates/Slice0/Obligations.lean ====
section
/-! DEFINITION. Certificates/Slice0/Obligations.lean: the statements for the provers. The docstring of each names the rules it rests
on. A clause about a value that the spec leaves open holds for every value of it. -/

open Sys2Proof Sys2Proof.Machine

/-- A step takes the command at the front of the queue and runs exec on it with the queue's rest; on an empty queue, where no clock
runs, one nanosecond passes and nothing else moves (the model's tick: log entry 2). -/
def Obligations.QueueFront : Prop :=
  (∀ (s : State) (c : Instr) (q : List Instr), s.pending = c :: q → step s = exec c { s with pending := q }) ∧
  (∀ s : State, s.pending = [] → clocksRun s = false → step s = .next { s with clk := s.clk + 1 })

/-- Every step answers a next state, never a fault or a refusal, and takes one command off the front of the queue and adds none. -/
def Obligations.StepsAnswer : Prop :=
  ∀ s : State, ∃ t, step s = .next t ∧ t.pending = s.pending.tail

/-- Every step keeps the queue sound: no command that waits is ill-formed. -/
def Obligations.QueueStaysSound : Prop :=
  ∀ s t : State, QueueOk s → step s = .next t → QueueOk t

/-- The queue is sound at reset: it is empty. -/
def Obligations.QueueSoundAtReset : Prop := QueueOk State.reset ∧ State.reset.pending = []

/-- The machine right after power-on reset: GEN_STATE is FETCH, RST_CAUSE names source 0 at level FULL, every core is halted in
supervisor mode with zero registers, the reservoir reads zeros, no furrow, context or page request exists, every key slot is
invalid, and the configuration registers named here read their reset values (R127, R361, R397, R407). -/
def Obligations.ResetState : Prop :=
  let s := State.reset
  rd s f_GEN_STATE_STATE = 1 ∧ (regv s 0x100008).toNat = 0x10007 ∧
  (∀ c : Fin 256, (coreOf s c).run = .halted ∧ (coreOf s c).pc = 0 ∧ userMode (coreOf s c) = false ∧ ie (coreOf s c) = false ∧
    exl (coreOf s c) = false ∧ (coreOf s c).flags = 0 ∧ (coreOf s c).tvec = 0 ∧ (cellOf s c).turnout = 0x200#10 ∧
    (∀ r : BitVec 5, gReg (coreOf s c) r = 0) ∧ (∀ k, loopS (coreOf s c) k = 0 ∧ loopE (coreOf s c) k = 0)) ∧
  s.m.wf = true ∧ (∀ a, memByte s (0x100_0000_0000 + a % 0x1_0000_0000) = 0) ∧
  (∀ f, furOf s f = none) ∧ s.infl = [] ∧ (∀ t id, ctxOf s t id = none) ∧ s.lev.prq = [] ∧
  (∀ k, (keySlotOf s k).ty = 0 ∧ (keySlotOf s k).owner = 0x200) ∧
  rd s f_FLT_CFG_WIN = 0x3E8 ∧ rd s f_FLT_CFG_THR = 0x10 ∧ rd s f_CQS_CFG_TMO = 0x1F40 ∧ rd s f_SIP_CFG_TMO = 0x1F40 ∧ rd s f_PWR_CAP_RAISE = 0xA ∧
  rd s f_LAT_CFG_RTO = 0x14

/-- Kiben words: every instruction that the decoder accepts is read back from the word that encodes it, with every operand at every
value (R98–R101, R126). -/
def Obligations.KibenDecodeEncode : Prop :=
  ∀ i : KInstr, kOk i = true → kDecode (kEncode i) = .ok i

/-- Kiben words written out from the encoding tables decode to what they stand for, and undefined ones are refused with their
subcode (R98–R101, R106, R126). -/
def Obligations.KibenWords : Prop :=
  kDecode 0x04000009#32 = .ok (.alu .or 0 0 0) ∧ kDecode 0x8C1F0000#32 = .ok (.jalr 0 31 0) ∧
  kDecode 0x08220005#32 = .ok (.addi 1 2 5) ∧ kDecode 0x40640010#32 = .ok (.load .lb 3 4 16) ∧ kDecode 0x80000003#32 = .ok (.bc 0 3) ∧
  kDecode 0x00000000#32 = .ill 0 ∧ kDecode 0xFFFFFFFF#32 = .ill 2 ∧ kDecode 0x0C200000#32 = .ill 1 ∧ kDecode 0x83800000#32 = .ill 3

/-- The condition codes of BC and CSEL (R104): BC branches and CSEL selects by the table, each odd code is the inverse of the even
code below it, and codes Eh and Fh are reserved: the word is undefined, and an instruction with one takes ILLEGAL with subcode 3
(R126), or a double trap while EXL = 1 (R125). -/
def Obligations.Conditions : Prop :=
  (∀ f : BitVec 4,
    let n := flagN f = true
    let z := flagZ f = true
    let c := flagC f = true
    let v := flagV f = true
    (condHolds 0x0 f = true ↔ z) ∧ (condHolds 0x1 f = true ↔ ¬ z) ∧ (condHolds 0x2 f = true ↔ ¬ (n ↔ v)) ∧ (condHolds 0x3 f = true ↔ (n ↔ v)) ∧
    (condHolds 0x4 f = true ↔ z ∨ ¬ (n ↔ v)) ∧ (condHolds 0x5 f = true ↔ ¬ z ∧ (n ↔ v)) ∧
    (condHolds 0x6 f = true ↔ ¬ c) ∧ (condHolds 0x7 f = true ↔ c) ∧ (condHolds 0x8 f = true ↔ ¬ c ∨ z) ∧ (condHolds 0x9 f = true ↔ c ∧ ¬ z) ∧
    (condHolds 0xA f = true ↔ n) ∧ (condHolds 0xB f = true ↔ ¬ n) ∧ (condHolds 0xC f = true ↔ v) ∧ (condHolds 0xD f = true ↔ ¬ v) ∧
    (∀ k : BitVec 4, condOk k = true → k.getLsbD 0 = true → condHolds k f = !condHolds (k - 1) f)) ∧
  (∀ (d a b : BitVec 5) (o : BitVec 22) (k : BitVec 4), k = 0xE ∨ k = 0xF →
    kDecode (kEncode (.bc k o)) = .ill 3 ∧ kDecode (kEncode (.csel k d a b)) = .ill 3) ∧
  (∀ (s : State) (c : Fin 256) (d a b : BitVec 5) (o : BitVec 22) (k : BitVec 4), Ready s c → condOk k = true →
    let x := coreOf s c
    let t := BitVec.ofInt 32 (x.pc.toInt + 4 * o.toInt)
    exec (.bc c k o) s = .next (if condHolds k x.flags then jumpTo s c (leaveLoops x t) t else seqTo s c x) ∧
    exec (.csel c k d a b) s = .next (seqTo s c (setG x d (if condHolds k x.flags then gReg x a else gReg x b)))) ∧
  (∀ (s : State) (c : Fin 256) (d a b : BitVec 5) (o : BitVec 22) (k : BitVec 4), Ready s c → k = 0xE ∨ k = 0xF →
    let x := coreOf s c
    (exl x = false →
      exec (.bc c k o) s = .next (trapTo s c x 0x01 3 (kEncode (.bc k o)) x.pc) ∧
      exec (.csel c k d a b) s = .next (trapTo s c x 0x01 3 (kEncode (.csel k d a b)) x.pc)) ∧
    (exl x = true → exec (.bc c k o) s = .next (withQueue s (stopOn s c 0x01)) ∧
      exec (.csel c k d a b) s = .next (withQueue s (stopOn s c 0x01))))

/-- ADD, ADC, SUB, SBC, CMP, ADDI and CMPI write the wrapped result to rd and N, Z, C and V by R103, and the core goes on after
R109; nothing else of the device changes. MUL, MULH and MULHU write the low or the high half of the product, N and Z from it,
and leave C and V. -/
def Obligations.CoreAddMultiply : Prop :=
  (∀ (s : State) (c : Fin 256) (d a b : BitVec 5) (i : BitVec 16), Ready s c →
    let k := coreOf s c
    let x := gReg k a
    let y := gReg k b
    let z := i.signExtend 32
    let m := b2n (flagC k.flags)
    exec (.add c d a b) s = .next (seqTo s c { setG k d (x + y) with
      flags := nzcv (x + y) (decide (2 ^ 32 ≤ x.toNat + y.toNat)) (outside32 (x.toInt + y.toInt)) }) ∧
    exec (.adc c d a b) s = .next (seqTo s c { setG k d (x + y + BitVec.ofNat 32 m) with
      flags := nzcv (x + y + BitVec.ofNat 32 m) (decide (2 ^ 32 ≤ x.toNat + y.toNat + m)) (outside32 (x.toInt + y.toInt + m)) }) ∧
    exec (.sub c d a b) s = .next (seqTo s c { setG k d (x - y) with
      flags := nzcv (x - y) (decide (y.toNat ≤ x.toNat)) (outside32 (x.toInt - y.toInt)) }) ∧
    exec (.sbc c d a b) s = .next (seqTo s c { setG k d (x - y - BitVec.ofNat 32 (1 - m)) with
      flags := nzcv (x - y - BitVec.ofNat 32 (1 - m)) (decide (y.toNat + (1 - m) ≤ x.toNat))
        (outside32 (x.toInt - y.toInt - ((1 - m : Nat) : Int))) }) ∧
    exec (.cmp c a b) s = .next (seqTo s c { k with
      flags := nzcv (x - y) (decide (y.toNat ≤ x.toNat)) (outside32 (x.toInt - y.toInt)) }) ∧
    exec (.addi c d a i) s = .next (seqTo s c { setG k d (x + z) with
      flags := nzcv (x + z) (decide (2 ^ 32 ≤ x.toNat + z.toNat)) (outside32 (x.toInt + z.toInt)) }) ∧
    exec (.cmpi c a i) s = .next (seqTo s c { k with
      flags := nzcv (x - z) (decide (z.toNat ≤ x.toNat)) (outside32 (x.toInt - z.toInt)) })) ∧
  (∀ (s : State) (c : Fin 256) (d a b : BitVec 5), Ready s c →
    let k := coreOf s c
    let x := gReg k a
    let y := gReg k b
    let lo := BitVec.ofNat 32 (x.toNat * y.toNat)
    let hi := BitVec.ofInt 32 (x.toInt * y.toInt / 2 ^ 32)
    let hu := BitVec.ofNat 32 (x.toNat * y.toNat / 2 ^ 32)
    exec (.mul c d a b) s = .next (seqTo s c { setG k d lo with flags := nzcv lo (flagC k.flags) (flagV k.flags) }) ∧
    exec (.mulh c d a b) s = .next (seqTo s c { setG k d hi with flags := nzcv hi (flagC k.flags) (flagV k.flags) }) ∧
    exec (.mulhu c d a b) s = .next (seqTo s c { setG k d hu with flags := nzcv hu (flagC k.flags) (flagV k.flags) }))

/-- The logical instructions, the shifts, LUI and CSEL with a defined condition write rd and leave FLAGS. Shifts by a register use
rs2[4:0] alone, and a shift by 0 leaves the value. A division blocks the core with its result: the quotient rounded toward zero, or
the remainder with the sign of the dividend; for a zero divisor FFFF_FFFFh or the dividend; for −2^31 by −1 the quotient −2^31 and
the remainder 0. No division traps: its end writes the result to rd, FLAGS stay, and the core goes on (R105). -/
def Obligations.CoreShiftDivide : Prop :=
  (∀ (s : State) (c : Fin 256) (d a b n : BitVec 5) (i : BitVec 16) (cond : BitVec 4), Ready s c →
    let k := coreOf s c
    let x := gReg k a
    let y := gReg k b
    let z := i.zeroExtend 32
    let sh := (y.extractLsb' 0 5).toNat
    exec (.and c d a b) s = .next (seqTo s c (setG k d (x &&& y))) ∧
    exec (.or c d a b) s = .next (seqTo s c (setG k d (x ||| y))) ∧
    exec (.xor c d a b) s = .next (seqTo s c (setG k d (x ^^^ y))) ∧
    exec (.andn c d a b) s = .next (seqTo s c (setG k d (x &&& ~~~y))) ∧
    exec (.andi c d a i) s = .next (seqTo s c (setG k d (x &&& z))) ∧
    exec (.ori c d a i) s = .next (seqTo s c (setG k d (x ||| z))) ∧
    exec (.xori c d a i) s = .next (seqTo s c (setG k d (x ^^^ z))) ∧
    exec (.sll c d a b) s = .next (seqTo s c (setG k d (x <<< sh))) ∧
    exec (.srl c d a b) s = .next (seqTo s c (setG k d (x >>> sh))) ∧
    exec (.sra c d a b) s = .next (seqTo s c (setG k d (x.sshiftRight sh))) ∧
    exec (.ror c d a b) s = .next (seqTo s c (setG k d (x.rotateRight sh))) ∧
    exec (.shiSll c d a n) s = .next (seqTo s c (setG k d (x <<< n.toNat))) ∧
    exec (.shiSrl c d a n) s = .next (seqTo s c (setG k d (x >>> n.toNat))) ∧
    exec (.shiSra c d a n) s = .next (seqTo s c (setG k d (x.sshiftRight n.toNat))) ∧
    exec (.shiRor c d a n) s = .next (seqTo s c (setG k d (x.rotateRight n.toNat))) ∧
    exec (.lui c d i) s = .next (seqTo s c (setG k d (BitVec.ofNat 32 (65536 * i.toNat)))) ∧
    (condOk cond = true → exec (.csel c cond d a b) s = .next (seqTo s c (setG k d (if condHolds cond k.flags then x else y)))) ∧
    (sh = 0 → x <<< sh = x ∧ x >>> sh = x ∧ x.sshiftRight sh = x ∧ x.rotateRight sh = x)) ∧
  ((∀ (s : State) (c : Fin 256) (d a b : BitVec 5), Ready s c →
    let k := coreOf s c
    let x := gReg k a
    let y := gReg k b
    let blocked (v : Word) := setCell s c { cellOf s c with k := { k with run := .dividing d v } }
    exec (.div c d a b) s = .next (blocked (if y = 0 then 0xFFFFFFFF#32 else BitVec.ofInt 32 (x.toInt.tdiv y.toInt))) ∧
    exec (.divu c d a b) s = .next (blocked (if y = 0 then 0xFFFFFFFF#32 else BitVec.ofNat 32 (x.toNat / y.toNat))) ∧
    exec (.rem c d a b) s = .next (blocked (if y = 0 then x else BitVec.ofInt 32 (x.toInt.tmod y.toInt))) ∧
    exec (.remu c d a b) s = .next (blocked (if y = 0 then x else BitVec.ofNat 32 (x.toNat % y.toNat))) ∧
    (x = 0x80000000#32 → y = 0xFFFFFFFF#32 →
      exec (.div c d a b) s = .next (blocked 0x80000000#32) ∧ exec (.rem c d a b) s = .next (blocked 0))) ∧
  (∀ (s : State) (c : Fin 256) (d : BitVec 5) (v : Word), (coreOf s c).run = .dividing d v → cellInReset s c = false →
    exec (.divideComplete c) s = .next (seqTo s c (setG (coreOf s c) d v))))

/-- BC with a defined condition, J, JAL and JALR: the offset counts in words from the branch itself, JAL and JALR write the return
address, a taken branch, J and JALR to g0 end the hardware loops that they leave, and a JALR to a target with bits [1:0] non-zero
takes IFETCH_ALIGN with rd unwritten and CR_TVAL the target, or a double trap while EXL = 1. RET is 8C1F_0000h (R106). -/
def Obligations.CoreBranches : Prop :=
  ∀ (s : State) (c : Fin 256) (cond : BitVec 4) (o22 : BitVec 22) (o26 : BitVec 26) (d a : BitVec 5) (i : BitVec 16), Ready s c →
    let k := coreOf s c
    let t := BitVec.ofInt 32 (k.pc.toInt + 4 * o22.toInt)
    let u := BitVec.ofInt 32 (k.pc.toInt + 4 * o26.toInt)
    let r := gReg k a + i.signExtend 32
    (condOk cond = true →
      exec (.bc c cond o22) s = .next (if condHolds cond k.flags then jumpTo s c (leaveLoops k t) t else seqTo s c k)) ∧
    exec (.j c o26) s = .next (jumpTo s c (leaveLoops k u) u) ∧
    exec (.jal c o26) s = .next (jumpTo s c (setG k 31 (k.pc + 4)) u) ∧
    (4 ∣ r.toNat → exec (.jalr c d a i) s = .next (jumpTo s c (if d = 0 then leaveLoops k r else setG k d (k.pc + 4)) r)) ∧
    (¬ 4 ∣ r.toNat → exl k = false → exec (.jalr c d a i) s = .next (trapTo s c k 0x04 0 r k.pc)) ∧
    (¬ 4 ∣ r.toNat → exl k = true → exec (.jalr c d a i) s = .next (withQueue s (stopOn s c 0x04))) ∧
    kEncode (.jalr 0 31 0) = 0x8C1F0000#32

/-- LOOP and LOOPI at an innermost new level whose body lies in instruction memory and in the enclosing body set CR_LSk and CR_LEk;
a zero count skips the body, another count is written to CR_LCk and the body is entered (R107). With EXL = 0, a length of 0 or
level 3 takes ILLEGAL with subcode 3 (R126), and a level that is not the depth LOOP_FAULT (R108). -/
def Obligations.CoreLoops : Prop :=
  (∀ (s : State) (c : Fin 256) (lvl : BitVec 2) (r : BitVec 5) (n len : BitVec 12), Ready s c →
    let k := coreOf s c
    let l := lvl.toNat
    let first := k.pc + 4
    let last := k.pc + BitVec.ofNat 32 (4 * len.toNat)
    let set := { k with loops := sput 0 (sput 0 k.loops l first) (4 + l) last }
    exl k = false → l < 3 → len ≠ 0 → l = loopDepth k → k.pc.toNat + 4 * len.toNat ≤ 0x7FFC →
    (l = 0 ∨ (loopS k (l - 1)).toNat ≤ k.pc.toNat ∧ k.pc.toNat + 4 * len.toNat ≤ (loopE k (l - 1)).toNat) →
    exec (.loop c lvl r len) s = .next (if gReg k r = 0 then jumpTo s c set (last + 4)
      else jumpTo s c { set with loops := sput 0 set.loops (8 + l) (gReg k r) } first) ∧
    exec (.loopi c lvl n len) s = .next (if n = 0 then jumpTo s c set (last + 4)
      else jumpTo s c { set with loops := sput 0 set.loops (8 + l) (n.zeroExtend 32) } first)) ∧
  (∀ (s : State) (c : Fin 256) (lvl : BitVec 2) (r : BitVec 5) (n len : BitVec 12), Ready s c → exl (coreOf s c) = false →
    let k := coreOf s c
    (lvl = 3 ∨ len = 0 →
      exec (.loop c lvl r len) s = .next (trapTo s c k 0x01 3 (kEncode (.loop lvl r len)) k.pc) ∧
      exec (.loopi c lvl n len) s = .next (trapTo s c k 0x01 3 (kEncode (.loopi lvl n len)) k.pc)) ∧
    (lvl ≠ 3 → len ≠ 0 → lvl.toNat ≠ loopDepth k →
      exec (.loop c lvl r len) s = .next (trapTo s c k 0x0F 0 (kEncode (.loop lvl r len)) k.pc) ∧
      exec (.loopi c lvl n len) s = .next (trapTo s c k 0x0F 0 (kEncode (.loopi lvl n len)) k.pc)))

/-- MFC and MTC of a listed register that the mode may reach: rd receives what the register reads, and the register what it takes; in
user mode a supervisor register takes PRIV, and an unlisted number takes ILLEGAL with subcode 3 in either mode (R114, R123, R126).
MFC of CR_TIME_LO and of CR_CYCLE_LO capture the rest of their counts, and the
MFC of CR_TIME_HI, CR_TIME_FRAC or CR_CYCLE_HI that follows returns what was captured (R115). -/
def Obligations.CoreControlRegisters : Prop :=
  (∀ (s : State) (c : Fin 256) (d r : BitVec 5) (n : BitVec 12), Ready s c →
    let k := coreOf s c
    (crListed n = true → userMode k = false ∨ crUser n.toNat = true →
      exec (.mfc c d n) s = .next (seqTo s c (setG (crRead s c n.toNat).2 d (crRead s c n.toNat).1)) ∧
      ∀ k', crWrite s k n.toNat (gReg k r) = some k' → exec (.mtc c r n) s = .next (seqTo s c k')) ∧
    (crListed n = true → userMode k = true → crUser n.toNat = false → exl k = false →
      exec (.mfc c d n) s = .next (trapTo s c k 0x02 0 (kEncode (.mfc d n)) k.pc) ∧
      exec (.mtc c r n) s = .next (trapTo s c k 0x02 0 (kEncode (.mtc r n)) k.pc)) ∧
    (crListed n = false → exl k = false →
      exec (.mfc c d n) s = .next (trapTo s c k 0x01 3 (kEncode (.mfc d n)) k.pc) ∧
      exec (.mtc c r n) s = .next (trapTo s c k 0x01 3 (kEncode (.mtc r n)) k.pc))) ∧
  (∀ (s : State) (c : Fin 256), swf 0 (coreOf s c).captured = true →
    let at_ (k : KCore) : State := setCell s c { cellOf s c with k := k }
    swf Cell.reset s.cells = true →
    (crRead s c 0x22).1 = s.tb.ns.extractLsb' 0 32 ∧
    (crRead (at_ (crRead s c 0x22).2) c 0x23).1 = s.tb.ns.extractLsb' 32 32 ∧
    (crRead (at_ (crRead s c 0x22).2) c 0x24).1 = s.tb.frac ∧
    (crRead s c 0x28).1 = (cycleOf s c).extractLsb' 0 32 ∧
    (crRead (at_ (crRead s c 0x28).2) c 0x29).1 = (cycleOf s c).extractLsb' 32 32)

/-- SYSCALL and BREAK complete first and trap: CR_EPC receives the address that follows by R109, CR_CAUSE the code, CR_TVAL the
operand, CR_STATUS moves to supervisor mode with EXL, and pc is CR_TVEC (R121). While EXL = 1 a trap is a double trap: the core
stops with its state intact and an event is recorded, and BREAK halts a claimed cell (R125). ERET in supervisor mode performs
PRIV := PPRIV, IE := PIE, EXL := 0 and pc := CR_EPC, whatever EXL holds; in user mode it takes PRIV (R117). -/
def Obligations.CoreTraps : Prop :=
  (∀ (s : State) (c : Fin 256) (code : BitVec 12), Ready s c →
    let k := nextPc (coreOf s c)
    (exl (coreOf s c) = false →
      exec (.syscall c code) s = .next (trapTo s c k 0x10 0 (code.zeroExtend 32) k.pc) ∧
      ((cellOf s c).dbg.claimed = false → exec (.brk c code) s = .next (trapTo s c k 0x11 0 (code.zeroExtend 32) k.pc))) ∧
    (exl (coreOf s c) = true → exec (.syscall c code) s = .next (withQueue s (stopOn s c 0x10))) ∧
    ((cellOf s c).dbg.claimed = true → exec (.brk c code) s = .next (setCell s c { cellOf s c with
      k := { coreOf s c with run := .debug }
      dbg := { (cellOf s c).dbg with reason := 5, index := 0, stepping := false, haltReq := false, resumeRun := .running } }))) ∧
  (∀ (s : State) (c : Fin 256), Ready s c →
    let k := coreOf s c
    let st := k.status
    (userMode k = false → exec (.eret c) s = .next (jumpTo s c { k with
      status := BitVec.ofNat 5 (8 * b2n (st.getLsbD 3) + 4 * b2n (st.getLsbD 2) + 2 * b2n (st.getLsbD 3) + b2n (st.getLsbD 2)) }
      k.epc)) ∧
    (userMode k = true → exl k = false → exec (.eret c) s = .next (trapTo s c k 0x02 0 (kEncode .eret) k.pc)))

/-- FENCE goes on at once, or with CP = 1 once the queues of CP0, CP1 and CP3 are empty, and stalls until then (R102); PARK stops the
clocks of a cell whose queues are empty and waits otherwise, in supervisor mode, and takes PRIV in user mode; SLU_UNPARK starts a
parked cell again with its cycle count going on (R213). The time base reaches an armed CR_TIMECMP: TIMER becomes pending (R116).
The reload of a line with a parity error, when its image can be read, writes it back with good parity, records the correction and
lets the core run again (R61). The start of a halted cell of a turnout loads its image and runs from address 0 (R127). -/
def Obligations.CoreRuns : Prop :=
  (∀ (s : State) (c : Fin 256) (cp i : BitVec 1),
    let x := cellOf s c
    (Ready s c →
      exec (.fence c cp i) s = .next (if cp = 1 ∧ quiet x = false then setCell s c x else seqTo s c x.k) ∧
      (userMode x.k = false → exec (.park c) s = .next (setCell s c (if quiet x then
          { x with k := { nextPc x.k with run := .parked, cycHeld := some (cycleOf s c) } }
        else { x with k := { x.k with run := .parking } }))) ∧
      (userMode x.k = true → exl x.k = false → exec (.park c) s = .next (trapTo s c x.k 0x02 0 (kEncode .park) x.k.pc))) ∧
    (∀ n, x.k.run = .parked → x.k.cycHeld = some n → cellInReset s c = false → barOpen s = true →
      exec (.sluUnpark c) s = .next (setCell s c { x with k := { x.k with
        run := .running, cycHeld := none, cycBase := regionCycles s (regionOf c) - n } }))) ∧
  (∀ (s : State) (c : Fin 256),
    (∀ k, k = coreOf s c → k.tcArmed = true → k.timecmp.toNat ≤ s.tb.ns.toNat →
      exec (.timerCompareMatch c) s = .next (setCell s c { cellOf s c with k := setTimerBit k true })) ∧
    (∀ off load l s', (coreOf s c).run = .reload off load → cellInReset s c = false →
      runMM s (physRead (cellVia c) (cellOf s c).turnout.toNat ((coreOf s c).imemBack.toNat + 64 * (off / 64)) 64) = (.ok l, s') →
      exec (.imemParityReload c) s = .next (withQueue s (modCell
        (event (storeBytes (dropAsks s' (fun w => decide (w = .core c.val))) (imemPA c + 64 * (off / 64)) l false) c 0 0x03 (off / 4)) c
        (fun x => { x with k := { x.k with run := .running } })))) ∧
    (∀ image : List Byte, image.length ≤ 0x8000 → cellInReset s c = false → (coreOf s c).run = .halted →
      (cellOf s c).turnout ≠ 0x200#10 →
      exec (.cellStart c image) s = .next (modCell (storeBytes s (imemPA c) image false) c
        (fun x => { x with k := { x.k with pc := 0, run := .running } }))))

/-- An interrupt that is pending and enabled, with IE = 1 and EXL = 0, is taken in the order COPROC, MGMT, TIMER, INBOX, with CR_EPC
the next instruction to run (R121, R124). -/
def Obligations.CoreInterrupts : Prop :=
  ∀ (s : State) (c : Fin 256) (i : Fin 4),
    let x := cellOf s c
    let k := x.k
    let on (j : Nat) : Bool := (ipendOf x &&& k.ien).getLsbD j
    cellInReset s c = false → k.run = .running → x.dbg.stepping = false → ie k = true → exl k = false → on i = true →
    (∀ j : Fin 4, on j = true → j = i ∨ ([2, 3, 1, 0] : List Nat).idxOf i.val < ([2, 3, 1, 0] : List Nat).idxOf j.val) →
    exec (.interruptEntry c) s = .next (setCell s c { x with k := { k with
      epc := k.pc
      cause := BitVec.ofNat 32 (2 ^ 31 + i)
      tval := 0
      status := BitVec.ofNat 5 (16 + 8 + 4 * b2n (!userMode k) + 1)
      pc := k.tvec
      run := .running } })

/-- A word that encodes no instruction takes ILLEGAL with its subcode (R122, R126). In supervisor mode an instruction of CP0 that its
tile and bank state accepts, or of CP1, other than TMFC and VMFC, joins the queue of its coprocessor with its core operands, while
that holds fewer than 16 and has not halted on an error, and stalls the core on a full queue (R113). -/
def Obligations.CoreIssue : Prop :=
  ∀ (s : State) (c : Fin 256) (w : Word), Ready s c →
    let x := cellOf s c
    (∀ sub, exl x.k = false → kDecode w = .ill sub →
      exec (.illegalInstruction c w) s = .next (trapTo s c x.k 0x01 sub w x.k.pc)) ∧
    (∀ op, 0xE000_0000 ≤ w.toNat → kDecode w = .ok (.cp1 op) → (∀ d n, op ≠ .vmfc d n) → userMode x.k = false → x.v.halted = false →
      exec (.coprocIssue c w) s = .next (if 16 ≤ x.v.q.length then setCell s c x else setCell s c (boundary { x with
        k := { nextPc x.k with run := .running }
        v := { x.v with q := x.v.q ++ [⟨op, gReg x.k (cp1Reg op), 0, false, x.k.pc⟩] } }))) ∧
    (∀ op t, 0xE000_0000 ≤ w.toNat → kDecode w = .ok (.cp0 op) → (∀ d n, op ≠ .tmfc d n) → accept0 x.t op = some t →
      userMode x.k = false → x.t.halted = false →
      exec (.coprocIssue c w) s = .next (if 16 ≤ x.t.q.length then setCell s c x else setCell s c (boundary { x with
        k := { nextPc x.k with run := .running }
        t := { t with q := x.t.q ++ [⟨op, gReg x.k (cp0Regs op).1, gReg x.k (cp0Regs op).2, false, x.k.pc⟩] } })))

/-- A load whose bytes lie in the cell's own scratch, aligned, allowed by the MPU in user mode, at no watchpoint, with good check
bits, writes rd and goes on: little-endian, sign-extended for LB and LH, zero-extended for LBU and LHU (R92, R94, R97). -/
def Obligations.CoreLoads : Prop :=
  ∀ (s : State) (c : Fin 256) (d a : BitVec 5) (i : BitVec 16) (o : Nat), Ready s c →
    let x := cellOf s c
    let addr := gReg x.k a + i.signExtend 32
    let m := scratchPA c + o
    let byte (j : Nat) : Byte := memByte s (m + j)
    let fine (n : Nat) : Prop := wpHit x addr.toNat n false = none ∧ checkRange s m n false = (false, s)
    localOf addr.toNat = .scratch o → (userMode x.k = true → mpuOk x.k addr .load = true) →
    (fine 1 → exec (.lb c d a i) s = .next (seqTo s c (setG x.k d ((byte 0).signExtend 32))) ∧
      exec (.lbu c d a i) s = .next (seqTo s c (setG x.k d ((byte 0).zeroExtend 32)))) ∧
    (2 ∣ addr.toNat → fine 2 → exec (.lh c d a i) s = .next (seqTo s c (setG x.k d ((byte 1 ++ byte 0).signExtend 32))) ∧
      exec (.lhu c d a i) s = .next (seqTo s c (setG x.k d ((byte 1 ++ byte 0).zeroExtend 32)))) ∧
    (4 ∣ addr.toNat → fine 4 → exec (.lw c d a i) s = .next (seqTo s c (setG x.k d (byte 3 ++ byte 2 ++ byte 1 ++ byte 0))))

/-- A store into the cell's own scratch, or in supervisor mode into its instruction memory, aligned, allowed by the MPU in user
mode, at no watchpoint and into no word with bad check bits that it covers in part, writes the low bytes of rs2 and goes on (R92,
R94, R97, R118). -/
def Obligations.CoreStores : Prop :=
  ∀ (s : State) (c : Fin 256) (b a : BitVec 5) (i : BitVec 16) (o : Nat), Ready s c →
    let x := cellOf s c
    let addr := gReg x.k a + i.signExtend 32
    let v := gReg x.k b
    let byte (j : Nat) : Byte := v.extractLsb' (8 * j) 8
    let write (m : Nat) (l : List Byte) : State := seqTo (storeBytes s m l false) c x.k
    let fine (m n : Nat) : Prop := wpHit x addr.toNat n true = none ∧ mergeBad s m n = false ∧ mergeFix s m n = s
    let place (m : Nat) : Prop := (localOf addr.toNat = .scratch o ∧ (userMode x.k = true → mpuOk x.k addr .store = true) ∧
      m = scratchPA c + o) ∨ (localOf addr.toNat = .imem o ∧ userMode x.k = false ∧ m = imemPA c + o)
    ∀ m, place m →
    (fine m 1 → exec (.sb c b a i) s = .next (write m [byte 0])) ∧
    (2 ∣ addr.toNat → fine m 2 → exec (.sh c b a i) s = .next (write m [byte 0, byte 1])) ∧
    (4 ∣ addr.toNat → fine m 4 → exec (.sw c b a i) s = .next (write m [byte 0, byte 1, byte 2, byte 3]))

/-- A half-word access whose address is no multiple of 2, or a word access whose address is no multiple of 4, takes LOAD_ALIGN or
STORE_ALIGN with CR_TVAL the address: the trap is all that happens, the access is not performed (R97); while EXL = 1 that is a
double trap (R125). -/
def Obligations.CoreAlignment : Prop :=
  ∀ (s : State) (c : Fin 256) (d a : BitVec 5) (i : BitVec 16), Ready s c →
    let k := coreOf s c
    let addr := gReg k a + i.signExtend 32
    let takes (code : Nat) (j : Instr) : Prop :=
      (exl k = false → exec j s = .next (trapTo s c k code 0 addr k.pc)) ∧ (exl k = true → exec j s = .next (withQueue s (stopOn s c code)))
    (¬ 2 ∣ addr.toNat → takes 0x06 (.lh c d a i) ∧ takes 0x06 (.lhu c d a i) ∧ takes 0x07 (.sh c d a i)) ∧
    (¬ 4 ∣ addr.toNat → takes 0x06 (.lw c d a i) ∧ takes 0x07 (.sw c d a i))

/-- The frame of SB, SH and SW into the cell's own memory: every byte outside the stored ones reads as before, and so do every
register of the device, every other cell, and the general registers, the flags and the control registers of the cell itself. -/
def Obligations.CoreStoreFrame : Prop :=
  ∀ (s t : State) (c : Fin 256) (b a : BitVec 5) (i : BitVec 16) (op : StoreOp), Ready s c → s.m.wf = true → swf Cell.reset s.cells = true →
    let x := cellOf s c
    let addr := gReg x.k a + i.signExtend 32
    let n := loadBytes (storeKind op)
    let instr : Instr := match op with | .sb => .sb c b a i | .sh => .sh c b a i | .sw => .sw c b a i
    exec instr s = .next t → (addr.toNat % n = 0) → wpHit x addr.toNat n true = none →
    ∀ m, (∃ o, localOf addr.toNat = .scratch o ∧ (userMode x.k = true → mpuOk x.k addr .store = true) ∧ m = scratchPA c + o ∨
      localOf addr.toNat = .imem o ∧ userMode x.k = false ∧ m = imemPA c + o) →
    mergeBad s m n = false → mergeFix s m n = s →
    (∀ z, z < m ∨ m + n ≤ z → memByte t z = memByte s z) ∧
    (∀ j, j < n → memByte t (m + j) = (gReg x.k b).extractLsb' (8 * j) 8) ∧
    t.regs = s.regs ∧ t.fab = s.fab ∧ t.out = s.out ∧ t.infl = s.infl ∧
    (∀ e, e ≠ c.val → cellOf t e = cellOf s e) ∧
    (coreOf t c).g = x.k.g ∧ (coreOf t c).flags = x.k.flags ∧ (coreOf t c).status = x.k.status ∧ (coreOf t c).epc = x.k.epc ∧
    (cellOf t c).t = x.t ∧ (cellOf t c).v = x.v ∧ (cellOf t c).turnout = x.turnout

/-- LW and SW through a window, aligned, allowed by the MPU in user mode and at no watchpoint, block: translated and unrefused, the
access goes out with a fresh TAG and its 100 µs deadline; a refusal takes LOAD_ACCESS or STORE_ACCESS (R95, R96). A response of the
translated window that comes in time ends the access by its STATUS, 1 for poisoned read data: data into rd, or a trap; at the
reservoir window the access is made in the block's port. Once the deadline has passed, the access takes BUS_TIMEOUT. -/
def Obligations.CoreWindows : Prop :=
  (∀ (s s' : State) (c : Fin 256) (d b a : BitVec 5) (i : BitVec 16), Ready s c →
    let x := cellOf s c
    let addr := gReg x.k a + i.signExtend 32
    let window : Prop := (∃ g o, localOf addr.toNat = .trans g o) ∨ ∃ o, localOf addr.toNat = .rsv o
    let refused (e : MErr) : Prop := ∀ t p w, e ≠ .page t p w
    let acc (st : Bool) (d : BitVec 5) (v : Word) (pa : Nat) : Access95 :=
      ⟨st, .lw, d, addr, v, pa, 0, s.clk + 100000, none, winAt s c addr.toNat⟩
    window → 4 ∣ addr.toNat → cellInReset s' c = false →
    (wpHit x addr.toNat 4 false = none → (userMode x.k = true → mpuOk x.k addr .load = true) →
      (∀ pa, runMM s (localPA c addr.toNat false) = (.ok pa, s') →
        exec (.lw c d a i) s = .next (withQueue s (sendAccess s' c (acc false d 0 pa)))) ∧
      (∀ e, refused e → runMM s (localPA c addr.toNat false) = (.error e, s') →
        exec (.lw c d a i) s = .next (withQueue s (takeTrap s' c 0x08 0 addr (coreOf s' c).pc)))) ∧
    (wpHit x addr.toNat 4 true = none → (userMode x.k = true → mpuOk x.k addr .store = true) →
      (∀ pa, runMM s (localPA c addr.toNat true) = (.ok pa, s') →
        exec (.sw c b a i) s = .next (withQueue s (sendAccess s' c (acc true 0 (gReg x.k b) pa)))) ∧
      (∀ e, refused e → runMM s (localPA c addr.toNat true) = (.error e, s') →
        exec (.sw c b a i) s = .next (withQueue s (takeTrap s' c 0x09 0 addr (coreOf s' c).pc))))) ∧
  (∀ (s s' : State) (c : Fin 256) (a : Access95), (coreOf s c).run = .access a → a.tag ≠ 0 → cellInReset s c = false →
    (a.deadline < s.clk → swf Cell.reset s.cells = true →
      exec (.busTimeout c) s = .next (withQueue s (takeTrap (setCell s c { cellOf s c with k := { coreOf s c with run := .running } })
        c 0x0E 0 a.addr (coreOf s c).pc))) ∧
    (s.clk ≤ a.deadline →
      (∀ p, (∃ g o, localOf a.addr.toNat = .trans g o) →
        s.fab.net.find? (fun q => (q.ty == 2 || q.ty == 4) && q.dest == endpointOf c && q.tag == a.tag) = some p →
        arrive s p = (true, s') →
        exec (.windowResponse c) s = .next (withQueue s (finishAccess s' c a
          (if p.poison ≠ 0 ∧ p.status = 0 ∧ a.isStore = false then 1 else p.status) p.data))) ∧
      (∀ st l, (∃ o, localOf a.addr.toNat = .rsv o) → doAccess s c a = (st, l, s') → cellInReset s' c = false →
        exec (.windowResponse c) s = .next (withQueue s (finishAccess s' c a st l)))))

/-- The tile loads, TMMA and TCLR, when they start and meet no error: a tile receives the element codes of 32 packed rows (TLDT: of K
rows, transposed), TLDS its scales; TMMA adds the products of two whole tiles of one K into its bank, exactly or, in ordered
mode, in chunks of nine; TCLR empties a bank (R139–R141). What leaves the banks and the control side of CP0, without an error:
TRND writes 32 rows rounded once, and the scales of an MX format; TXP writes LAX records, TIM merges well-formed ones into an exact
or an empty bank; TMTC, TSIG and TWAIT act at the head of the queue, TMFC on an empty queue or while HALTED (R132, R142, R144,
R147). -/
def Obligations.Tensor : Prop :=
  (∀ (s s' : State) (c : Fin 256) (i : Nat) (e : CopEntry CP0Op) (ls : List (List Byte)), cellInReset s c = false →
    let x := cellOf s c
    let done (u : State) (f : Cell → Cell) : Ans := .next (withQueue s (pop0 (modCell u c f) c i))
    let read (n len : Nat) (al : Bool) : Prop := cpCheck x e.user (rowsAt e.r1 e.r2 n len) al .load = none ∧
      cpRead s c (rowsAt e.r1 e.r2 n len) = (some ls, s') ∧ cellInReset s' c = false
    (startable x.t.q false = some (i, e) →
      (∀ f a b t kq, e.op = .tld f a b t kq → read 32 (fmtBits (fmtOf f) * kOf kq.toNat / 8) (mult8 e) →
        exec (.tld c) s = done s' (fun x => setTile x t.toNat ⟨fmtOf f, kq.toNat, unpackRows (fmtBits (fmtOf f)) (kOf kq.toNat) ls, []⟩)) ∧
      (∀ f a b t kq, e.op = .tldt f a b t kq → read (kOf kq.toNat) (fmtBits (fmtOf f) * 32 / 8) (mult8 e) →
        exec (.tldt c) s = done s' (fun x => setTile x t.toNat ⟨fmtOf f, kq.toNat,
          (List.range 32).flatMap (fun r => (List.range (kOf kq.toNat)).map (fun k =>
            (unpackRows (fmtBits (fmtOf f)) 32 ls).getD (32 * k + r) 0)), []⟩)) ∧
      (∀ a b t old, e.op = .tlds a b t → tileOf x t.toNat = some old → read 32 (old.kq + 1) true →
        exec (.tlds c) s = done s' (fun x => setTile x t.toNat { old with scales := (ls.flatMap id).map BitVec.toNat })) ∧
      (∀ k, e.op = .tclr k → exec (.tclr c) s = done s (fun x => setBank x k.toNat .empty))) ∧
    (startable x.t.q true = some (i, e) → ∀ k a b ord ta tb bk, e.op = .tmma k a b ord → tileOf x a.toNat = some ta →
      tileOf x (8 + b.toNat) = some tb → tileWhole ta = true → tileWhole tb = true → ta.kq = tb.kq →
      tmmaBank (bankOf x k.toNat) (tmmaOrdered ord ta.fmt tb.fmt) ta tb = some bk →
      exec (.tmma c) s = .next (withQueue s (pop0 (setCell s c (setBank x k.toNat bk)) c i)))) ∧
  (∀ (s s' : State) (c : Fin 256) (i : Nat) (e : CopEntry CP0Op), cellInReset s c = false →
    let x := cellOf s c
    let fits (rs : List (Nat × Nat)) (ws : List (Nat × List Byte)) (al : Bool) : Prop :=
      cpCheck x e.user rs al .store = none ∧ cpMergeBad s c ws = false ∧ cpPut s c ws = s' ∧ cellInReset s' c = false
    (startable x.t.q false = some (i, e) →
      (∀ f a b rm k, e.op = .trnd f a b rm k →
        let rows := (List.range 32).map (trndRow x k.toNat (fmtOf f) rm.toNat)
        let ws := ((rowsAt e.r1 e.r2 32 0).zip (rows.map (fun r => r.1))).map (fun p => (p.1.1, p.2)) ++
          (if isMX (fmtOf f) then rows.mapIdx (fun j r => ((tcr x 12 + BitVec.ofNat 32 j).toNat, natLE 1 r.2.1)) else [])
        fits (ws.map (fun w => (w.1, w.2.length))) ws (mult8 e) →
        exec (.trnd c) s = .next (withQueue s (pop0 (modCell s' c (fun x => orT x (rows.foldl (fun a r => a ||| r.2.2) 0))) c i))) ∧
      (∀ k a b, e.op = .txp k a b → laxRange e.r2 = false →
        let ws := (laxSlots e.r1 e.r2).2.mapIdx (fun j r =>
          (r.1, padTo 96 (bankAcc (bankOf x k.toNat) (32 * (laxSlots e.r1 e.r2).1 + j)).toLAX))
        fits (laxSlots e.r1 e.r2).2 ws (e.r1.toNat % 32 == 0) →
        exec (.txp c) s = .next (withQueue s (pop0 s' c i))) ∧
      (∀ k a b m ls, e.op = .tim k a b → laxRange e.r2 = false → bankOf x k.toNat = .exact m ∨ bankOf x k.toNat = .empty ∧ m = [] →
        cpCheck x e.user (laxSlots e.r1 e.r2).2 (e.r1.toNat % 32 == 0) .load = none →
        cpRead s c (laxSlots e.r1 e.r2).2 = (some ls, s') → cellInReset s' c = false → (∀ l ∈ ls, (ofLAX l).isSome = true) →
        exec (.tim c) s = .next (withQueue s (pop0 (modCell s' c (fun x => setBank x k.toNat (.exact
          ((ls.zipIdx).foldl (fun m p => smod Acc.zero m (32 * (laxSlots e.r1 e.r2).1 + p.2)
            (fun a => a.merge ((ofLAX p.1).getD Acc.zero))) m)))) c i))) ∧
      (i = 0 →
        (∀ a n, e.op = .tmtc a n → exec (.tmtc c) s = .next (withQueue s (pop0 (modCell s c (fun x => tmtcWrite x n.toNat e.r1)) c 0))) ∧
        (∀ sl, e.op = .tsig sl → exec (.tsig c) s = .next (withQueue s (pop0 (modCell s c (fun x => incSluice x sl.toNat 1)) c 0))) ∧
        (∀ a sl, e.op = .twait a sl → x.t.wait = none → exec (.twait c) s = .next (withQueue s
          (if waitDone x (newWait s x sl e.r1) then pop0 s c 0
          else setCell s c { x with t := { x.t with wait := some (newWait s x sl e.r1) } }))))) ∧
    (Ready s c → ∀ d n, t0Listed n = true → (x.t.q = [] ∨ x.t.halted = true) →
      exec (.tmfc c d n) s = .next (seqTo s c (setG x.k d (tmfcRead x n.toNat)))))

/-- The lane operations of CP1 at the head of its queue: the three-register group, VCVT and VFN compute each enabled lane exactly
and round it once in the mode of VCTL.RM, a disabled lane keeps its value, and the flags join VFLAGS (R148–R151, R46). The rest
of CP1, without an error: VLD and VST move 64 aligned bytes of scratch, VHMAX broadcasts the maximum of the enabled lanes, VRED, VDOT and VXIM add
into an accumulator exactly, VXRND and VQUOT round into one lane, VXP writes a LAX record, VMTC, VSIG and VWAIT act at the
head of the queue and VMFC on an empty queue or while HALTED (R132, R149, R152, R156). -/
def Obligations.Vector : Prop :=
  (∀ (s : State) (c : Fin 256) (e : CopEntry CP1Op) (q : List (CopEntry CP1Op)), cellInReset s c = false → (cellOf s c).v.q = e :: q →
    let runs (i : Instr) (f : Cell → Cell) : Prop := exec i s = .next (withQueue s (pop1 (modCell s c f) c))
    (∀ op vd va vb m, e.op = .vbin op vd va vb m → runs (match op with
      | .vadd => .vadd c | .vsub => .vsub c | .vmul => .vmul c | .vmax => .vmax c | .vmin => .vmin c | .vfma => .vfma c
      | .vsel => .vsel c | .vexpd => .vexpd c | .vexp2d => .vexp2d c) (fun x => vbinOp x op vd va vb m)) ∧
    (∀ vd va k rt m, e.op = .vfn vd va k rt m →
      (k = 0 → runs (.vfnExp2 c) (fun x => vfnOp x .exp2 vd va rt m)) ∧ (k = 1 → runs (.vfnExp c) (fun x => vfnOp x .exp vd va rt m)) ∧
      (k = 2 → runs (.vfnLog2 c) (fun x => vfnOp x .log2 vd va rt m)) ∧ (k = 3 → runs (.vfnLog c) (fun x => vfnOp x .log vd va rt m)) ∧
      (k = 4 → runs (.vfnRcp c) (fun x => vfnOp x .rcp vd va rt m)) ∧ (k = 5 → runs (.vfnRsqrt c) (fun x => vfnOp x .rsqrt vd va rt m))) ∧
    (∀ vd vs dst src f g, e.op = .vcvt vd vs dst src → fmtOfCode dst.toNat = some f → fmtOfCode src.toNat = some g →
      runs (.vcvt c) (fun x => vcvtOp x vd vs f g)) ∧
    (∀ m va vb cond t, e.op = .vcmp m va vb cond t → runs (.vcmp c) (fun x =>
      let lane (v : BitVec 5) (i : Nat) : Nat := (lanesOf (vReg x v) (fmtBits (tFmt t)) (laneCount (tFmt t))).getD i 0
      let bits := (List.range (laneCount (tFmt t))).foldl (fun z i => z + b2n (cmpHolds (tFmt t) cond.toNat (lane va i) (lane vb i)) * 2 ^ i) 0
      { x with v := { x.v with m := sput 0 x.v.m m.toNat (BitVec.ofNat 64 bits) } })) ∧
    (∀ vd a t, e.op = .vbc vd a t → runs (.vbc c) (fun x => setV x vd (packLanes (fmtBits (tFmt t))
      (List.replicate (512 / fmtBits (tFmt t)) (e.r1.toNat % 2 ^ fmtBits (tFmt t))))))) ∧
  ((∀ (s s' : State) (c : Fin 256) (e : CopEntry CP1Op) (q : List (CopEntry CP1Op)), cellInReset s c = false → (cellOf s c).v.q = e :: q →
    let x := cellOf s c
    let a := e.r1.toNat
    let runs (i : Instr) (s' : State) (f : Cell → Cell) : Prop := exec i s = .next (withQueue s (pop1 (modCell s' c f) c))
    let lanes (x : Cell) (v : BitVec 5) (m : VMask) : List (Nat × Nat) :=
      ((lanesOf (vReg x v) (fmtBits (tFmt m.t)) (laneCount (tFmt m.t))).zipIdx).filter (fun p => laneOn x m p.2)
    let fits (rs : List (Nat × Nat)) (ws : List (Nat × List Byte)) (al : Bool) : Prop :=
      cpCheck x e.user rs al .store = none ∧ cpMergeBad s c ws = false ∧ cpPut s c ws = s' ∧ cellInReset s' c = false
    (∀ vd r l, e.op = .vld vd r → cpCheck x e.user [(a, 64)] (a % 64 == 0) .load = none → cpRead s c [(a, 64)] = (some [l], s') →
      cellInReset s' c = false →
      runs (.vld c) s' (fun x => setV x vd (BitVec.ofNat 512 (leNat l)))) ∧
    (∀ vs r m, e.op = .vst vs r m →
      fits ((vstPieces x a (vReg x vs) m).map (fun w => (w.1, w.2.length))) (vstPieces x a (vReg x vs) m) (a % 64 == 0) → exec (.vst c) s = .next (withQueue s (pop1 s' c))) ∧
    (∀ vd va m, e.op = .vhmax vd va m → runs (.vhmax c) s (fun x => setV x vd (packLanes (fmtBits (tFmt m.t))
      (List.replicate (laneCount (tFmt m.t)) (match ((List.range (laneCount (tFmt m.t))).filter (laneOn x m)).map
          (fun i => (lanesOf (vReg x va) (fmtBits (tFmt m.t)) (laneCount (tFmt m.t))).getD i 0) with
        | [] => (infInto (tFmt m.t) true).1
        | h :: t => t.foldl (maxCode (tFmt m.t) true) (maxCode (tFmt m.t) true h h)))))) ∧
    (∀ k va m, e.op = .vred k va m → runs (.vred c) s (fun x => setX x k ((lanes x va m).foldl
      (fun z p => z.addVal (valOf (tFmt m.t) p.1)) (xReg x k)))) ∧
    (∀ k va vb m, e.op = .vdot k va vb m → runs (.vdot c) s (fun x => setX x k ((lanes x va m).foldl (fun z p =>
      z.addProd (valOf (tFmt m.t) p.1) (valOf (tFmt m.t) ((lanesOf (vReg x vb) (fmtBits (tFmt m.t)) (laneCount (tFmt m.t))).getD p.2 0)))
      (xReg x k)))) ∧
    (∀ k, e.op = .vxclr k → runs (.vxclr c) s (fun x => setX x k Acc.zero)) ∧
    (∀ vd k lane t, e.op = .vxrnd vd k lane t → runs (.vxrnd c) s (fun x =>
      orV (setV x vd (putLane (vReg x vd) (fmtBits (tFmt t)) lane.toNat ((xReg x k).round (tFmt t) (vMode x lane.toNat)).1))
        ((xReg x k).round (tFmt t) (vMode x lane.toNat)).2)) ∧
    (∀ vd ka kb lane t, e.op = .vquot vd ka kb lane t → runs (.vquot c) s (fun x =>
      orV (setV x vd (putLane (vReg x vd) (fmtBits (tFmt t)) lane.toNat (quotRound (xReg x ka) (xReg x kb) (tFmt t) (vMode x lane.toNat)).1))
        (quotRound (xReg x ka) (xReg x kb) (tFmt t) (vMode x lane.toNat)).2)) ∧
    (∀ k r, e.op = .vxp k r → fits [(a, 96)] [(a, padTo 96 (xReg x k).toLAX)] (a % 32 == 0) → exec (.vxp c) s = .next (withQueue s (pop1 s' c))) ∧
    (∀ k r l b, e.op = .vxim k r → cpCheck x e.user [(a, 96)] (a % 32 == 0) .load = none → cpRead s c [(a, 96)] = (some [l], s') →
      cellInReset s' c = false → ofLAX l = some b → runs (.vxim c) s' (fun x => setX x k ((xReg x k).merge b))) ∧
    (∀ r n, e.op = .vmtc r n → runs (.vmtc c) s (fun x => vmtcWrite x n.toNat e.r1)) ∧
    (∀ sl, e.op = .vsig sl → runs (.vsig c) s (fun x => incSluice x sl.toNat 1)) ∧
    (∀ r sl, e.op = .vwait r sl → x.v.wait = none → exec (.vwait c) s = .next (withQueue s
      (if waitDone x (newWait s x sl e.r1) then pop1 s c else setCell s c { x with v := { x.v with wait := some (newWait s x sl e.r1) } })))) ∧
  (∀ (s : State) (c : Fin 256) (d : BitVec 5) (n : BitVec 6), Ready s c → v1Listed n = true →
    ((cellOf s c).v.q = [] ∨ (cellOf s c).v.halted = true) →
    exec (.vmfc c d n) s = .next (seqTo s c (setG (coreOf s c) d (vmfcRead (cellOf s c) n.toNat)))))

/-- The CP2 instructions: SINC adds to a sluice and STEST reads it, SWAIT goes on when the sluice satisfies the threshold and waits
otherwise, SSET writes it in supervisor mode, SMTC and SMFC reach the listed registers; a satisfied wait ends and goes on
(R196–R200). -/
def Obligations.SluiceInstructions : Prop :=
  (∀ (s : State) (c : Fin 256) (r sl : BitVec 5) (n : BitVec 7), Ready s c →
    let x := cellOf s c
    let v := gReg x.k r
    let go (x : Cell) : State := setCell s c (boundary { x with k := { nextPc x.k with run := .running } })
    let sum := sput 0 x.sl.s sl.toNat (sget 0 x.sl.s sl.toNat + v)
    exec (.sinc c r sl) s = .next (go { x with sl := { x.sl with s := sum } }) ∧
    exec (.stest c r sl) s = .next (seqTo s c (setG x.k r (sget 0 x.sl.s sl.toNat))) ∧
    exec (.swait c r sl) s = .next (if (sget 0 x.sl.s sl.toNat - v).toNat < 2 ^ 31 then seqTo s c x.k
      else setCell s c { x with k := { x.k with run := .swait ⟨sl, v, s.tb.ns.toNat, x.sl.swdog, false, s.clk⟩ } }) ∧
    (userMode x.k = false → exec (.sset c r sl) s = .next (go { x with sl := { x.sl with s := sput 0 x.sl.s sl.toNat v } })) ∧
    (s2Listed n = true → (userMode x.k = true → smtcPriv n.toNat = false) → exec (.smtc c r n) s = .next (go (smtcWrite x n.toNat v))) ∧
    (s2Listed n = true → exec (.smfc c r n) s = .next (seqTo s c (setG x.k r (smfcRead x n.toNat)))) ∧
    (userMode x.k = true → exl x.k = false → exec (.sset c r sl) s = .next (trapTo s c x.k 0x02 0 (kEncode (.cp2 (.sset r sl))) x.k.pc))) ∧
  (∀ (s : State) (c : Fin 256) (w : Waiter), cellInReset s c = false → waitDone (cellOf s c) w = true →
    let x := cellOf s c
    (x.k.run = .swait w → exec (.sluiceWaitSatisfied c 0) s = .next (seqTo s c x.k)) ∧
    (x.t.wait = some w → exec (.sluiceWaitSatisfied c 1) s =
      .next (withQueue s (parkCheck (setCell s c { x with t := { x.t with wait := none, q := x.t.q.drop 1 } }) c))) ∧
    (x.v.wait = some w → exec (.sluiceWaitSatisfied c 2) s =
      .next (withQueue s (parkCheck (setCell s c { x with v := { x.v with wait := none, q := x.v.q.drop 1 } }) c))) ∧
    (x.dma.wait = some w → exec (.sluiceWaitSatisfied c 3) s = .next (setCell s c { x with dma := ⟨releaseFirst x.dma.q, none⟩ })))

/-- A wait that is not satisfied LIMIT µs after it began raises one event and goes on (R214). A message that arrives at an enabled
inbox with room, from the cell's turnout, the manager or the device, joins the buffer, and a deposit writes it and its source record
into the ring, counts IPROD and the arrival sluice (R201–R203). A dump armed for an instant not yet past captures at it and ends
with DONE (R215). The inter-chip barrier (R211, R212): an arrival of the generation counts and moves the barrier on, one of another
generation is dropped and counted; a root takes a link's ARRIVE, a member's RELEASE, TMO and EN = 0 release the arrived cells with
the status. -/
def Obligations.SluicesAndBarriers : Prop :=
  ((∀ (s : State) (c : Fin 256) (e : Fin 4) (w : Waiter), waitOf (cellOf s c) e = some w → cellInReset s c = false →
    waitDone (cellOf s c) w = false → w.limit ≠ 0 → w.fired = false → w.at_ + 1000 * w.limit ≤ s.clk →
    exec (.waitWatchdogTimeout c e) s = .next (withQueue s
      (event (setCell s c (setWait (cellOf s c) e { w with fired := true })) c 1 0x05 (e.val + 4 * w.sl.toNat)))) ∧
  (∀ (s s' : State) (c : Fin 256) (p : Packet), s.fab.net.find? (isMsgFor c) = some p → arrive s p = (true, s') → cellInReset s' c = false →
    let x := cellOf s' c
    inboxEn x = true → parked x = false → (p.owner = x.turnout.toNat ∨ p.owner = 0x201 ∨ p.owner = 0x202) → x.sl.buf.length < 16 →
    exec (.inboxMessageArrival c) s = .next (withQueue s (setCell s' c
      { x with sl := { x.sl with buf := x.sl.buf ++ [⟨p.src, padTo 64 p.data, p.poison != 0⟩] } }))) ∧
  (∀ (s : State) (c : Fin 256) (m : InMsg) (r : List InMsg), (cellOf s c).sl.buf = m :: r → cellInReset s c = false →
    let x := cellOf s c
    let size := 2 ^ bits x.sl.icfg.toNat 19 16
    let ring := scratchPA c + (x.sl.ibase.toNat - 0x1000_0000)
    let i := x.sl.iprod.toNat % size
    let s1 := storeBytes s (ring + 64 * i) m.data m.poison
    let rec_ := ring + 64 * size + 4 * i
    (x.sl.iprod - x.sl.icons).toNat < size → parked x = false → mergeBad s1 rec_ 4 = false →
    exec (.inboxDeposit c) s = .next (withQueue s (modCell
      (storeBytes (mergeFix s1 rec_ 4) rec_ (natLE 4 (m.src % 4096)) false) c
      (fun x => incSluice { x with sl := { x.sl with buf := r, iprod := x.sl.iprod + 1 } } (bits x.sl.icfg.toNat 4 0) 1)))) ∧
  (∀ s : State,
    (barOpen s = true → rd s f_SLU_DUMP_CTL_ARM = 0 → now s ≤ dumpAt s →
      exec .sluDumpArm s = .next { wr (wr s f_SLU_DUMP_CTL_ARM 1) f_SLU_DUMP_CTL_LATE 0 with sync := { s.sync with image := [] } }) ∧
    (rd s f_SLU_DUMP_CTL_ARM = 1 → dumpAt s ≤ now s → s.sync.image = [] →
      exec .dumpCapture s = .next { s with sync := { s.sync with image := dumpImage s } }) ∧
    (∀ s', rd s f_SLU_DUMP_CTL_ARM = 1 → s.sync.image ≠ [] →
      runMM s (writeSp (ioFor .firmware) 0x201 (dumpAddr s / 64 * 64) s.sync.image) = (.ok (), s') →
      exec .dumpDone s = .next (withQueue s
        (wr (wr { s' with sync := { s'.sync with image := [] } } f_SLU_DUMP_CTL_DONE 1) f_SLU_DUMP_CTL_ARM 0))))) ∧
  (∀ (s : State) (c : Fin 256) (b : Fin 16) (gen : Byte), rd s (f_SLU_BAR_CFG_EN b) = 1 →
    ((barOf s b).due = 0 ∨ s.clk < (barOf s b).due) → rd s (f_SLU_BAR_CFG_TURNOUT b) = (cellOf s c).turnout.toNat →
    (rd s (f_SLU_BAR_STAT_GEN b) = gen.toNat →
      let t := barStart s b
      exec (.barrierArrive c b gen) s = .next (withQueue s (barProgress (wr
        (setBar t b { barOf t b with cells := nadd (barOf t b).cells c }) (f_SLU_BAR_STAT_ARRIVED b)
        (rd (setBar t b { barOf t b with cells := nadd (barOf t b).cells c }) (f_SLU_BAR_STAT_ARRIVED b) + 1)) b true))) ∧
    (rd s (f_SLU_BAR_STAT_GEN b) ≠ gen.toNat →
      exec (.barrierArrive c b gen) s = .next (incF s (f_SLU_BAR_STAT_DROP b) 1))) ∧
  (∀ (s : State) (b : Fin 16) (gen st : Byte) (p : RxNat), lnkNative s p.n = true → lnkState s p.n = 2 ∨ lnkState s p.n = 3 →
    let u := ackIn s p.n ⟨4, 0, 0, p.nak, p.ack.toNat, p.credit.map BitVec.toNat, []⟩
    rd u (f_SLU_BAR_CFG_EN b) = 1 → rd u (f_SLU_BAR_STAT_GEN b) = gen.toNat →
    ((barOf u b).due = 0 ∨ u.clk < (barOf u b).due) →
    (rd u (f_SLU_BAR_CFG_ROOT b) = 1 → bit (rd u (f_SLU_BAR_LINKS_LINKS b)) p.n = true → bit (barOf u b).links p.n = false →
      let t := barStart u b
      exec (.barrierArriveFrame p b gen) s = .next (withQueue s (barProgress
        (setBar t b { barOf t b with links := (barOf t b).links ||| 2 ^ p.n.val }) b false))) ∧
    (rd u (f_SLU_BAR_CFG_ROOT b) = 0 → rd u (f_SLU_BAR_CFG_UPLINK b) = p.n →
      exec (.barrierReleaseFrame p b gen st) s = .next (withQueue s (barRelease u b st.toNat)))) ∧
  (∀ (s : State) (b : Fin 16),
    ((barOf s b).due ≠ 0 → (barOf s b).due ≤ s.clk →
      exec (.barrierTimeout b) s = .next (withQueue s (barRelease (rootFrames s b 0x10) b 0x10))) ∧
    (barOpen s = true → rd s (f_SLU_BAR_STAT_BUSY b) = 1 →
      exec (.barrierDisable b) s = .next (withQueue s (wr (barRelease s b 0x10) (f_SLU_BAR_CFG_EN b) 0))))

/-- Unit resets (R62, R65, R67, R85, R87). A demanded CELL, BLOCK or REGION reset is asserted once BOOT is reached and neither the
unit nor one that holds it is in reset; one that is asked for otherwise is absorbed, and one that takes over a reset in progress
inside it is asserted; both are recorded as an event of code 07h. RGN_UNIT_RST starts a CELL or BLOCK reset and shows BUSY, and a
write of these levels while BUSY sets WRITE_IGNORED. What an asserted CELL reset leaves: the cell in reset, its core halted at
address 0 in supervisor mode with zero registers, its queues, its inbox and its sluices empty, its memories zero without an error,
and every other cell as it was. -/
def Obligations.UnitResets : Prop :=
  (∀ s : State,
    (4 ≤ rd s f_GEN_STATE_STATE →
      (∀ c : Fin 256, cellInReset s c = false → exec (.cellReset c) s = .next (withQueue s (cellReset s c))) ∧
      (∀ k : Fin 64, nin s.fab.blockRst k = false → nin s.fab.regionRst (k.val / 4) = false →
        ((∀ i < 4, (cellOf s (4 * k.val + i)).inReset = false) → exec (.blockReset k) s = .next (withQueue s (blockReset s k))) ∧
        ((∃ i < 4, (cellOf s (4 * k.val + i)).inReset = true) →
          exec (.blockReset k) s = .next (withQueue s (infoEvent (blockReset s k) (0x100 + k) 0x07 3 1)))) ∧
      (∀ r : Fin 16, nin s.fab.regionRst r = false →
        let below : Prop := (∃ i < 16, (cellOf s (16 * r.val + i)).inReset = true) ∨ ∃ i < 4, nin s.fab.blockRst (4 * r.val + i) = true
        (¬ below → exec (.regionReset r) s = .next (withQueue s (regionReset s r))) ∧
        (below → exec (.regionReset r) s = .next (withQueue s (infoEvent (regionReset s r) (0x140 + r) 0x07 4 1)))) ∧
      (∀ (r : Fin 16) (b c : Fin 4), barOpen s = true → rd s (f_RGN_UNIT_RST_BUSY r) = 0 →
        let n := 16 * r.val + 4 * b.val + c.val
        let k := 4 * r.val + b.val
        (cellInReset s n = false → exec (.rgnUnitRstCell r b c) s = .next (withQueue s (unitBusy (cellReset s n) r n))) ∧
        (nin s.fab.blockRst k = false → nin s.fab.regionRst r = false → (∀ i < 4, (cellOf s (4 * k + i)).inReset = false) →
          exec (.rgnUnitRstBlock r b) s = .next (withQueue s (unitBusy (blockReset s k) r (0x100 + k)))))) ∧
    (∀ c : Fin 256, rd s f_GEN_STATE_STATE < 4 ∨ cellInReset s c = true →
      exec (.cellReset c) s = .next (withQueue s (infoEvent s c 0x07 10 2))) ∧
    (∀ k : Fin 64, rd s f_GEN_STATE_STATE < 4 ∨ nin s.fab.blockRst k = true ∨ nin s.fab.regionRst (k.val / 4) = true →
      exec (.blockReset k) s = .next (withQueue s (infoEvent s (0x100 + k) 0x07 11 2))) ∧
    (∀ r : Fin 16, rd s f_GEN_STATE_STATE < 4 ∨ nin s.fab.regionRst r = true →
      exec (.regionReset r) s = .next (withQueue s (infoEvent s (0x140 + r) 0x07 12 2))) ∧
    (∀ (r : Fin 16) (b c : Fin 4), barOpen s = true → rd s (f_RGN_UNIT_RST_BUSY r) = 1 →
      exec (.rgnUnitRstCell r b c) s = .next (writeIgnored s) ∧ exec (.rgnUnitRstBlock r b) s = .next (writeIgnored s))) ∧
  (∀ (s : State) (c : Fin 256), s.m.wf = true → swf Cell.reset s.cells = true →
    let t := cellReset s c
    let x := cellOf t c
    cellInReset t c = true ∧ x.k.run = .halted ∧ x.k.pc = 0 ∧ userMode x.k = false ∧ (∀ r : BitVec 5, gReg x.k r = 0) ∧
    x.t.q = [] ∧ x.v.q = [] ∧ x.dma.q = [] ∧ x.sl.buf = [] ∧ (∀ n, sget 0 x.sl.s n = 0) ∧
    (∀ o, o < 0x10_0000 → memByte t (scratchPA c + o) = 0) ∧ (∀ o, o < 0x8000 → memByte t (imemPA c + o) = 0) ∧
    eccIn t (scratchPA c) 0x10_0000 = [] ∧
    (∀ e, e ≠ c.val → (cellOf t e) = (cellOf s e)))

/-- Flume requests and responses that arrive (R78, R220): where no unit is stopped and the levee allows the range, a read of memory
answers with the bytes at its address, with STATUS 1 where a word or the request is poisoned, and a write stores them, or answers
with STATUS 1 where it had to merge into an uncorrectable word; a refused request is answered with STATUS 2, and one for a stopped
unit is discarded and counted with STATUS 3 (R84); a response reaches the cell it is for. A flume message that its cell takes enters
the inbox (R79); a credit returns for a place that its buffer has freed (R74). The weights of a reservoir are written, and the
patrol scrubber moves on one line of good words (R70, R88). The merge slots open, add a LAX record and close with the canonical sum;
ADD of no record, or to a free slot, and CLOSE of a free slot end with INVALID_FIELD (R64). -/
def Obligations.Flume : Prop :=
  (∀ (s t u : State) (p q : Packet) (err : FlitErr), arrive s p = (true, t) → flitErr t p err = (u, q) →
    (noSuchPort q = false →
      (∀ src, portStopped u q.dest = some src →
        exec (.flumeRdReq p err) s = .next (withQueue s (reply (discard u src (flitCount q)) q 2 3 [] 0))) ∧
      (portStopped u q.dest = none → targetInReset u q.addr = false →
        (rangeOk u q.owner q.addr q.len = true → portGone u q.owner q.addr = false → (∀ k a, areaOf q.addr ≠ .port k a) →
          ∀ bad v, checkRange u q.addr q.len true = (bad, v) →
          exec (.flumeRdReq p err) s = .next (withQueue s (reply v q 2 (if bad = true ∨ q.poison ≠ 0 then 1 else 0)
            (memBytes v q.addr q.len) (if q.poison ≠ 0 then BitVec.allOnes 33 else readMarks u q.addr q.len)))) ∧
        (rangeOk u q.owner q.addr q.len = false → exec (.flumeRdReq p err) s = .next (withQueue s (reply u q 2 2 [] 0))) ∧
        (rangeOk u q.owner q.addr q.data.length = true → portGone u q.owner q.addr = false → (∀ k a, areaOf q.addr ≠ .port k a) →
          (mergeBad u q.addr q.data.length = false → exec (.flumeWr p err) s = .next (withQueue s (reply
            (poisonFlits (storeBytes (mergeFix u q.addr q.data.length) q.addr q.data false) q) q 4 0 [] 0))) ∧
          (mergeBad u q.addr q.data.length = true → exec (.flumeWr p err) s = .next (withQueue s (reply
            (mergeUE u q.addr q.data.length) q 4 1 [] 0)))) ∧
        (rangeOk u q.owner q.addr q.data.length = false → exec (.flumeWr p err) s = .next (withQueue s (reply u q 4 2 [] 0))))) ∧
    (∀ c, cellAtEndpoint q.dest = some c →
      exec (.flumeRdRsp p err) s = .next (withQueue s (respond u c q)) ∧ exec (.flumeWrAck (p, err)) s = .next (withQueue s (respond u c q)) ∧
      (∀ v, inboxArrive u c q = some v → exec (.flumeMsg p err) s = .next (withQueue s v)))) ∧
  ((∀ (s : State) (r : Fin 64) (q : Fin 8) (pl : Fin 2) (vc : Fin 3),
    let k := ((r.val * 8 + q.val) * 2 + pl.val) * 3 + vc.val
    standing s k < sget 0 s.fab.held k →
    exec (.flitCreditReturn r q pl vc) s = .next { s with fab := { s.fab with held := sput 0 s.fab.held k (sget 0 s.fab.held k - 1) } }) ∧
  (∀ (s : State) (r : Fin 16) (w : BitVec 20),
    (barOpen s = true → exec (.rgnRsvWeightWrite r w) s = .next (setReg s (f_RGN_RSV_WEIGHT_F r).key (w.zeroExtend 64))) ∧
    (∀ l, l = sget 0 s.fab.patrol r →
      checkRange s (0x100_0000_0000 + r.val * 0x1000_0000 + 64 * l) 64 true = (false, s) →
      exec (.reservoirPatrolScrub r) s = .next { s with fab := { s.fab with patrol := sput 0 s.fab.patrol r ((l + 1) % 4194304) } })) ∧
  (∀ (s : State) (k i : Fin 64) (l : List Byte) (a b : Acc), mergeInReset s k = false →
    let slot := sget none s.fab.merge (64 * k.val + i.val)
    exec (.mergeOpen k i) s = .next (emit (setSlot s k i (some Acc.zero)) (.merge k i 0 [])) ∧
    (slot = some a → ofLAX l = some b → exec (.mergeAdd k i l) s = .next (emit (setSlot s k i (some (a.merge b))) (.merge k i 0 []))) ∧
    ((slot = none ∨ ofLAX l = none) → exec (.mergeAdd k i l) s = .next (emit s (.merge k i 1 []))) ∧
    (slot = some a → exec (.mergeClose k i) s = .next (emit (setSlot s k i none) (.merge k i 0 a.toLAX))) ∧
    (slot = none → exec (.mergeClose k i) s = .next (emit s (.merge k i 1 [])))))

/-- DQ and DMSG take 32 or 64 aligned bytes of scratch into the queue of CP3 while fewer than 16 of its entries wait, and stall on a
full one (R206, R113). The first queued descriptor, with fewer than four before it, no wait to make and no deposit due, runs: a COPY
or ZERO that moves all its bytes unpoisoned ends with SUCCESS, one that is malformed with INVALID_FIELD (R207, R208). The oldest
descriptor, once it has ended or its response is 100 µs overdue (TIMEOUT), receives its STATUS at byte 3 and signals DONE; a message
leaves in its turn while the router's local input has a credit for it (R63, R74, R207). -/
def Obligations.DmaDescriptors : Prop :=
  (∀ (s : State) (c : Fin 256) (r1 r2 : BitVec 5) (ord : BitVec 1), Ready s c →
    let x := cellOf s c
    let a := (gReg x.k r1).toNat
    let d := gReg x.k r2
    let go (i : DmaItem) : State := setCell s c (boundary { x with
      k := { nextPc x.k with run := .running }
      dma := { x.dma with q := x.dma.q ++ [i] } })
    let readable (n : Nat) : Prop := n ∣ a ∧ inScratch a n = true ∧ (userMode x.k = true → mpuRange x.k a n .load = true) ∧
      checkRange s (scrPA c a) n false = (false, s)
    (dmaWaiting x.dma.q < 16 →
      (readable 32 → exec (.dq c r1) s = .next (go (.desc (memBytes s (scrPA c a) 32) (gReg x.k r1) (userMode x.k) .queued))) ∧
      (readable 64 → dmsgRefused d = false → exec (.dmsg c r1 r2 ord) s = .next (go (.msg (memBytes s (scrPA c a) 64) d.toNat (ord == 1))))) ∧
    (16 ≤ dmaWaiting x.dma.q → exec (.dq c r1) s = .next (setCell s c x) ∧
      (dmsgRefused d = false → exec (.dmsg c r1 r2 ord) s = .next (setCell s c x)))) ∧
  ((∀ (s s' : State) (c : Fin 256) (i : Nat) (b : List Byte) (a : Word) (u : Bool), cellInReset s c = false →
    let x := cellOf s c
    firstQueued x.dma.q = some i → x.dma.q[i]? = some (.desc b a u .queued) → i < 4 → x.dma.wait = none → dWait b = false →
    depositReady s c = false →
    (descBad b = false → (u = true → descUserBad x b = false) →
      ∀ h, dmaGo c (dFrom b) (dDst b) (dLen b) (dLen b / 2048 + 4) true ⟨dmaPlace x, 0, false, none, none⟩ s = (none, h, s') → h.bad = false →
      let t := setPhase (dropAsks s' (fun w => decide (w = .dma c h.k))) c i (.ended 0x00)
      (dOp b = 0 → exec (.dmaCopy ⟨c, none⟩) s = .next (withQueue s t)) ∧ (dOp b = 1 → exec (.dmaZero ⟨c, none⟩) s = .next (withQueue s t))) ∧
    (descBad b = true → (dOp b ≠ 1 → exec (.dmaCopy ⟨c, none⟩) s = .next (withQueue s (setPhase s c i (.ended 0x01)))) ∧
      (dOp b = 1 → exec (.dmaZero ⟨c, none⟩) s = .next (withQueue s (setPhase s c i (.ended 0x01)))))) ∧
  (∀ (s : State) (c : Fin 256) (b : List Byte) (a : Word) (u : Bool) (ph : DmaPhase) (st : Nat) (r : List DmaItem), cellInReset s c = false →
    let pa := scrPA c (a.toNat + 3)
    let drop (t : State) : State := match ph.hold with
      | some h => dropAsks t (fun w => decide (w = .dma c h.k))
      | none => t
    (cellOf s c).dma.q = .desc b a u ph :: r → dmaEnded s ph = some st → mergeBad s pa 1 = false →
    exec (.dmaDescriptorComplete c) s = .next (withQueue s (parkCheck (modCell
      (drop (storeBytes (mergeFix s pa 1) pa (natLE 1 st) false)) c
      (fun x => if bit (le b 1 1) 7 then incSluice { x with dma := { x.dma with q := r } } (lef b 1 1 4 0) 1
        else { x with dma := { x.dma with q := r } })) c))) ∧
  (∀ (s : State) (c : Fin 256) (i : Nat) (data : List Byte) (dest : Nat) (ord : Bool), cellInReset s c = false → depositReady s c = false →
    let x := cellOf s c
    let r := routerOf (blockOf c)
    let t := grantsBefore s r (c.val % 4)
    firstQueued x.dma.q = some i → x.dma.q[i]? = some (.msg data dest ord) → (ord = true → i = 0) →
    sget 0 t.fab.held (credKey r 0 0 0) < 8 →
    let p : Packet := ⟨dest, endpointOf c, 0, 0, x.turnout.toNat, 0, 0, 64, data, 0, 0, 0⟩
    exec (.dmsgSend c) s = .next (withQueue s (parkCheck (turnAfter (standAt
      (send (modCell t c (fun x => { x with dma := { x.dma with q := x.dma.q.eraseIdx i } })) p) p 1) r (c.val % 4)) c))))

/-- A write to an OWNER field (R221): refused with WRITE_IGNORED during a scrub; a free extent or granule goes to an ACTIVE turnout
or to 201h; an owned one written 200h begins its scrub, and the end of the scrub frees it with its contents zero (R241). -/
def Obligations.MemoryOwners : Prop :=
  ∀ (s : State) (e : Fin 1024) (g : Fin 4096) (v : BitVec 10),
    (barOpen s = true →
      (rd s (f_TRN_EXT_SCRUB e) = 1 → exec (.extentOwnerWrite e v) s = .next (writeIgnored s)) ∧
      (rd s (f_TRN_GRAN_SCRUB g) = 1 → exec (.granuleOwnerWrite g v) s = .next (writeIgnored s)) ∧
      ((v.toNat < 0x200 ∧ turnActive s v.toNat = true ∨ v = 0x201#10) →
        (rd s (f_TRN_EXT_SCRUB e) = 0 → rd s (f_TRN_EXT_OWNER e) = 0x200 →
          exec (.extentOwnerWrite e v) s = .next (wr s (f_TRN_EXT_OWNER e) v.toNat)) ∧
        (rd s (f_TRN_GRAN_SCRUB g) = 0 → rd s (f_TRN_GRAN_OWNER g) = 0x200 →
          exec (.granuleOwnerWrite g v) s = .next (wr s (f_TRN_GRAN_OWNER g) v.toNat))) ∧
      (v = 0x200#10 →
        (rd s (f_TRN_EXT_SCRUB e) = 0 → rd s (f_TRN_EXT_OWNER e) < 0x202 → rd s (f_TRN_EXT_OWNER e) ≠ 0x200 →
          exec (.extentOwnerWrite e v) s = .next (wr s (f_TRN_EXT_SCRUB e) 1)) ∧
        (rd s (f_TRN_GRAN_SCRUB g) = 0 → rd s (f_TRN_GRAN_OWNER g) < 0x202 → rd s (f_TRN_GRAN_OWNER g) ≠ 0x200 →
          exec (.granuleOwnerWrite g v) s = .next (wr s (f_TRN_GRAN_SCRUB g) 1)))) ∧
    (rd s (f_TRN_EXT_SCRUB e) = 1 → exec (.extentScrubDone e) s = .next (extentScrubbed s e)) ∧
    (rd s (f_TRN_GRAN_SCRUB g) = 1 → exec (.granuleScrubDone g) s = .next (granuleScrubbed s g) ∧
      ∀ a, 0x100_0000_0000 + g.val * 0x10_0000 ≤ a → a < 0x100_0000_0000 + (g.val + 1) * 0x10_0000 → memByte (granuleScrubbed s g) a = 0)

/-- Translation (R222–R229): a walk that finds a leaf caches it, one that meets V = 0 with PR = 1 raises or joins a page request; an
invalidation starts, and once no access that it covers is open drops the cached translations that it covers and ends. The record of
an unsent page request is written to the PRQ ring when that has room; a PR_DONE in time serves or refuses every requester, gives one
whose own deadline has passed the outcome of the deadline, and frees the slot; one of no outstanding request is counted as stale; a
requester past its deadline leaves, and the last one frees the slot. -/
def Obligations.Translation : Prop :=
  ∀ (s : State),
    let live (q : PageReq) : Bool := q.waiters.any (fun w => inTime s w.2)
    let prq := rd s f_TRN_PRQ_FURROW_FURROW
    (∀ (k : Fin 17) (t : Fin 512) (ta : BitVec 48) (w : Bool) (who : PReq) (src : Fin 10),
      (∀ l s', runMM s (walkRoot t ta.toNat w) = (.ok l, s') →
        let e : TlbEntry := ⟨k, t, ta.toNat / 2 ^ l.sh * 2 ^ l.sh, 2 ^ l.sh, l.pa, l.r, l.w⟩
        exec (.translationWalk k t ta w who src) s = .next (withQueue s { s' with lev := { s'.lev with
          tlb := e :: s'.lev.tlb.filter (fun x => !(x.wk == e.wk && x.t == e.t && x.ta == e.ta)) } })) ∧
      (∀ t' p w' s', runMM s (walkRoot t ta.toNat w) = (.error (.page t' p w'), s') →
        exec (.translationWalk k t ta w who src) s = .next (withQueue s (raisePage s' who src t' p w')))) ∧
    (∀ (sc : BitVec 4) (t : Fin 512), barOpen s = true → rd s f_TRN_INV_CTL_GO = 0 → sc.toNat < 4 →
      exec (.trnInv sc t) s = .next (wr (wr (wr s f_TRN_INV_CTL_SCOPE sc.toNat) f_TRN_INV_CTL_TURNOUT t) f_TRN_INV_CTL_GO 1)) ∧
    (rd s f_TRN_INV_CTL_GO = 1 → (∀ p ∈ s.cells, accessOpen s p.1 = false) → readOpen s = false →
      exec .trnInvComplete s = .next (wr { s with lev := { s.lev with
        tlb := s.lev.tlb.filter (fun e => !invCovers s e.t e.ta e.size) } } f_TRN_INV_CTL_GO 0)) ∧
    (∀ x q s', furOf s prq = some x → s.lev.prq.find? (fun q => !q.sent && live q) = some q → x.enabled = true →
      x.cls = clPrq → (x.cqt - x.cqh).toNat < x.depth → ringPost s prq (prqBytes q) true = (s', .ok) →
      exec .prqRecordWrite s = .next (withQueue s { s' with lev := { s'.lev with
        prq := s'.lev.prq.map (fun p => if p.slot == q.slot then { p with sent := true } else p) } })) ∧
    (∀ e, s.infl.find? (fun e => e.f == prq && furClass s prq == clPrq) = some e →
      let t := dropEntry s prq e.i
      (∀ q, s.lev.prq.find? (fun q => q.gen * 4096 + q.slot == le e.b 16 4 && live q) = some q → prDoneBad e.b = false →
        exec .prDone s = .next (withQueue s (q.waiters.foldl (fun u w => pageOutcome u w.1 (pageKey q.page q.w)
          (if u.clk ≤ w.2 then some (le e.b 20 1 == 0) else none)) (freeReqs t (fun p => p.slot == q.slot))))) ∧
      (s.lev.prq.find? (fun q => q.gen * 4096 + q.slot == le e.b 16 4 && live q) = none →
        exec .prDone s = .next (withQueue s (incF t f_TRN_PRQ_STALE_V 1)))) ∧
    (∀ who q, s.lev.prq.find? (fun q => q.waiters.any (fun w => decide (w.1 = who) && decide (w.2 < s.clk))) = some q →
      let left := s.lev.prq.map (fun p => if p.slot == q.slot then
        { p with waiters := p.waiters.filter (fun w => !(decide (w.1 = who) && decide (w.2 < s.clk))) } else p)
      exec (.pageRequestDeadline who) s = .next (withQueue s (pageOutcome
        (freeReqs { s with lev := { s.lev with prq := left } } (fun p => p.waiters.isEmpty)) who (pageKey q.page q.w) none)))

/-- Doorbells (R234) that reach the device: a PI that moves forward by at most the ring's depth beyond HEAD, and a CQH that moves
forward up to CQT, are taken; another value that is equal to the current one or behind it by at most the depth is dropped; any
other, one of no accepted form, and one for no furrow in use are counted in DSP_DB_BAD. -/
def Obligations.Doorbells : Prop :=
  ∀ (s : State) (loc : DbLoc) (link : Option (Fin 16)) (v : Word), dbReaches s loc link = true →
    let bad := incF s f_DSP_DB_BAD_COUNT 1
    (∀ f x, dbFurrow s loc = some f → furOf s f = some x →
      let takesPi : Prop := 0 < (v - x.head).toNat ∧ (v - x.head).toNat ≤ x.depth ∧ 0 < (v - x.pi).toNat ∧ (v - x.pi).toNat < 2 ^ 31
      let takesCq : Prop := 0 < (v - x.cqh).toNat ∧ (v - x.cqh).toNat ≤ (x.cqt - x.cqh).toNat
      (takesPi → exec (.doorbellPi loc link true v) s = .next (setFur s f (some { x with
        pi := v, rang := x.rang ++ [(v.toNat, match link with | some k => k.val + 1 | none => 0)] }))) ∧
      (¬ takesPi → exec (.doorbellPi loc link true v) s = .next (if (x.pi - v).toNat ≤ x.depth then s else bad)) ∧
      (takesCq → exec (.doorbellCqh loc link true v) s = .next (setFur s f (some { x with cqh := v }))) ∧
      (¬ takesCq → exec (.doorbellCqh loc link true v) s = .next (if (x.cqh - v).toNat ≤ x.depth then s else bad)) ∧
      exec (.doorbellPi loc link false v) s = .next bad ∧ exec (.doorbellCqh loc link false v) s = .next bad) ∧
    (dbFurrow s loc = none → ∀ form, exec (.doorbellPi loc link form v) s = .next bad ∧ exec (.doorbellCqh loc link form v) s = .next bad)

/-- Furrow commands (R237): CREATE on an unused ID makes a frozen furrow of what DSP_FCTX holds, or leaves the status of the check
that failed; ENABLE starts a frozen furrow after its held completions, FREEZE stops it, RELEASE frees a frozen one without entries,
READ copies its state; ENABLE, FREEZE, RELEASE and READ on an unused ID have RESULT INVALID_FIELD. A furrow that is ready, admitted
and in its turn fetches entry HEAD, and an entry of a class other than MIMIN, STORAGE and PRQ that has ended is completed and leaves
(R235). -/
def Obligations.FurrowCommands : Prop :=
  (∀ s : State, barOpen s = true →
    let f := rd s f_DSP_FSEL_FURROW
    (furOf s f = none →
      (∀ i, i = Instr.furrowEnable ∨ i = .furrowFreeze ∨ i = .furrowRelease ∨ i = .furrowRead →
        exec i s = .next (wr s f_DSP_FCMD_RESULT 0x01)) ∧
      (createStatus s ≠ 0 → exec .furrowCreate s = .next (wr s f_DSP_FCMD_RESULT (createStatus s))) ∧
      (createStatus s = 0 → exec .furrowCreate s = .next (setFur (wr s f_DSP_FCMD_RESULT 0) f
        (some ⟨bits (fctx s 2) 63 54, bits (fctx s 2) 53 50, fctx s 0, fctx s 1, bits (fctx s 2) 49 45, bits (fctx s 2) 44 34,
          bits (fctx s 2) 33 20, bits (fctx s 2) 19 16, false, false, 0, 0, 0, 0, [], 0, [], []⟩)))) ∧
    (∀ x, furOf s f = some x →
      exec .furrowCreate s = .next (wr s f_DSP_FCMD_RESULT 0x01) ∧
      (x.enabled = false → (x.owner = 0x201 ∨ turnActive s x.owner = true) →
        exec .furrowEnable s = .next (withQueue s (flushHeld (wr s f_DSP_FCMD_RESULT 0) f))) ∧
      exec .furrowFreeze s = .next (setFur (wr s f_DSP_FCMD_RESULT 0) f (some { x with enabled := false })) ∧
      (x.enabled = false → furIdle s f = true → exec .furrowRelease s = .next (withQueue s
        (cplFreed (setFur (dropWaiters (wr s f_DSP_FCMD_RESULT 0) (fun w => decide (w = .ring f))) f none)))) ∧
      exec .furrowRead s = .next (setReg (setReg (setReg (setReg (wr s f_DSP_FCMD_RESULT 0) 0x900020 (BitVec.ofNat 64 x.sq))
        0x900028 (BitVec.ofNat 64 x.cq)) 0x900030 (BitVec.ofNat 64 (x.owner * 2 ^ 54 + x.cls * 2 ^ 50 + x.log2 * 2 ^ 45 + x.vec * 2 ^ 34 +
        x.slot * 2 ^ 20 + x.sched * 2 ^ 16))) 0x900038 (x.pi ++ x.head)))) ∧
  (∀ (s s' : State) (f : Fin 262144) (x : Furrow) (b : List Byte), furOf s f = some x → ringReady x = true → flrStops s x.owner = false →
    runMM s (readSp (ioFor (.ring f)) x.owner (x.sq + 64 * (x.head.toNat % x.depth)) 64) = (.ok b, s') →
    admits s f x b = true → itsTurn s f x = true → nin s'.boot.badCls x.cls = false →
    let u := dropAsks s' (fun w => decide (w = .ring f.val))
    let e0 : Entry := ⟨f, entryIndex u f x, b, (x.head + 1).toNat, u.clk, u.seq, .fetched, [], [], none, none, []⟩
    let e : Entry := { e0 with links := bindLinks u x e0 }
    let t := modFur u f (fun x => { x with
      head := x.head + 1, paging := 0, rang := x.rang.filter (fun p => decide (1 < (BitVec.ofNat 32 p.1 - x.head).toNat)) })
    exec (.furrowFetch f) s = .next (withQueue s (fetched { t with
      infl := t.infl ++ [e]
      seq := t.seq + 1
      mim := { t.mim with
        waited := ndel t.mim.waited (f.val * 2 ^ 32 + x.head.toNat)
        last := if x.cls = clMimin then f.val else t.mim.last }
      cip := { t.cip with last := if x.cls = clCipher then f.val else t.cip.last } } e x))) ∧
  (∀ (s s' : State) (f : Fin 262144) (i : Fin 65536) (e : Entry) (x : Furrow) (st res w : Nat),
    let u := drainEnd s
    entryOf u f i = some e → furOf u f = some x → e.ph = .ended st res → canComplete u e = true →
    x.cls ≠ clStorage → x.cls ≠ clMimin → x.cls ≠ clPrq → resultWord (dropEntry u f i) x.cls res = (w, s') →
    exec (.entryCompletion f i) s = .next (withQueue s
      (release (postCpl s' f ⟨e.cid, w, e.head, st, e.irq, e.seq⟩) x.cls e st)))

/-- Requests toward the ports (R250, R253): a completion answers the request that its tag names, an error completion and a timeout end
it with STATUS 3h, and a completion of no request is logged as unexpected. Function resets (R260–R262): an FLR of a VF starts, is
absorbed by one in progress, lets no TLP leave after 2 µs, and completes with the function at its reset values once no entry of the
VF is in flight; VF Enable and an FLR of a PF0 reset the VFs. The reset sources of the upstream ports (R258, R259, R403, R406): each
acts at the level that RST_REACH gives it, PERSTx_N after a low time of 1.04 µs and never under 0.96 µs; it is released likewise.
Power (R272–R275): D3hot is entered and left by PowerState writes, PME_Turn_Off is answered when every function of the port is in
D3hot, and a wake sets PME_Status and is pending. -/
def Obligations.Ports : Prop :=
  (∀ (s : State),
    (∀ (port : Fin 34) (tag : Fin 16384) (r : NpReq) (data : List Byte) (p : Bool),
      s.pcie.reqs.find? (fun q => q.port == port.val && q.tag == tag.val) = some r →
      let fn := issuer s port r.owner
      exec (.pcieCompletion port tag 0 p data) s = .next (withQueue s
        (npReply (if p = true then aerLog s fn 12 else s) r (b2n p) (padTo r.len data))) ∧
      (∀ st : Fin 3, st ≠ 0 → exec (.pcieCompletion port tag st p data) s = .next (withQueue s (npReply s r 3 []))) ∧
      (bit (fnOf s fn).devCtl2 4 = false → r.at_ + cplTimeout (bits (fnOf s fn).devCtl2 3 0) < s.clk →
        exec (.pcieCompletionTimeout port tag) s = .next (withQueue s (npReply (aerLog s fn 14) r 3 [])))) ∧
    (∀ (port : Fin 34) (tag : Fin 16384) (st : Fin 3) (data : List Byte) (p : Bool),
      s.pcie.reqs.find? (fun q => q.port == port.val && q.tag == tag.val) = none →
      exec (.pcieCompletion port tag st p data) s = .next (aerLog s (portFn port) 16)) ∧
    (∀ t : Fin 512,
      (vfExists s t = true → inFlr s t = false → turnState s t ≠ 4 → ∃ d, d ≤ 200 ∧ exec (.flrInitiate t) s = .next (seen
        { s with free := s.free + 1, pcie := { s.pcie with flr := sput none s.pcie.flr t (some ⟨s.clk, false, s.clk + 100 + d⟩) } } 8)) ∧
      (vfExists s t = true → inFlr s t = true →
        exec (.flrInitiate t) s = .next (withQueue s (seen (infoEvent s (0x178 + t.val / 256) 0x07 9 2) 8))) ∧
      (∀ f, sget none s.pcie.flr t = some f →
        let u := { s with pcie := { s.pcie with flr := sput none s.pcie.flr t (some { f with cut := true }) } }
        (f.at_ + 2000 < s.clk → exec (.flrTlpCutoff t) s = .next u) ∧
        (f.at_ + 2000 ≤ s.clk →
          let v := abortOwner (freezeOwner u t) t
          let w := fnReset v t
          let w := { w with pcie := { w.pcie with flr := sput none w.pcie.flr t none } }
          let z := wr w (f_TRN_FLR_PEND_V (t / 32)) (rd w (f_TRN_FLR_PEND_V (t / 32)) ||| 2 ^ (t.val % 32))
          inFlight v t = false → exec (.flrComplete t) s = .next (withQueue s (msix z fnPF0 (rd z f_TRN_CFG_VEC)))))) ∧
    (∀ (p : Fin 2) (n : Fin 257), (upOf s p).vfEn = true → n.val < (upOf s p).numVfs →
      exec (.vfDisable p n) s = .next (withQueue s (modUp
        (((vfsOf s p).filter (fun t => decide (n.val ≤ t % 256))).foldl flrStart s) p
        (fun u => { u with vfEn := decide (0 < n.val), numVfs := n })))) ∧
    (∀ p : Fin 2, (pf0Of s p = 513 → exec (.pfFlr p) s = .next (withQueue s (fnReset (sriovReset (seen s 8) p) 513))) ∧
      (pf0Of s p = 512 → exec (.pfFlr p) s = .next (withQueue s (endAll (fnReset (sriovReset (seen s 8) p) 512)
        (fun e => match furOf (fnReset (sriovReset (seen s 8) p) 512) e.f with
          | some x => x.owner == 0x201 && (behindUp p x.sq || behindUp p x.cq)
          | none => false) 0x05))))) ∧
  (∀ (s : State) (p : Fin 2) (width : Word),
    let s1 := { s with free := s.free + 1 }
    exec (.portReset p) s = .next (withQueue s (portReset s p)) ∧
    (1040 ≤ width.toNat → ∃ d, 960 ≤ d ∧ d ≤ 1040 ∧ exec (.perstAssert ⟨p, width⟩) s = .next (withQueue s (portSource
      (modUp s1 p (fun u => { u with perst := true, link := false, perstHold := s.clk + max (width.toNat - d) 10000 })) (2 + p) p))) ∧
    (width.toNat < 960 → exec (.perstAssert ⟨p, width⟩) s = .next s1 ∧ exec (.perstDeassert ⟨p, width⟩) s = .next s1) ∧
    (1040 ≤ width.toNat → (upOf s p).perst = true → (upOf s p).perstHold ≤ s.clk →
      let v := if (upOf s p).l2 = true ∨ s.pcie.cold = true then withdraw s1 (fun w => w.port == p.val) else s1
      ∃ d, d ≤ 100_000_000 ∧ exec (.perstDeassert ⟨p, width⟩) s = .next (withQueue s (modUp { v with free := v.free + 1 } p (fun u => { u with
        perst := false, perstAt := s.clk + 1, link := controllersUp s, l2 := false, readyAt := s.clk + d })))) ∧
    ((upOf s p).link = true →
      exec (.hotReset p) s = .next (withQueue s (portSource s (4 + p) p)) ∧
      exec (.upLinkDown p) s = .next (withQueue s (portSource (modUp s p (fun u => { u with link := false })) (6 + p) p)) ∧
      (sourceLevel s (4 + p) = 5 → exec (.hotReset p) s = .next (withQueue s (portReset (seen s (4 + p)) p))) ∧
      (swf UpPort.reset s.pcie.ups = true → (fnOf s (pf0Of s p)).d3 = true → (vfsOf s p).all (fun t => (fnOf s t).d3) = true →
        exec (.pmeTurnOff p) s = .next (modUp (emit (modUp s p (fun u => { u with turnOff := true })) (.tlp p 2 [])) p
          (fun u => { u with l2 := true, link := false, turnOff := false }))) ∧
      ((fnOf s (pf0Of s p)).d3 = false → exec (.pmeTurnOff p) s = .next (modUp s p (fun u => { u with turnOff := true })))) ∧
    (∀ t : Fin 512, vfExists s t = true →
      exec (.powerStateWrite (t.castLE (by decide))) s = .next (withQueue s
        (pmeAck (modFn s t (fun f => { f with d3 := true })) (upOfFn (modFn s t (fun f => { f with d3 := true })) t)))) ∧
    (∀ fn : Fin 514, (fnOf s fn).d3 = true →
      let v := withdraw s (fun w => w.fn == fn.val || w.port == upOfFn s fn)
      let w := if fn.val < 512 then v
        else (List.range 8).foldl (fun a n => if dpUp a n = some (upOfFn s fn) then modSlot a n (fun x => { x with hpWake := false, woke := 0 }) else a) v
      exec (.hostResume fn) s = .next (withQueue s (sendHeld (modFn w fn (fun f => { f with d3 := false })) fn))) ∧
    (∀ (reason : Fin 6) (slot : Fin 8) (fn : Fin 514), wakeCause s reason slot fn = true →
      let q := wakePort s reason slot fn
      let owner := if reason = 1 then fn.val else pf0Of s q
      let n := (upOf s q).l2 || s.pcie.cold
      (s.pcie.wakes.any (fun w => w.reason == reason.val && w.slot == slot.val && w.fn == owner) = false) →
      ((upOf s q).perst = false ∨ n = true) →
      let t := modFn s owner (fun f => { f with pmeSt := true })
      let t := if 2 ≤ reason.val ∧ reason.val ≤ 4 then modSlot t slot (fun x => { x with woke := x.woke ||| 2 ^ reason.val }) else t
      exec (.wake reason slot fn) s = .next { t with pcie := { t.pcie with
        wakes := t.pcie.wakes ++ [⟨reason, q, slot, owner, n⟩], waken := t.pcie.waken || n } }))

/-- Slots and downstream links (R263–R271): a scan latches the outputs that the last one shifted, shifts the next, counts a bad frame,
and with no chain fault takes a good frame's inputs; Slot Control writes its fields, PERST_N rises 100 ms after PWR_GOOD with the
slot's power on. A link that a powered slot allows becomes active; one that drops with its slot's power off is an orderly removal,
otherwise a surprise down, with its traffic contained, the furrows whose rings lie behind it frozen and its entries ABORTED; the
containment ends once the link is active again and the DPC trigger is cleared. -/
def Obligations.SlotsAndLinks : Prop :=
  ∀ (s : State),
    (∀ di : BitVec 66, let a := (List.range 8).foldl slotLatch s
      let b := (List.range 8).foldl slotShift (emit a (.side 1 0 ([1, 0] ++ (List.range 8).map (slotOut a))))
      ((di.getLsbD 0 = false ∨ di.getLsbD 1 = true) → exec (.slotChainScan di) s = .next (withQueue s (slotBad b))) ∧
      (di.getLsbD 0 = true → di.getLsbD 1 = false → rd b f_HEP_SLC_STAT_FAULT = 0 →
        exec (.slotChainScan di) s = .next (withQueue s ((List.range 8).foldl (fun s n => slotIn s n
          ((List.range 8).foldl (fun a j => 2 * a + b2n (di.getLsbD (2 + 8 * n + j))) 0))
          { b with pcie := { b.pcie with slcBad := 0 } })))) ∧
    (∀ (n : Fin 8) (power hp : Bool) (pind aind : Fin 3), exec (.slotControlWrite n power pind aind hp) s =
      .next (modSlot s n (fun x => { x with
        power := power, pind := pind + 1, aind := aind + 1, hpIrq := hp,
        cmdPend := if x.power = power ∧ x.pind = pind.val + 1 ∧ x.aind = aind.val + 1 then x.cmdPend else 1 }))) ∧
    (∀ n : Fin 8, (hpSlot s n).pwrEn = true → (hpSlot s n).good = true → (hpSlot s n).goodAt ≠ 0 →
      (hpSlot s n).goodAt + 100_000_000 ≤ s.clk + 1 → exec (.slotPerstDeassert n) s = .next (modSlot s n (fun x => { x with perstN := true }))) ∧
    (∀ k : Fin 16,
      ((dpOf s k).active = false → (dpOf s k).dpcTrig = false → linkExists s k = true → (hpSlot s (k % 8)).pwrEn = true →
        let t := modDp s k (fun d => { d with active := true, dllsc := true })
        exec (.dpLinkUp k) s = .next (if k.val < 8 then modSlot t k (fun x => { x with inBand := true }) else t)) ∧
      ((dpOf s k).active = true → (dpOf s k).dpcTrig = false →
        exec (.containmentEnd k) s = .next (modDp s k (fun d => { d with contained := false }))) ∧
      ((dpOf s k).active = true → (hpSlot s (k % 8)).power = false →
        exec (.surpriseDown k) s = .next (modDp s k (fun d => { d with active := false, dllsc := true }))) ∧
      ((dpOf s k).active = true → (hpSlot s (k % 8)).power = true →
        let a := aerLog (modDp s k (fun d => { d with active := false, dllsc := true })) (1032 + k) 5
        let gone := a.fur.filter (fun q => match q.2 with
          | some x => ringInLink a k x
          | none => false)
        let f := freezeFurs (modDp a k (fun d => { d with dpcTrig := d.dpcTrig || bits d.dpcCtl 1 0 != 0, contained := true }))
          (fun f _ => gone.any (fun q => q.1 == f))
        exec (.surpriseDown k) s = .next (withQueue s (npLost (endAll f
          (fun e => e.links.contains k.val || (entryLinks f e).contains k.val) 0x05) (fun r => r.port == 2 + k.val)))))

/-- Turnout commands in progress whose command block can be read (R385–R390): CREATE and KEY_LOAD that pass their checks take effect and
end with SUCCESS, one that fails a check ends with its status, KEY_LOAD with its key zeroed and nothing else changed; RESET and
DESTROY of a turnout that the block may name, once every entry of the turnout has ended, complete; KEY_FREE of a key that no fetched
request has bound releases its slot; a CREATE, KEY_LOAD or KEY_FREE that is not started within 10 ms ends with BUSY (R385, R12). The
management channel (R393): an index of an ACTIVE turnout that moves forward within its ring is taken, an up PI sets the pending bit
and signals the manager, a down PI signals the tenant; any other value changes nothing. -/
def Obligations.Turnouts : Prop :=
  (∀ (s s1 : State) (b : List Byte) (c : TCmd), s.trn.cmd = some c → fwServes s = true →
    let ends (i : Instr) (t : State) (st : Nat) : Prop := exec i s = .next (withQueue s (cmdDone t st))
    let late : Prop := (c.op = 1 ∨ c.op = 4 ∨ c.op = 5) ∧ c.step = 0 ∧ c.at_ + 10_000_000 < s.clk
    (late → ends .turnoutCommandBusy s 0x04) ∧
    (¬ late → compStopped s (opComp c.op) = false →
      runMM s (physRead (ioFor .firmware) 0x201 (rd s f_TRN_CMD_ADDR_ADDR * 64) 256) = (.ok b, s1) →
      let s' := dropAsks s1 (fun w => decide (w = .firmware))
      (c.op = 1 → (createCheck s' b = 0 → ends .turnoutCreate (createTurnout s' b) 0) ∧
        (createCheck s' b ≠ 0 → ends .turnoutCreate s' (createCheck s' b))) ∧
      (c.op = 3 → c.step ≠ 1 → ∀ t, blockTurnout b = some t →
        (turnActive s' t = false → ends .turnoutReset s' 1) ∧
        (let u := abortOwner (abortSave (freezeOwner (setTurn s' t 3) t) t) t
        turnActive s' t = true → inFlight u t = false → ends .turnoutReset
          (setTurn ((cellsOf u t).foldl (fun s c => startCell (claimCell s c t) c) u) t 2) 0)) ∧
      (c.op = 2 → c.step ≠ 1 → ∀ t, blockTurnout b = some t →
        (turnState s' t = 0 → ends .turnoutDestroy s' 1) ∧
        (let u := abortOwner (abortSave (freezeOwner (setTurn s' t 4) t) t) t
        turnState s' t ≠ 0 → inFlight u t = false → ends .turnoutDestroy
          (destroyEnd (destroyScrubs (destroyUnits (destroyThings u t) t) t) t) 0)) ∧
      (c.op = 4 → (keyLoadCheck s' b = 0 → ends .keyLoad
          (zeroKey (writeSlot s' (le b 2 2) (le b 4 1) (le b 0 2) ((b.drop 8).take (keyLen (le b 4 1))))) 0) ∧
        (keyLoadCheck s' b ≠ 0 → ends .keyLoad (zeroKey s') (keyLoadCheck s' b))) ∧
      (c.op = 5 → le b 2 2 < 8192 → (keySlotOf s' (le b 2 2)).ty ≠ 0 → keyBound s' (le b 2 2) = false →
        ends .keyFree (releaseSlot s' (le b 2 2)) 0))) ∧
  (∀ (s : State) (t : Fin 512) (v : BitVec 16), turnActive s t = true →
    let up := rd16 s (f_TRN_CHAN_UP_PI t)
    let upC := rd16 s (f_TRN_CHAN_UP_CI t)
    let dn := rd16 s (f_TRN_CHAN_DN_PI t)
    let dnC := rd16 s (f_TRN_CHAN_DN_CI t)
    (vfBar s t = true →
      (let ok : Prop := 0 < (v - up).toNat ∧ (v - upC).toNat ≤ chanDepth s
      (ok →
        let a := wr s (f_TRN_CHAN_UP_PI t) v.toNat
        let b := wr a (f_TRN_CHAN_PEND_V (t / 32)) (rd a (f_TRN_CHAN_PEND_V (t / 32)) ||| 2 ^ (t.val % 32))
        exec (.channelUpPi t v) s = .next (withQueue s (msix b fnPF0 (rd b f_TRN_CFG_VEC)))) ∧
      (¬ ok → exec (.channelUpPi t v) s = .next s)) ∧
      (let ok : Prop := 0 < (v - dnC).toNat ∧ (v - dnC).toNat ≤ (dn - dnC).toNat
      (ok → exec (.channelDnCi t v) s = .next (wr s (f_TRN_CHAN_DN_CI t) v.toNat)) ∧ (¬ ok → exec (.channelDnCi t v) s = .next s))) ∧
    (barOpen s = true →
      (let ok : Prop := 0 < (v - upC).toNat ∧ (v - upC).toNat ≤ (up - upC).toNat
      (ok → exec (.channelUpCi t v) s = .next (wr s (f_TRN_CHAN_UP_CI t) v.toNat)) ∧ (¬ ok → exec (.channelUpCi t v) s = .next s)) ∧
      (let ok : Prop := 0 < (v - dn).toNat ∧ (v - dnC).toNat ≤ chanDepth s
      (ok → exec (.channelDnPi t v) s = .next (withQueue s (msix (wr s (f_TRN_CHAN_DN_PI t) v.toNat) t 0))) ∧
      (¬ ok → exec (.channelDnPi t v) s = .next s))))

/-- Links outside framing (R277–R282): loss of an ELS takes its two links out with code 09h and its return clears it; training
starts on demand, fails, or ends ACTIVE with what it found, a native link once its lanes are locked and deskewed; DARK turns a link
off and on, an Ethernet link that loses its PCS lock goes DOWN and trains again where AUTO = 1, and a marker position moves its lane
and the LOCK field, and loses the link when the lane's lock is lost outside training. -/
def Obligations.LinkStates : Prop :=
  ∀ (s : State) (n : Fin 36),
    (∀ m : Fin 18,
      exec (.elsLoss m) s = .next (withQueue s ([2 * m.val, 2 * m.val + 1].foldl (fun s n =>
        condEvent (wr (lnkLeave s n 5) (f_LNK_CTL_RETRAIN n) 0) (lnkSrc n) 0x09 m) (wr s ⟨f_LNK_ELS_STAT_OK.key, m.val, m.val⟩ 0))) ∧
      exec (.elsRestore m) s = .next (withQueue s ([2 * m.val, 2 * m.val + 1].foldl (fun s n =>
        let u := clearPresent s (lnkSrc n)
        if lnkState u n = 5 then (if rd u (f_LNK_CTL_AUTO n) = 1 then startTraining u n else wr u (f_LNK_STAT_STATE n) 0) else u)
        (wr s ⟨f_LNK_ELS_STAT_OK.key, m.val, m.val⟩ 1)))) ∧
    (rd s (f_LNK_CTL_RETRAIN n) = 0 → lnkState s n ≠ 5 → exec (.retrain n) s = .next (withQueue s (startTraining s n))) ∧
    (lnkState s n = 1 →
      (let t := incF (wr (lnkLeave s n 0) (f_LNK_CTL_RETRAIN n) 0) (f_LNK_TRAINFAIL_V n) 1
      exec (.trainingFail n) s = .next (withQueue s (if rd t (f_LNK_CTL_AUTO n) = 1 then
        modLnk t n (fun l => { l with retryAt := 1 + t.clk + 100000000 }) else t))) ∧
      (∀ (remap : LinkEnd) (grp sg : Bool) (node : BitVec 24) (credits : List (BitVec 16)) (rtt : BitVec 16) (off : BitVec 32),
        (lnkNative s n = true → allLocked (lnkOf s n) = true ∧ deskewed (lnkOf s n) = true) →
        let own (v : Nat) : Nat := if lnkNative s n then v else 0
        let a := wr (wr (wr s (f_LNK_STAT_STATE n) 2) (f_LNK_CTL_RETRAIN n) 0) (f_LNK_STAT_REMAP n) remap.remap.toNat
        let a := wr a (f_LNK_STAT_PEER n) (own (if sg then 2 else 1))
        let a := wr (wr a (f_LNK_STAT_PEER_NODE n) (own (node.toNat % 2 ^ 22))) (f_LNK_PEERHI_V n) (own (node.toNat / 2 ^ 22))
        let a := if lnkNative s n then groupTrained a n grp else a
        let cr : SMap Nat := (credits.take 8).zipIdx.foldl (fun m p => sput 0 m p.2 p.1.toNat) []
        let a := modLnk a n (fun l => { l with
          exp := 0, nakOut := false, nakDue := false, ackDue := false, seq := 0, replay := [], ackAt := a.clk, replays := 0,
          rtt := rtt.toNat, rxAt := a.clk, txAt := a.clk, dataAt := a.clk, credit := cr, trained := cr, back := []
          pfc := if lnkNative s n then 0 else remap.pfc.toNat, retryAt := 0 })
        let a := (portsOf a n).foldl (fun s p =>
          let s := wr s (f_SCH_SVC_SERVICE p) 1
          { s with sch := { s.sch with
            svc := sput 1 s.sch.svc p 1
            cbs := sclear s.sch.cbs (16 * p) 16
            tok := sclear s.sch.tok (16 * p) 16
            upTo := sput 0 s.sch.upTo p s.clk } }) a
        exec (.trainingComplete n remap grp sg node credits rtt off) s =
          .next (withQueue s (if lnkNative s n then timeFrame (exchange a n off.toInt) n else a)))) ∧
    (barOpen s = true → exec (.linkDark n true) s = .next (withQueue s (modLnk (wr (lnkLeave (wr s (f_LNK_CTL_DARK n) 1) n 4)
        (f_LNK_CTL_RETRAIN n) 0) n (fun l => { l with retryAt := 0 }))) ∧
      (let t := wr s (f_LNK_CTL_DARK n) 0
      exec (.linkDark n false) s = .next (if lnkState t n = 4 then wr t (f_LNK_STAT_STATE n) 0 else t))) ∧
    (lnkState s n = 2 → lnkNative s n = false →
      let t := lnkLeave s n 0
      exec (.pcsLockLoss n) s = .next (withQueue s (if rd t (f_LNK_CTL_AUTO n) = 1 then startTraining t n else t))) ∧
    (∀ (j : Fin 8) (pos : BitVec 64) (l : List Byte), lnkNative s n = true → (lnkState s n = 1 ∨ lnkState s n = 2 ∨ lnkState s n = 3) →
      let r := laneStep j (sget Lane.search (lnkOf s n).lanes j) pos.toNat l
      let t := modLnk s n (fun k => { k with lanes := sput Lane.search k.lanes j r.1 })
      let u := wr t (f_LNK_STAT_LOCK n) (b2n (allLocked (lnkOf t n)))
      exec (.alignmentMarker n j pos l) s = .next (withQueue s (if r.2 = true ∧ lnkState s n ≠ 1 then linkLost u n 2 else u)))

/-- Native frames (R283–R285, R287, R288, R292): a DATA frame in order is taken, its credit returned, and its payload goes on in VCs 1
and 2; one again asks for an ACK and is counted, one ahead asks once for a replay; an invalid frame is counted; CTRL and IDLE have no
other effect; the timers replay, keep alive and lose the link. SLEEP frames end, answer or start the sleep of a link whose partner is
no SG1204, and waiting DATA ends it; a TIME frame leaves its times, and an exchange whose answer has come gives the offset and the
delay, and 10 µs after the last began the next begins. -/
def Obligations.LinkFrames : Prop :=
  ∀ (s : State) (n : Fin 36), lnkNative s n = true →
    (∀ (fr : List Byte) (h : FrameHdr), parseFrame fr = some h → (lnkState s n = 2 ∨ lnkState s n = 3) →
      let t := ackIn s n h
      (∀ slot : DWord, h.ty = 1 → lnkState t n = 2 →
        let u := modLnk t n (fun l => { l with dataAt := t.clk, sleepReq := false })
        let d := (h.seq + 4096 - (lnkOf u n).exp) % 4096
        (d = 0 →
          let v := modLnk u n (fun l => { l with
            exp := (l.exp + 1) % 4096, nakOut := false
            back := sput 0 l.back h.vc (sget 0 l.back h.vc + slotsFor h.data.length) })
          exec (.dataFrame ⟨n, slot⟩ fr) s = .next (withQueue s
            (if h.vc = 1 ∨ h.vc = 2 then dataIn v n slot.toNat h.data else v))) ∧
        (2048 ≤ d → exec (.dataFrame ⟨n, slot⟩ fr) s = .next (withQueue s
          (modLnk (incF u (f_LNK_DUP_V n) 1) n (fun l => { l with ackDue := true })))) ∧
        (0 < d → d < 2048 → exec (.dataFrame ⟨n, slot⟩ fr) s = .next (withQueue s
          (if (lnkOf u n).nakOut = true then u else modLnk u n (fun l => { l with nakOut := true, nakDue := true }))))) ∧
      (h.ty = 2 → exec (.ctrlFrame n fr) s = .next (withQueue s t)) ∧
      (h.ty = 5 → peerSwitch t n = false →
        (lnkState t n = 3 → le h.data 0 1 = 3 → exec (.sleepFrame n fr) s = .next (withQueue s (wakeLink t n))) ∧
        (lnkState t n = 2 → le h.data 0 1 = 2 → (lnkOf t n).sleepReq = true →
          exec (.sleepFrame n fr) s = .next (withQueue s (enterSleep t n))) ∧
        (lnkState t n = 2 → le h.data 0 1 = 1 → dataWaits t n = false → (lnkOf t n).replay = [] →
          exec (.sleepFrame n fr) s = .next (withQueue s (enterSleep (sendFrame t n 5 0 0 [2]) n))))) ∧
    (∀ (slot : DWord) (fr : List Byte), parseFrame fr = none → (lnkState s n = 2 ∨ lnkState s n = 3) →
      exec (.dataFrame ⟨n, slot⟩ fr) s = .next (incF s (f_LNK_CRC_V n) 1) ∧
      exec (.ctrlFrame n fr) s = .next (incF s (f_LNK_CRC_V n) 1) ∧ exec (.sleepFrame n fr) s = .next (incF s (f_LNK_CRC_V n) 1)) ∧
    (∀ b : List Byte, lef b 0 1 7 4 = 0 → exec (.idleSlot n b) s =
      .next (if (b.take 64).any (fun x => x != 0) then incF s (f_LNK_CRC_V n) 1 else s)) ∧
    (lnkState s n = 2 →
      ((lnkOf s n).replay ≠ [] → (lnkOf s n).ackAt + (lnkOf s n).rtt + 2000 < s.clk →
        exec (.replayTimeout n) s = .next (withQueue s (replay s n))) ∧
      ((lnkOf s n).txAt + 1000 ≤ s.clk → exec (.keepaliveSend n) s = .next (withQueue s (sendFrame s n 2 0 0 []))) ∧
      ((lnkOf s n).rxAt + 8000 < s.clk → exec (.keepaliveTimeout n) s = .next (withQueue s (linkLost s n 0))) ∧
      (rd s (f_LNK_CTL_SLEEP_IDLE n) ≠ 0 → peerSwitch s n = false → (lnkOf s n).replay = [] →
        (lnkOf s n).dataAt + 1000 * rd s (f_LNK_CTL_SLEEP_IDLE n) ≤ s.clk → (lnkOf s n).sleepReq = false → dataWaits s n = false →
        exec (.sleepEntry n) s = .next (withQueue s (modLnk (sendFrame s n 5 0 0 [1]) n (fun l => { l with sleepReq := true })))) ∧
      (∀ (nak : Bool) (ack : BitVec 12) (cr : List Byte) (t2 : Option DWord) (t3 : DWord),
        let u := ackIn s n ⟨4, 0, 0, nak, ack.toNat, cr.map BitVec.toNat, []⟩
        lnkState u n = 2 → exec (.timeFrame ⟨n, nak, ack, cr⟩ t2 t3) s = .next (withQueue s (modLnk u n (fun l => { l with
          rxTime := some (now u)
          t234 := match t2 with
            | some t => some (t.toNat, t3.toNat, now u)
            | none => l.t234 })))) ∧
      (rd s (f_LNK_CTL_TS_EN n) = 1 →
        (∀ t1 t2 t3 t4 o u, (lnkOf s n).t1 = some t1 → (lnkOf s n).t234 = some (t2, t3, t4) → measure s n t1 t2 t3 t4 = (o, u) →
          let v := exchange (modLnk u n (fun l => { l with
            t1 := none, t234 := none, delay := (((t4 : Int) - t1) - ((t3 : Int) - t2)) / 2 })) n o
          exec (.timeExchange n) s = .next (withQueue s (if (lnkOf v n).timeAt + 10000 ≤ v.clk then timeFrame v n else v))) ∧
        ((lnkOf s n).t234 = none → exec (.timeExchange n) s = .next (withQueue s
          (if (lnkOf s n).timeAt + 10000 ≤ s.clk then timeFrame s n else s))))) ∧
    (lnkState s n = 3 → dataWaits s n = true → exec (.sleepExit n) s = .next (withQueue s (wakeLink (sendFrame s n 5 0 0 [3]) n)))

/-- The time base (R290–R293): in roles FREE and PTP a write of TMB_SET becomes the target and TMB_RATE is clamped to ±200 ppm, in
the others both set WRITE_IGNORED; a read of the low word captures the rest; a change of ROLE whose source fits starts anew; the
count passing a second starts PPS_OUT; in role PPS an edge of a known time, TMB_TOD_NEXT or a second after the last, steers the servo;
a lost source of role PPS or PTP enters HOLDOVER with an event, held once. -/
def Obligations.TimeBase : Prop :=
  ∀ (s : State),
    (barOpen s = true →
      ((rd s f_TMB_CTL_ROLE = 0 ∨ rd s f_TMB_CTL_ROLE = 3) → ∀ (v : DWord) (w : Word),
        exec (.tmbSet v) s = .next { setReg s f_TMB_SET_V.key v with tb := { s.tb with set := some v.toNat } } ∧
        exec (.tmbRate w) s = .next (wr s f_TMB_RATE_PPB ((max (-200000) (min 200000 w.toInt) % 2 ^ 32).toNat))) ∧
      ((rd s f_TMB_CTL_ROLE = 1 ∨ rd s f_TMB_CTL_ROLE = 2) → ∀ (v : DWord) (w : Word),
        exec (.tmbSet v) s = .next (writeIgnored s) ∧ exec (.tmbRate w) s = .next (writeIgnored s)) ∧
      exec .tmbTimeCapture s = .next (emit (wr (wr s f_TMB_TIME_HI_V (s.tb.ns.toNat / 2 ^ 32)) f_TMB_TIME_FRAC_V s.tb.frac.toNat)
        (.rdata 4 (natLE 4 s.tb.ns.toNat))) ∧
      (∀ w : Word, let role := bits w.toNat 31 30
        let t := wr (wr s f_TMB_CTL_PPS_W (bits w.toNat 15 8)) f_TMB_CTL_SYNC_TOL (bits w.toNat 7 0)
        bits w.toNat 29 24 ≤ 35 → sourceFits t role (bits w.toNat 29 24) (bits w.toNat 23 21) = true → role ≠ rd t f_TMB_CTL_ROLE →
        let u := timeBack (wr (wr (wr (wr t f_TMB_CTL_ROLE role) f_TMB_CTL_SRC_LINK (bits w.toNat 29 24)) f_TMB_CTL_SRC_MEMBER
          (bits w.toNat 23 21)) f_TMB_STAT_SYNCED 0)
        exec (.tmbCtlWrite w) s = .next (withQueue s { u with tb := { u.tb with
          good := 0
          edge := 0 } }))) ∧
    (s.tb.sec < s.tb.ns.toNat / 1000000000 → exec .ppsOutPulse s = .next { s with tb := { s.tb with
      sec := s.tb.ns.toNat / 1000000000
      ppsOut := decide (0 < rd s f_TMB_CTL_PPS_W)
      ppsFall := s.clk + 1000000 * rd s f_TMB_CTL_PPS_W } }) ∧
    (rd s f_TMB_CTL_ROLE = 1 → s.tb.tod = false → s.tb.edge ≠ 0 →
      exec .ppsInEdge s = .next (withQueue s (servo { s with tb := { s.tb with edge := s.tb.edge + 1000000000 } }
        (((s.tb.edge - 1 + 1000000000 : Nat) : Int) - (s.tb.ns.toNat : Int))))) ∧
    (rd s f_TMB_CTL_ROLE = 1 → s.tb.tod = true →
      exec .ppsInEdge s = .next (withQueue s (servo { s with tb := { s.tb with
        edge := (regv s f_TMB_TOD_NEXT_V.key).toNat + 1
        tod := false } } (((regv s f_TMB_TOD_NEXT_V.key).toNat : Int) - (s.tb.ns.toNat : Int))))) ∧
    ((rd s f_TMB_CTL_ROLE = 1 ∨ rd s f_TMB_CTL_ROLE = 3) →
      (lossHeld s = false → exec .timeSourceLost s = .next (withQueue s (condEvent (holdover s) 0x19A 0x0C 0))) ∧
      (lossHeld s = true → exec .timeSourceLost s = .next (holdover s)))

/-- Reception (R289, R296–R307): a frame of legal length on an ACTIVE Ethernet port is counted and dropped where its FCS is bad, and
else joins its link's buffer or is counted as dropped for want of room; the oldest unparsed one is parsed; a POST offers its
buffer; the parsed frame at the head is dropped, handed to the lateral transport, or delivered, a metered one once no earlier
frame of its meter waits and unless its colour drops it; PFC pauses the priorities that it enables. The rule tables (R302, R303):
a WRITE of a well-formed record stores the staged words and ends with SUCCESS, one that is not ends with INVALID_FIELD; DELETE
clears VALID; READ stages what is held, after an error of the entry has been corrected and counted or has made it invalid (R304);
table 3 is a reserved code and is refused. -/
def Obligations.Reception : Prop :=
  ((∀ (s : State) (p : Fin 288) (fr : List Byte), lnkState s (p / 8) = 2 → lnkNative s (p / 8) = false → portAssigned s p = true →
    64 ≤ fr.length → fr.length ≤ 9216 →
    let data := fr.take (fr.length - 4)
    let good : Prop := fr.drop (fr.length - 4) = natLE 4 (crc32 data)
    let used := (rxBuf s (p / 8)).foldl (fun a r => a + r.data.length) 0
    let r : RxFrame := ⟨p, now s, s.par.seq, pcpOf data, data, none, 0⟩
    (¬ good → exec (.ethFrameArrival p fr) s = .next { s with par := { s.par with badFcs := smod 0 s.par.badFcs p (fun k => k + 1) } }) ∧
    (good → used + data.length ≤ 1048576 → exec (.ethFrameArrival p fr) s = .next (withQueue s (pfcCheck
      (setRxBuf { s with par := { s.par with seq := s.par.seq + 1 } } (p / 8) (rxBuf s (p / 8) ++ [r])) (p / 8) r.prio))) ∧
    (good → 1048576 < used + data.length → exec (.ethFrameArrival p fr) s = .next (incF s (f_PAR_RXDROP_V (p / 8)) 1))) ∧
  (∀ (s : State) (p : Fin 288) (en : BitVec 8) (times : List (BitVec 16)), pfcOn s p = true → lnkState s (p / 8) = 2 →
    let rate := 1600 / max 1 (members (lnkMode s (p / 8)))
    exec (.pfcFrame p en times) s = .next (withQueue s ((List.range 8).foldl (fun s k =>
      let q := ((times.getD k 0).toNat * 512 + rate - 1) / rate
      if bit en.toNat k then { s with sch := { s.sch with pause := sput 0 s.sch.pause (8 * p.val + k) (if q = 0 then 0 else now s + q) } }
      else s) s))) ∧
  (∀ (s s' : State) (n : Fin 36) (err : TabErr) (i : Nat) (r : RxFrame) (res : Parsed), (rxBuf s n).findIdx? (fun r => r.res.isNone) = some i →
    (rxBuf s n)[i]? = some r → parseOne s r err = (res, s') →
    exec (.frameParse n err) s = .next (withQueue s (setRxBuf s' n ((rxBuf s n).set i { r with res := some res })))) ∧
  (∀ (s : State) (f : Fin 262144) (i : Fin 65536) (e : Entry), entryOf s f i = some e → e.ph = .fetched → e.op = 1 →
    (furClass s f = clRx ∨ furClass s f = clExc) → exec (.post f i) s = .next (modEntry s f i (fun e => { e with ph := .running }))) ∧
  (∀ (s : State) (n : Fin 36) (r : RxFrame) (q : List RxFrame), rxBuf s n = r :: q →
    (∀ dei dscp, r.res = some (.drop none dei dscp) → exec (.frameRelease n) s = .next (withQueue s (dropHead s n r))) ∧
    (∀ i dei dscp, r.res = some (.drop (some i) dei dscp) →
      (meterWaits s i r = true → exec (.frameRelease n) s = .next s) ∧
      (meterWaits s i r = false →
        exec (.frameRelease n) s = .next (withQueue s (dropHead (meterFrame s i r dei dscp).2.2 n r)))) ∧
    (∀ l, r.res = some (.lateral l) → exec (.frameRelease n) s = .next (withQueue s (latArrive (dropHead s n r) l))) ∧
    (∀ f exc reason dei dscp, r.res = some (.deliver f exc reason none dei dscp) →
      exec (.frameRelease n) s = .next (withQueue s (deliver s n r f exc reason r.colour))) ∧
    (∀ f exc reason i dei dscp, r.res = some (.deliver f exc reason (some i) dei dscp) →
      let u := meterFrame s i r dei dscp
      let r' : RxFrame := { r with res := some (.deliver f exc reason none dei dscp), colour := u.1 }
      (meterWaits s i r = true → exec (.frameRelease n) s = .next s) ∧
      (meterWaits s i r = false → u.2.1 = true → exec (.frameRelease n) s = .next (withQueue s (dropHead u.2.2 n r))) ∧
      (meterWaits s i r = false → u.2.1 = false → exec (.frameRelease n) s = .next (withQueue s (deliver
        (setRxBuf u.2.2 n (r' :: (rxBuf u.2.2 n).drop 1)) n r' f exc reason u.1)))))) ∧
  (∀ (s : State) (i : BitVec 14) (err : Fin 3), barOpen s = true →
    let seen (table j : Nat) : State := if err = 0 then s else tableErr s table j (err == 2)
    let w := stg s 12
    let rule := sget Tern.none s.par.tern i.toNat
    let old := sget Meter.none s.par.meters i.toNat
    let ends (c : Instr) (t : State) : Prop := exec c s = .next (wr t f_PAR_RULE_CMD_RESULT 0)
    let tern (r : Tern) : State := { s with par := { s.par with tern := sput Tern.none s.par.tern i.toNat r } }
    let meter (m : Meter) : State := { s with par := { s.par with meters := sput Meter.none s.par.meters i.toNat m } }
    (ruleOk w = true → ends (.ruleWrite 0 i) (tern { rule with valid := true, key := stgWide s 0, mask := stgWide s 6, res := w })) ∧
    (ruleOk w = false → exec (.ruleWrite 0 i) s = .next (wr s f_PAR_RULE_CMD_RESULT 1) ∧
      exec (.ruleWrite 1 i) s = .next (wr s f_PAR_RULE_CMD_RESULT 1)) ∧
    (ruleOk w = true → ∀ j, exactFind s (stgWide s 0) = some j →
      ends (.ruleWrite 1 i) { s with par := { s.par with exact_ := sput none s.par.exact_ j (some (stgWide s 0, w)) } }) ∧
    (meterOk w = true → ends (.ruleWrite 2 i) (meter ⟨true, w, stg s 0 % 2 ^ 24, stg s 1 % 2 ^ 24, 8000 * (stg s 0 % 2 ^ 24),
      8000 * (stg s 1 % 2 ^ 24), now s, old.cnt⟩)) ∧
    ends (.ruleDelete 0 i) (tern { rule with valid := false }) ∧
    ends (.ruleDelete 2 i) (meter { old with valid := false }) ∧
    (∀ j, exactFind s (stgWide s 0) = some j →
      ends (.ruleDelete 1 i) { s with par := { s.par with exact_ := sput none s.par.exact_ j none } } ∧
      (∀ k, sget none (seen 1 j).par.exact_ j = some k →
        exec (.ruleRead 1 i err) s = .next (withQueue s (wr (setStg (seen 1 j) 12 k.2) f_PAR_RULE_CMD_RESULT 0))) ∧
      (sget none (seen 1 j).par.exact_ j = none →
        exec (.ruleRead 1 i err) s = .next (withQueue s (wr (seen 1 j) f_PAR_RULE_CMD_RESULT 1)))) ∧
    (exactFind s (stgWide s 0) = none → exec (.ruleDelete 1 i) s = .next (wr s f_PAR_RULE_CMD_RESULT 1) ∧
      exec (.ruleRead 1 i err) s = .next (wr s f_PAR_RULE_CMD_RESULT 1)) ∧
    (let t := seen 0 i.toNat
      let rule := sget Tern.none t.par.tern i.toNat
      exec (.ruleRead 0 i err) s = .next (withQueue s (wr (setStg (setStg (setStgWide (setStgWide t 0 rule.key) 6 rule.mask) 12 rule.res) 13
        rule.hits) f_PAR_RULE_CMD_RESULT 0))) ∧
    (let t := seen 2 i.toNat
      let m := sget Meter.none t.par.meters i.toNat
      let t := setStg (setStg (setStg t 12 m.rec_) 0 m.cbs) 1 m.ebs
      exec (.ruleRead 2 i err) s = .next (withQueue s (wr ((List.range 3).foldl (fun s k => setStg s (2 + k) (m.cnt.getD k 0)) t)
        f_PAR_RULE_CMD_RESULT 0))) ∧
    exec (.ruleWrite 3 i) s = .next (writeIgnored s) ∧ exec (.ruleDelete 3 i) s = .next (writeIgnored s) ∧
    exec (.ruleRead 3 i err) s = .next (writeIgnored s))

/-- The scheduler (R306, R309–R314): SEND queues the frame of a fetched entry in its turn; at a frame boundary a port that is neither
ACTIVE nor asleep, or that MODE has unassigned, aborts what its queues hold, and an ACTIVE one sends from the first class of strict
priority that is eligible, or from the class that the weighted rounds find; SERVICE is written but for value 3 and for 0 in
TRAINING; gates follow the list, a change whose instant has come takes ADMIN, and histograms sample and clear, a sample of the
same ns kept. -/
def Obligations.Scheduler : Prop :=
  ∀ (s : State) (p : Fin 288),
    (∀ (f : Fin 262144) (i : Fin 65536) (e : Entry) (d : List Byte) (s' : State), entryOf s f i = some e → e.ph = .fetched →
      furClass s f = clTx → e.op = 1 →
      s.infl.any (fun x => x.f == e.f && decide (x.seq < e.seq) && (decide (x.ph = .fetched) || decide (x.ph = .paging))) = false →
      portAssigned s (txPort e.b) = true → portNative s (txPort e.b) = false →
      runMM s (readSp (ioOf e) (furOwner s f) (le e.b 48 8) (txLen e.b)) = (.ok d, s') →
      exec (.send f i) s = .next (withQueue s (enqueue (modEntry s' f i (fun e => { e with ph := .running })) (txPort e.b)
        (((furOf s' f).map Furrow.sched).getD 0) ⟨d, 0, some (f.val, i.val), now s', 0⟩))) ∧
    (sget 0 s.sch.busy p ≤ 1000 * s.clk →
      (lnkState s (p / 8) ≠ 3 → lnkState s (p / 8) ≠ 2 ∨ portAssigned s p = false →
        exec (.frameSelect p) s = .next (withQueue s (portDrop s p))) ∧
      (lnkState s (p / 8) = 2 → portAssigned s p = true →
        let t := takeService (accrue (staleDrop (gateSync s p) p) p) p
        let ready (c : Nat) : Bool := (eligible t p c).isSome
        let grp := (List.range 12).map (fun c => c + 4)
        (∀ c it, (List.range 4).find? ready = some c → eligible t p c = some it →
          exec (.frameSelect p) s = .next (withQueue s (sendOut t p c it))) ∧
        ((List.range 4).any ready = false → grp.any ready = true →
          let r := dwrr t p (grp.any (fun c => ready c && quantum t p c != 0)) 120000 (sget 4 t.sch.ptr p) t.sch.deficit
          ∀ c it, r.1 = some c → eligible { t with sch := { t.sch with deficit := r.2 } } p c = some it →
            exec (.frameSelect p) s = .next (withQueue s (sendOut { t with sch := { t.sch with
              deficit := r.2
              ptr := sput 4 t.sch.ptr p c } } p c it))))) ∧
    (barOpen s = true → ∀ v : BitVec 2, (v.toNat = 1 ∨ v.toNat = 2 ∨ v.toNat = 0 ∧ lnkState s (p / 8) ≠ 1 →
        exec (.serviceWrite p v) s = .next (wr s (f_SCH_SVC_SERVICE p) v.toNat)) ∧
      (v.toNat = 3 ∨ v.toNat = 0 ∧ lnkState s (p / 8) = 1 → exec (.serviceWrite p v) s = .next (writeIgnored s))) ∧
    (let t := accrue s p
      ∀ g, operOf t p = some g →
        let u : State := { t with sch := { t.sch with gates := sput 0xFFFF t.sch.gates p (gatesAt g (now t)).1 } }
        exec (.gateEntryBoundary p) s = .next (withQueue s
          (if (lnkOf u (p / 8)).hold = 3 then modLnk u (p / 8) (fun l => { l with hold := 0 }) else u))) ∧
    (nin s.sch.armed p = true → changeInstant s p ≤ now s →
      let t := accrue s p
      exec (.gateListChange p) s = .next (withQueue s { t with sch := { t.sch with
        armed := ndel t.sch.armed p
        oper := sput none t.sch.oper p (if (adminOf t p).ents = [] then none else some (adminOf t p))
        gates := sput 0xFFFF t.sch.gates p (if (adminOf t p).ents = [] then 0xFFFF else (gatesAt (adminOf t p) (now t)).1) } })) ∧
    (rd s (f_SCH_SAMPLE_V p) ≠ 0 → sget 0 s.sch.sampled p < now s / (1000 * rd s (f_SCH_SAMPLE_V p)) →
      let t := (List.range 16).foldl (fun s c => histSample s p c) s
      exec (.queueHistogramSample p) s = .next (withQueue s (histShow { t with sch := { t.sch with
        sampled := sput 0 t.sch.sampled p (now s / (1000 * rd s (f_SCH_SAMPLE_V p))) } }))) ∧
    (barOpen s = true → ∀ (q : BitVec 13) (sh : Bool),
      let t := wr (wr s f_SCH_HSEL_QUEUE q.toNat) f_SCH_HSEL_SHADOW (b2n sh)
      let t : State := { t with sch := { t.sch with hist := sclear t.sch.hist (34 * q.toNat) 34 } }
      exec (.histogramClear q sh) s = .next (withQueue s (histShow
        (if sampledNow t (q.toNat / 16) then histSample t (q.toNat / 16) (q.toNat % 16) else t))))

/-- The requester of the lateral transport (R321–R325, R332): a WRITE, READ or ATOMIC whose pages translate starts its message; the
first transmission, once no read of its data through a port is awaited, fixes T0 and sends every packet, an interval that passes
retransmits one, a message whose T0 + 1.5 ms has passed ends; in time, an ACK of STATUS 0 or 3, a READ_RSP and an ATOMIC_RSP mark
packets and end a message that is whole or denied. -/
def Obligations.LateralRequester : Prop :=
  (∀ (s s' : State) (f : Fin 262144) (i : Fin 65536) (e : Entry),
    let o := furOwner s f
    let run : Ans := .next (withQueue s (modEntry s' e.f e.i (fun e => { e with ph := .running })))
    let pages (n : Nat) := pagePieces (n / 4096 + 2) (lAddr e.b) n
    (EntryReady s f i clLateral 1 e → runMM s ((pages (lLen e.b)).forM (fun p => do
        let a ← ownerAddr ioWalker o p.1 false
        let s ← get
        if !rangeOk s o a p.2 then throw .denied)) = (.ok (), s') → e.f = f → exec (.lateralWrite f i) s = run) ∧
    (EntryReady s f i clLateral 2 e → (∃ l, runMM s (writeTargets (ioOf e) o (pages (lLen e.b))) = (.ok l, s')) → e.f = f →
      exec (.lateralRead f i) s = run) ∧
    (EntryReady s f i clLateral 3 e → (∃ l, runMM s (writeTargets (ioOf e) o (pages 8)) = (.ok l, s')) → e.f = f →
      (lAop e.b = 0 → exec (.atomicFadd f i) s = run) ∧ (lAop e.b = 1 → exec (.atomicSwap f i) s = run) ∧
      (lAop e.b = 2 → exec (.atomicCswap f i) s = run))) ∧
  (∀ (s t : State) (f : Fin 262144) (i : Fin 65536) (e : Entry) (m : Msg), msgOf s f i = some (e, m) →
    (e.ph = .running → m.t0 = 0 → (txList e).findSome? (fun k => awaited s (reqPacket e m k false)) = none → sendPkts e false (txList e)
        (modMsg { s with lat := { s.lat with msgid := (s.lat.msgid + 1) % 2 ^ 32 } } f i
          (fun m => { m with t0 := 1 + now s, id := s.lat.msgid })) = some t →
      exec (.firstTransmission f i) s = .next (withQueue s t)) ∧
    (m.t0 ≠ 0 → msgEnd m < now s → exec (.messageDeadline f i) s = .next (withQueue s (latEnd (undefRest s e m) e m
      (if (m.pkts.filter (fun x => !x.done)).all (fun x => x.ans == 1) then 0x08 else 0x09)))) ∧
    (∀ (k : Fin 128) (x : TxPkt),
      let k' := if e.op = 1 then k.val else 0
      (if e.op = 2 then (m.pkts.filter (fun x => !x.done)).head? else m.pkts[k']?) = some x → m.t0 ≠ 0 → x.done = false → x.due ≤ s.clk →
      now s < msgEnd m → awaited s (reqPacket e m k' true) = none → sendPkt s e k' true = some t → exec (.packetRetransmit f i k) s = .next (withQueue s t))) ∧
  (∀ (s : State) (j : Nat) (l : List Byte) (e : Entry) (m : Msg), s.lat.rx[j]? = some l →
    let u := { s with lat := { s.lat with rx := s.lat.rx.eraseIdx j } }
    let mark := modMsg u e.f e.i (fun m => { m with
      pkts := m.pkts.mapIdx (fun j x => if bit (lpPlaced l) j then { x with done := true } else x) })
    msgById u (lpId l) = some (e, m) → now s ≤ msgEnd m →
    (s.lat.rx.findIdx? (fun l => lpType l == 6) = some j → e.op = 1 →
      (lpStatus l = 0 → exec .ackPacket s = .next (withQueue s (latCheck mark e.f e.i))) ∧
      (lpStatus l = 3 → exec .ackPacket s = .next (withQueue s (latEnd mark e m 0x07)))) ∧
    (s.lat.rx.findIdx? (fun l => lpType l == 3) = some j → e.op = 2 → lpPidx l < m.pkts.length →
      (m.pkts[lpPidx l]?).any TxPkt.done = false → lpDlen l = pktLen e.b (lpPidx l) →
      exec .readRspPacket s = .next (withQueue s (latRespond u e m (lpPidx l) (lAddr e.b + 2048 * lpPidx l) (lpData l)))) ∧
    (s.lat.rx.findIdx? (fun l => lpType l == 5) = some j → e.op = 3 →
      exec .atomicRspPacket s = .next (withQueue s (latRespond u e m 0 (lAddr e.b) ((l.drop 48).take 8)))))

/-- The responder (R322, R326–R331): windows are registered and removed; a request passes the checks in their order and then writes,
reads or operates on memory, a closing write being held; one sent too long ago is discarded and counted; placed packets are
acknowledged together, a closing write is held until its group is whole or its time has passed, and filter and group entries
expire. -/
def Obligations.LateralResponder : Prop :=
  (∀ (s : State) (f : Fin 262144) (i : Fin 65536) (e : Entry),
    let o := furOwner s f
    (EntryReady s f i clLateral 8 e → winOf s o (lKey e.b) = none → o < 512 → winCount s o < (quotaOf s o).windows → s.lat.wins.length < 1048576 →
      exec (.winReg f i) s = .next (endEntry { s with lat := { s.lat with
        wins := s.lat.wins ++ [⟨o, lKey e.b, lOff e.b, lAddr e.b, lPerm e.b⟩] } } f i 0 0)) ∧
    (EntryReady s f i clLateral 8 e → (winOf s o (lKey e.b)).isSome = true → exec (.winReg f i) s = .next (endEntry s f i 1 0)) ∧
    (EntryReady s f i clLateral 9 e → s.lat.grps.any (fun g => g.dst == o && match g.held with
        | some l => lpKey l == lKey e.b
        | none => false) = false → exec (.winDereg f i) s = .next (endEntry s f i 0 0))) ∧
  (∀ (s : State) (j : Nat) (l : List Byte), s.lat.rx[j]? = some l →
    let u := { s with lat := { s.lat with rx := s.lat.rx.eraseIdx j } }
    (s.lat.rx.findIdx? (fun l => lpType l == 1) = some j → lpClose l = false → exec .writePacket s = .next (withQueue s
      (latSteps u l 1 (fun ta s => latAccess s l (writeSp (ioFor .remote) (lpDstTrn l) ta (lpData l)) (fun _ s => placedNow s l))))) ∧
    (s.lat.rx.findIdx? (fun l => lpType l == 1) = some j → lpClose l = true → (grpOf (latPurge u) l).bind Grp.held = none →
      exec .writePacket s = .next (withQueue s (latSteps u l 1 (fun ta s => latAccess s l
        (writeTargets (ioFor .remote) (lpDstTrn l) (pagePieces 2 ta (lpDlen l))) (fun _ s => modGrp s l (fun g => { g with
          held := some l
          heldTa := ta
          at_ := now s })))))) ∧
    (s.lat.rx.findIdx? (fun l => lpType l == 2) = some j → exec .readReqPacket s = .next (withQueue s
      (latSteps u l 0 (fun ta s => latAccess s l ((pagePieces 66 ta (reqSpan l)).forM (fun p => do
        let a ← ownerAddr ioWalker (lpDstTrn l) p.1 false
        let s ← get
        if !rangeOk s (lpDstTrn l) a p.2 then throw .denied))
        (fun _ _ =>
          let ks := (List.range (lpNpkt l)).filter (fun k => bit (lpOpnd l) k)
          match ks.findSome? (fun k => awaited s (rspData l ta k)) with
          | some q => askPort { s with lat := { s.lat with rx := l :: s.lat.rx } } q
          | none => dropAsks (readRsps l ta ks s) (fun w => decide (w = .remote))))))) ∧
    (s.lat.rx.findIdx? (fun l => lpType l == 4) = some j → exec .atomicPacket s = .next (withQueue s
      (latSteps u l 2 (fun ta s => latAccess s l (do
        let _ ← writeTargets (ioFor .remote) (lpDstTrn l) [(ta, 8)]
        let d ← readSp (ioFor .remote) (lpDstTrn l) ta 8
        writeSp (ioFor .remote) (lpDstTrn l) ta (natLE 8 (atomicNew (lpAop l) (leNat d) (le l 48 8) (le l 56 8)))
        return leNat d) (fun old s => answer (modFilt s (lpSrc l) (lpId l) (fun x => { x with placed := 1, old := some old }))
          l 5 0 0 0 (lpOff l) (lpT0 l) old []))))) ∧
    (s.lat.rx.findIdx? (fun l => lpType l == 1) = some j → lpClose l = false → lpT0 l + 1900000 < now s →
      exec .writePacket s = .next (withQueue s (incF (latPurge u) f_LAT_AGED_V 1)))) ∧
  (∀ (s : State) (node : BitVec 24) (id : Word) (x : Filt), filtOf s node.toNat id.toNat = some x →
    (x.ack = true → exec (.ackSend node id) s = .next (withQueue s
      (sendAck (modFilt s x.node x.id (fun x => { x with ack := false })) x.hdr x.placed))) ∧
    (x.at_ + 2000000 < now s → exec (.filterEntryExpiry node id) s = .next (withQueue s (latUse { s with lat := { s.lat with
      filt := s.lat.filt.filter (fun y => !(y.node == x.node && y.id == x.id)) } })))) ∧
  (∀ (s : State) (node : BitVec 24) (src dst : Fin 512) (g : BitVec 16) (x : Grp), grpBy s node.toNat src dst g.toNat = some x →
    (x.at_ + 100000000 < now s → exec (.groupEntryExpiry node src dst g) s = .next (withQueue s (dropGrp s x))) ∧
    (∀ l t, x.held = some l → now s ≤ lpT0 l + 1900000 → lpGcount l ≤ x.placed →
      runMM s (writeSp (ioFor .remote) dst x.heldTa (lpData l)) = (.ok (), t) →
      let u := modFilt (placedNow (dropGrp t x) l) (lpSrc l) (lpId l) (fun x => { x with ack := false })
      exec (.closingWriteRelease node src dst g) s =
        .next (withQueue s (sendAck u l (((filtOf u (lpSrc l) (lpId l)).map Filt.placed).getD 1)))) ∧
    (∀ l, x.held = some l → lpT0 l + 1900000 < now s →
      exec (.closingWriteDiscard node src dst g) s = .next (withQueue s (modGrp s l (fun g => { g with held := none })))))

/-- Storage I/O commands that may start (R339, R340, R343, R351): READ, WRITE, WRITE_ZEROES, TRIM and FLUSH put their NVMe commands, one
for each piece of a slab, in flight where their drives are ready, end at once where they have none, and with DEVICE_FAULT where a
drive is not ready; WRITE and WRITE_ZEROES give their units slabs first, and end with NO_SPACE where there is none and with
READ_ONLY on a read-only namespace, as TRIM does; a range lock that nothing blocks is granted. -/
def Obligations.StorageCommands : Prop :=
  ∀ (s : State) (f : Fin 262144) (i : Fin 65536) (e₀ : Entry) (x : Ns), nsOf s (eNs e₀.b) = some x → e₀.f = f → e₀.i = i →
    let e := stoEntry e₀
    let a := stoState s e₀
    let n := eCount e.b
    let off := 4096 * eSlba e.b
    let ns := eNs e.b
    let units := unitRange off (4096 * n)
    let ends (c : Instr) (u : State) (st res : Nat) : Prop := exec c s = .next (withQueue s (endEntry u f i st res))
    (StoReady s f i 0x01 e₀ → ∀ l u,
      runMM a (writeTargets (ioOf e) (furOwner a f) (pagePieces (4096 * n / 4096 + 2) (eAddr e.b) (4096 * n))) = (.ok l, u) →
      StoGoes (.read f i) s u e (slabPieces x off (4096 * n)) .read (fun _ => []) none 0 (readDone u e x)) ∧
    (StoReady s f i 0x02 e₀ →
      (x.ro = true → ends (.write f i) a 0x0B noResult) ∧
      (x.ro = false → ∀ d u, runMM a (readSp (ioOf e) (furOwner a f) (eAddr e.b) (4096 * n)) = (.ok d, u) →
        (giveSlabs ns units.2 units.1 u = none → exec (.write f i) s = .next (withQueue s (noSpace u f i ns))) ∧
        (∀ v y, giveSlabs ns units.2 units.1 u = some v → nsOf v ns = some y →
          StoGoes (.write f i) s v e (slabPieces y off (4096 * n)) .write (fun o => d.drop (o - off)) none 0 (endEntry v f i 0 n)))) ∧
    (StoReady s f i 0x04 e₀ →
      (x.ro = true → ends (.writeZeroes f i) a 0x0B noResult) ∧
      (x.ro = false →
        (giveSlabs ns units.2 units.1 a = none → exec (.writeZeroes f i) s = .next (withQueue s (noSpace a f i ns))) ∧
        (∀ v y, giveSlabs ns units.2 units.1 a = some v → nsOf v ns = some y →
          StoGoes (.writeZeroes f i) s v e (slabPieces y off (4096 * n)) .zero (fun _ => []) none 0 (endEntry v f i 0 n)))) ∧
    (StoReady s f i 0x05 e₀ →
      (x.ro = true → ends (.trim f i) a 0x0B noResult) ∧
      (x.ro = false → StoGoes (.trim f i) s a e (slabPieces x off (4096 * n)) .dealloc (fun _ => []) none 0 (endEntry a f i 0 n))) ∧
    (StoReady s f i 0x03 e₀ → stoBefore a e = [] →
      StoGoes (.flush f i) s a e ((nsDrives x).map (fun d => (d, 0, 0))) .flush (fun _ => []) none 0 (endEntry a f i 0 0)) ∧
    (∀ l, s.sto.locks.find? (fun l => l.f == f.val && l.i == i.val) = some l → lockBlocked s l = false →
      exec (.rangeLockGrant f i) s = .next (modEntry s f i (fun e => { e with snap := e.snap.set 0 0 })))

/-- Drives (R333, R334, R340, R346–R350): a successful completion in time commits its command to the medium and the last one ends the
entry, a failing one leaves each block old or new and ends the entry with its status; a command whose TMO has passed is aborted
and ends its entry with TIMEOUT, and one that outlasts a further TMO resets its controller; starts, polls, activations and power
state transitions set the fields that the rules name. -/
def Obligations.StorageDrives : Prop :=
  (∀ (s : State) (d : Fin 16) (id : Fin 16384) (c : Nvme), s.sto.cmds.find? (fun c => c.drive == d.val && c.id == id.val) = some c →
    (nvLate s c = false → ∀ st : BitVec 15,
      (nvStatus st.toNat = 0 → ∀ e e', entryOf s c.f c.i = some e → entryOf (nvCommit (nvDrop s c) c e.seq) c.f c.i = some e' →
        exec (.nvmeCompletion d id st) s = .next (withQueue s (stoFinish (nvCommit (nvDrop s c) c e.seq) e'))) ∧
      (nvStatus st.toNat ≠ 0 →
        let u := if nvStatus st.toNat = 0x0C then incF s f_CQS_CNT_MEDIA_V 1 else s
        let v := stoFail (nvFail (nvDrop u c) c) c st.toNat (nvStatus st.toNat)
        ∀ e', entryOf v c.f c.i = some e' → exec (.nvmeCompletion d id st) s = .next (withQueue s (stoFinish v e')))) ∧
    (c.aborted = false → rd s (f_CQS_DRV_ACTIVATING d) = 0 → c.at_ + stoTmo s < s.clk →
      let t := { s with sto := { s.sto with
        cmds := s.sto.cmds.map (fun q => if q.drive == d.val && q.id == id.val then { q with aborted := true } else q) } }
      let u := stoFail (incF (event t (0x182 + d) 1 0x0B 1) f_CQS_CNT_TMO_V 1) c 0 0x10
      ∀ e, entryOf u c.f c.i = some e → e.ph = .running →
        exec (.nvmeTimeout d id) s = .next (withQueue s (endEntry u c.f c.i 0x10 noResult)))) ∧
  (∀ (s : State) (d : Fin 16),
    (rd s (f_CQS_DRV_ACTIVATING d) = 0 →
      s.sto.cmds.any (fun c => c.drive == d.val && c.aborted && decide (c.at_ + 2 * stoTmo s < s.clk)) = true →
      exec (.driveControllerReset d) s = .next (withQueue s ((s.sto.cmds.filter (fun c => c.drive == d.val)).foldl (fun s c =>
        let v := stoFail (nvFail (nvDrop s c) c) c 0 0x0F
        match entryOf v c.f c.i with
        | some e => stoFinish v e
        | none => v) (wr s (f_CQS_DRV_READY d) 0)))) ∧
    (∀ (worn : Bool) (slabs : BitVec 24),
      exec (.driveControllerStart d true worn slabs) s = .next (withQueue s (drvFree (wr (wr (clearPresent
        (wr (wr s (f_CQS_DRV_PRESENT d) 1) (f_CQS_DRV_READY d) 1) (0x182 + d)) (f_CQS_DRV_SLABS d) slabs.toNat) (f_CQS_DRV_WORN d) (b2n worn)) d)) ∧
      exec (.driveControllerStart d false worn slabs) s = .next (withQueue s (condEvent
        (wr (wr s (f_CQS_DRV_PRESENT d) 1) (f_CQS_DRV_READY d) 0) (0x182 + d) 0x0B 0))) ∧
    (∀ w : BitVec 8, rd s (f_CQS_DRV_PRESENT d) = 1 → rd s (f_CQS_DRV_READY d) = 1 →
      exec (.smartPoll d w) s = .next (wr s (f_CQS_DRV_WORN d) (if w.getLsbD 0 = true ∨ w.getLsbD 3 = true then 1 else 0))) ∧
    exec (.driveActivationDone d) s = .next (wr s (f_CQS_DRV_ACTIVATING d) 0) ∧
    (∀ q : Fin 4, barOpen s = true → exec (.storagePowerRequest q) s = .next (withQueue s (psStart (wr s f_CQS_PS_REQ q)))) ∧
    (rd s f_CQS_PS_BUSY = 1 → exec .storagePowerTransition s = .next (withQueue s (psStart (wr (wr s f_CQS_PS_CUR s.sto.psTo) f_CQS_PS_BUSY 0)))))

/-- Storage administration and contexts (R336–R338, R344, R345, R352–R354): logs are read, a stopped queue is restarted or its entries
discarded, namespaces are made and removed, a context record is appended, found or recovered, and a segment whose live records are
few is compacted. -/
def Obligations.StorageContexts : Prop :=
  (∀ (s : State) (f : Fin 262144) (i : Fin 65536) (e₀ : Entry), e₀.f = f → e₀.i = i →
    let e := stoEntry e₀
    let a := stoState s e₀
    let t := furOwner a f
    let ends (c : Instr) (u : State) (st res : Nat) : Prop := exec c s = .next (withQueue s (endEntry u f i st res))
    (StoReady s f i 0x82 e₀ → ∀ u, let l := (sget [] a.sto.logs t).take (eCount e.b / 48)
      runMM a (writeSp (ioOf e) t (eAddr e.b) l.flatten) = (.ok (), u) → ends (.getLog f i) u 0 l.length) ∧
    (StoReady s f i 0x83 e₀ →
      (restartTarget a t (lef e.b 40 2 13 0) = none →
        (lef e.b 42 1 0 0 = 0 → ends (.restartQueueResume f i) a 1 noResult) ∧
        (lef e.b 42 1 0 0 = 1 → ends (.restartQueueDiscard f i) a 1 noResult)) ∧
      (∀ g, restartTarget a t (lef e.b 40 2 13 0) = some g →
        (lef e.b 42 1 0 0 = 0 → ends (.restartQueueResume f i) (flushHeld a g) 0 0) ∧
        (lef e.b 42 1 0 0 = 1 → e.snap = [2] → ∀ x u k, furOf a g = some x →
          (discardEntries g (x.pi - x.head).toNat a = (u, k, .all) → ends (.restartQueueDiscard f i) (flushHeld u g) 0 k) ∧
          (discardEntries g (x.pi - x.head).toNat a = (u, k, .fault) → ends (.restartQueueDiscard f i) u 0 k) ∧
          (discardEntries g (x.pi - x.head).toNat a = (u, k, .waits) → exec (.restartQueueDiscard f i) s =
            .next (withQueue s (modEntry u f i (fun e => { e with snap := [2, x.pi.toNat, k] }))))))) ∧
    (StoReady s f i 0x80 e₀ →
      ((quotaOf a t).namespaces ≤ nsCount a t → ends (.nsCreate f i) a 0x03 noResult) ∧
      (nsCount a t < (quotaOf a t).namespaces → ∀ n, findBelow (fun k => decide (0 < k) && (nsOf a k).isNone) 8193 = some n →
        ends (.nsCreate f i) (setNs a n (some ⟨t, lef e.b 20 1 0 0 == 1, eSlba e.b, false, [], [], 1, 0, true, [], false⟩)) 0 n)) ∧
    (∀ x, nsOf a (eNs e.b) = some x →
      (StoReady s f i 0x81 e₀ → a.infl.any (fun x => furClass a x.f == clStorage && decide (x.seq < e.seq) && namesNs (eNs e.b) x) = false →
        StoGoes (.nsDelete f i) s a e ((nsDrives x).map (fun d => (d, 0, 0))) .dealloc (fun _ => []) none 0
          (endEntry (dropNs a (eNs e.b)) f i 0 0)) ∧
      (StoReady s f i 0x06 e₀ → x.ro = true → ends (.ctxPut f i) a 0x0B noResult) ∧
      (StoReady s f i 0x06 e₀ → x.ro = false → ∀ d u, runMM a (readSp (ioOf e) t (eAddr e.b) (eCount e.b)) = (.ok d, u) →
        (ctxRoom u (eNs e.b) (64 + alignUp d.length 64) = none → exec (.ctxPut f i) s = .next (withQueue s (noSpace u f i (eNs e.b)))) ∧
        (∀ v off y k, ctxRoom u (eNs e.b) (64 + alignUp d.length 64) = some (v, off) → nsOf v (eNs e.b) = some y →
          sget none y.units (off / unitBytes) = some k →
          let q : Nat × State := match (y.index.filter (fun r => r.t == t && r.ctx == eCtx e.b)).getLast? with
            | some r => (r.pfmt, v)
            | none => freshBelow v 0x14
          let page := lef e.b 24 8 47 0
          let l := ctxRecord 1 q.1 t (eCtx e.b) page 64 y.seq d
          let w := modNs q.2 (eNs e.b) (fun x => { x with seq := x.seq + 1, head := off + l.length })
          drvReady w (k / 2 ^ 24) = true → drvsFree w [k / 2 ^ 24] = true →
          StoGoes (.ctxPut f i) s w e [(k / 2 ^ 24, off, l.length)] .write (fun _ => l)
            (some ⟨t, eCtx e.b, page, y.seq, off, d.length, false, q.1⟩) (y.seq % 2 ^ 32) w)) ∧
      (StoReady s f i 0x07 e₀ →
        (ctxFind x t (eCtx e.b) (lef e.b 24 8 47 0) = none → ends (.ctxGet f i) a 0x01 noResult) ∧
        (∀ r, ctxFind x t (eCtx e.b) (lef e.b 24 8 47 0) = some r →
          (r.tomb = true ∨ eCount e.b < r.len → ends (.ctxGet f i) a 0x01 noResult) ∧
          (r.tomb = false → r.len ≤ eCount e.b → ∀ l u,
            runMM a (writeTargets (ioOf e) t (pagePieces (r.len / 4096 + 2) (eAddr e.b) r.len)) = (.ok l, u) →
            StoGoes (.ctxGet f i) s u e (slabPieces x r.off (64 + r.len)) .read (fun _ => []) none r.seq (getDone u e x r.seq)))) ∧
      (StoReady s f i 0x84 e₀ → ∀ l u, let n := min (eCount e.b) 16
        runMM a (writeTargets (ioOf e) t (pagePieces (n / 4096 + 2) (eAddr e.b) n)) = (.ok l, u) →
        StoGoes (.recover f i) s u e ((nsDrives x).map (fun d => (d, 0, 0))) .read (fun _ => []) none 0 (recoverDone u e x)))) ∧
  (∀ (s v : State) (n : Fin 8193) (u : Fin 67108864) (x : Ns), nsOf s n = some x → x.ctx = true → x.indexed = true → x.ro = false → x.gone = false →
    (sget none x.units u).isSome = true → x.head / unitBytes ≠ u.val →
    4 * (liveIn x u).foldl (fun a r => a + 64 + alignUp r.len 64) 0 < unitBytes →
    rd s f_CQS_PS_CUR = 0 → (nsDrives x).all (drvReady s) = true → drvsFree s (nsDrives x) = true →
    s.sto.cmds.any (fun c => c.ns == n.val && (c.len == 0 || c.off / unitBytes == u.val)) = false →
    (liveIn x u).foldl (fun (o : Option State) r => o.bind (fun s => copyLive s n r)) (some s) = some v →
    exec (.segmentCompaction n u) s = .next (withQueue s (freeUnit (modNs v n (fun y => { y with
      index := y.index.filter (fun r => r.off / unitBytes != u.val) })) n u)))

/-- The cipher (R355–R358, R362): once the entries of its furrow fetched before it have started, GCM_ENC and XTS write the transform of
what they read, and SHA the digest or its running record, with SUCCESS and the bytes written, or ends with INVALID_FIELD where its
record breaks R357; GCM_DEC holds its plaintext with both tags, and the verdict releases it or ends with AUTH_FAIL. -/
def Obligations.Ciphers : Prop :=
  ∀ (s u : State) (f : Fin 262144) (i : Fin 65536) (e₀ : Entry), e₀.f = f → e₀.i = i →
    let e := fetchStart e₀
    let a := modEntry s f i fetchStart
    let Run (op : Nat) : Prop := InTurn s f i clCipher op e₀
    let o := furOwner a f
    let v := ioOf e
    let iv := (e.b.drop 24).take 12
    let aad (d : List Byte) : List Byte := d.take (cAad e.b)
    let body (d : List Byte) : List Byte := d.drop (cAad e.b)
    let xts (enc : Bool) (d : List Byte) : List Byte := xtsUnit enc (e.data.take 32) (e.data.drop 32) ((e.b.drop 24).take 16) d
    let xtsMove (enc : Bool) : MM Unit := do
      ready v o (cDst e.b) (cLen e.b)
      let d ← readSp v o (cSrc e.b) (cLen e.b)
      writeSp v o (cDst e.b) (xts enc d)
    let sha (op : Nat) : MM Bool := do
      ready v o (cAux e.b) 80
      ready v o (cDst e.b) (cOut e.b)
      let r ← if cFirst e.b then pure [] else readSp v o (cAux e.b) 80
      let d ← readSp v o (cSrc e.b) (cLen e.b)
      match shaStep op (cFirst e.b) (cLast e.b) r d with
      | none => return false
      | some x =>
        writeSp v o (if cLast e.b then cDst e.b else cAux e.b) x
        return true
    let ends (c : Instr) (t : State) (st res : Nat) : Prop := exec c s = .next (withQueue s (cipEnd t e st res))
    (Run 1 → runMM a (do
        ready v o (cDst e.b) (cLen e.b)
        ready v o (cAux e.b) 16
        let d ← readSp v o (cSrc e.b) (cAad e.b + cLen e.b)
        writeSp v o (cDst e.b) (gcmCrypt e.data iv (body d))
        writeSp v o (cAux e.b) (gcmTag e.data iv (aad d) (gcmCrypt e.data iv (body d)))) = (.ok (), u) →
      ends (.gcmEnc f i) u 0 (cLen e.b)) ∧
    (Run 2 → e.snap.getD 1 0 ≠ 1 → ∀ p t : List Byte, runMM a (do
        ready v o (cDst e.b) (cLen e.b)
        let d ← readSp v o (cSrc e.b) (cAad e.b + cLen e.b)
        let t ← readSp v o (cAux e.b) 16
        return (gcmCrypt e.data iv (body d) ++ gcmTag e.data iv (aad d) (body d), t)) = (.ok (p, t), u) →
      exec (.gcmDec f i) s = .next (withQueue s (modEntry u f i (fun x => { x with snap := [1, 1, 1], data := p ++ t, ph := .running })))) ∧
    (entryOf s f i = some e₀ → furClass s f = clCipher → e₀.op = 2 → e₀.snap = [1, 1, 1] → e₀.ph = .running ∨ e₀.ph = .fetched →
      ((e.data.drop (cLen e.b)).take 16 = e.data.drop (cLen e.b + 16) →
        runMM s (writeSp v (furOwner s f) (cDst e.b) (e.data.take (cLen e.b))) = (.ok (), u) → ends (.tagVerdict f i) u 0 (cLen e.b)) ∧
      ((e.data.drop (cLen e.b)).take 16 ≠ e.data.drop (cLen e.b + 16) → ends (.tagVerdict f i) (incF s f_CIP_AUTHFAIL_V 1) 0x06 0)) ∧
    (Run 3 → runMM a (xtsMove true) = (.ok (), u) → ends (.xtsEnc f i) u 0 (cLen e.b)) ∧
    (Run 4 → runMM a (xtsMove false) = (.ok (), u) → ends (.xtsDec f i) u 0 (cLen e.b)) ∧
    (Run 5 → runMM a (sha 5) = (.ok true, u) →
      ends (.sha256 f i) (if cLast e.b then scatter u v o (cAux e.b) 80 else u) 0 (cOut e.b)) ∧
    (Run 5 → runMM a (sha 5) = (.ok false, u) → exec (.sha256 f i) s = .next (withQueue s (cipAbort u e 0x01))) ∧
    (Run 6 → runMM a (sha 6) = (.ok false, u) → exec (.sha384 f i) s = .next (withQueue s (cipAbort u e 0x01))) ∧
    (Run 6 → runMM a (sha 6) = (.ok true, u) →
      ends (.sha384 f i) (if cLast e.b then scatter u v o (cAux e.b) 80 else u) 0 (cOut e.b))

/-- The release of a key slot: it becomes invalid, its key is zeros and its owner is 200h; requests already fetched keep the key
that they bound; a CHIP or FULL reset leaves every slot invalid with a zero key and owner 200h (R361). -/
def Obligations.KeySlotRelease : Prop :=
  (∀ (s : State) (n : Nat), rising s.cip.slots = true →
    (keySlotOf (releaseSlot s n) n).ty = 0 ∧ (∀ b ∈ (keySlotOf (releaseSlot s n) n).key, b = 0) ∧ (keySlotOf (releaseSlot s n) n).owner = 0x200 ∧
    (releaseSlot s n).infl = s.infl ∧ (∀ m, m ≠ n → keySlotOf (releaseSlot s n) m = keySlotOf s m)) ∧
  (∀ (s : State) (i lvl n : Nat), (lvl = 6 ∨ lvl = 7) →
    (keySlotOf (chipResetTo s i lvl) n).ty = 0 ∧ (keySlotOf (chipResetTo s i lvl) n).key = [] ∧ (keySlotOf (chipResetTo s i lvl) n).owner = 0x200)

/-- The siphon's shards and manifests (R374–R378): SAVE reads its descriptor and slice, converts it, seals it and writes the object
to the store, and completes when its blocks are there and its manifest entry is written; LOAD reads the object, opens it and
writes the intersection, or ends with AUTH_FAIL; MAN_WRITE stores the manifest and then writes its token; MAN_READ reads and checks
it. Each where the entries of its furrow fetched before it have started. The free bits of a stream's last byte and the gap before
its scales are log entry 1's. -/
def Obligations.SiphonShards : Prop :=
  ∀ (s u v : State) (f : Fin 262144) (i : Fin 65536) (e₀ : Entry), e₀.f = f → e₀.i = i →
    let e := fetchStart e₀
    let a := modEntry s f i fetchStart
    let o := furOwner a f
    let p := ioOf e
    (InTurn s f i clSiphon 1 e₀ → e.stage = 0 → ∀ d x g l, runMM a (readSp p o (pDesc e.b) 128) = (.ok d, u) →
      saveDesc d = some (x, g) → runMM u (readSp p o (le d 112 8) (Slice.bytes x)) = (.ok l, v) →
      let cls := le d 11 1
      let y := { x with fmt := g, base := 0 }
      let r := if cls = 0 then ((List.range x.vol).map (x.code l), if isMX x.fmt then (List.range (x.vol / 32)).map (fun k => x.scale l (32 * k)) else [], 0)
        else convertAll g ((List.range x.vol).map (fun k => (x.val l k, elemMode (cls / 2) (le d 120 8) (le d 0 8) (x.coords k))))
      let z := sliceBytes v y r.1 r.2.1
      let hdr := shardHeader (pStep e.b) (pArg e.b) (le d 0 8) (le d 8 1) (le d 9 1) (le d 10 1) cls z.1.length
      let obj := shardObject e.sipKey hdr (pArg e.b) (pStep e.b) z.1
      exec (.save f i) s = .next (withQueue s (storeCmd (sipStage z.2 f i 0 .running (manifestEntry e.b d z.1.length (sha256 z.1) ++
        natLE 1 r.2.2.toNat)) e (pTarget e.b) true (pLba e.b) (obj.length / 4096) obj))) ∧
    (InTurn s f i clSiphon 1 e₀ → e.stage = 1 → runMM a (writeSp p o (pEnt e.b) (e.staged.take 192)) = (.ok (), u) →
      exec (.save f i) s = .next (withQueue s (endEntry (incF u f_SIP_CNT_SAVED_V 1) f i 0 (le e.staged 192 1)))) ∧
    (InTurn s f i clSiphon 2 e₀ → e.stage = 0 → ∀ d m x y g, runMM a (readSp p o (pDesc e.b) 128) = (.ok d, u) →
      runMM u (readSp p o (pEnt e.b) 192) = (.ok m, v) → loadDesc d = some x → entrySlice m = some (y, g) → loadFits d m x y = true →
      exec (.load f i) s = .next (withQueue s (storeCmd (sipStage v f i 0 .running (d ++ m)) e (le m 12 1) false (le m 16 8)
        (shardBlocks (le m 24 8)) []))) ∧
    (InTurn s f i clSiphon 2 e₀ → e.stage ≠ 0 →
      let d := e.staged.take 128
      let m := (e.staged.drop 128).take 192
      let obj := e.staged.drop 320
      ∀ x y g, loadDesc d = some x → entrySlice m = some (y, g) →
      (openShard e.sipKey m obj = none → runMM a (writeSp p o (pAux e.b) obj) = (.ok (), u) →
        exec (.load f i) s = .next (withQueue s (endEntry (incF u f_SIP_CNT_AUTHFAIL_V 1) f i 0x06 noResult))) ∧
      (∀ pt rows fl, openShard e.sipKey m obj = some pt → loadRows a x y (le m 11 1 == 0) pt = (rows, fl, v) →
        runMM v (do
          writeSp p o (pAux e.b) obj
          rows.forM (fun r => do
            writeElems p o (le d 112 8) (fmtBits x.fmt) r.at_ r.codes
            r.scales.forM (fun k => writeSp p o (le d 112 8 + x.scales + k.1) (natLE 1 k.2)))) = (.ok (), u) →
        exec (.load f i) s = .next (withQueue s (endEntry (incF u f_SIP_CNT_LOADED_V 1) f i 0 fl.toNat)))) ∧
    (InTurn s f i clSiphon 3 e₀ → e.stage = 1 → runMM a (writeSp p o (pEnt e.b) (e.staged.take 32)) = (.ok (), u) →
      exec (.manWrite f i) s = .next (withQueue s (endEntry u f i 0 noResult))) ∧
    (InTurn s f i clSiphon 3 e₀ → e.stage = 0 → ∀ h l, runMM a (readSp p o (pDesc e.b) 128) = (.ok h, u) → manHeaderOk h = true →
      runMM u (readSp p o (pDesc e.b) (manLen (nshards h))) = (.ok l, v) → l ≠ [] → manEntriesOk l = true →
      let m := putAt l 40 (natLE 4 (fwif v))
      exec (.manWrite f i) s = .next (withQueue s (storeCmd (sipStage v f i 0 .running (sha256 m)) e (pTarget e.b) true (pLba e.b)
        ((toBlocks m).length / 4096) (toBlocks m)))) ∧
    (InTurn s f i clSiphon 4 e₀ →
      let l := e.staged
      let n := manLen (nshards l)
      (e.stage = 0 → exec (.manRead f i) s = .next (withQueue s (storeCmd (sipStage a f i 0 .running []) e (pTarget e.b) false (pLba e.b) 1 []))) ∧
      (e.stage = 1 → manTag l = true → n ≤ pArg e.b → exec (.manRead f i) s = .next (withQueue s (storeCmd (sipStage a f i 1 .running l) e
        (pTarget e.b) false (pLba e.b) ((n + 4095) / 4096) []))) ∧
      (2 ≤ e.stage → ∀ t w, runMM a (writeSp p o (pAux e.b) l) = (.ok (), u) → runMM u (readSp p o (pEnt e.b) 32) = (.ok t, v) →
        (sha256 (l.take n) = t → runMM v (writeSp p o (pDesc e.b) l) = (.ok (), w) →
          exec (.manRead f i) s = .next (withQueue s (endEntry w f i 0 (nshards l)))) ∧
        (sha256 (l.take n) ≠ t → exec (.manRead f i) s = .next (withQueue s (endEntry (incF v f_SIP_CNT_AUTHFAIL_V 1) f i 0x06 noResult)))))

/-- Store targets (R365–R367, R374): enabling tries every target; a connection is open when all its I/O queues are, each pinned to a
link that is up; its loss and a command whose TMO has passed end the entries that used it, record the event and try again; a
completion in time moves its entry on, as a run of its row at its next stage, or ends it with MEDIA_ERROR. -/
def Obligations.SiphonTargets : Prop :=
  (∀ s : State, (barOpen s = true → exec .siphonEnable s = .next (withQueue s ((List.range 16).foldl tryConnect (wr s f_SIP_CFG_EN 1)))) ∧
    exec .keepAlive s = .next (withQueue s ((List.range 16).foldl (fun s k => match connOf s k with
      | some c => if c.kaAt + 5000000000 ≤ s.clk then toStore (setConn s k (some { c with kaAt := s.clk })) k 3 c.ip (pinsOf s k) [] else s
      | none => s) s))) ∧
  (∀ (s : State) (k : Fin 16) (q : Fin 9) (l : List Byte), rd s f_SIP_CFG_EN = 1 → targetEntry s k = some l →
    let n := lef l 1 1 3 0
    let u := if (pinsOf s k).all (fun p => (sipPorts s).contains p) && !(pinsOf s k).isEmpty then s else pinQueues s k n
    (targetBad s l = true → exec (.storeConnectionOpen k q true) s = .next (wr s (f_SIP_TGTSTAT_ERR k) 1)) ∧
    (targetBad s l = false → (pinsOf u k).isEmpty = false →
      (n ≤ q.val → exec (.storeConnectionOpen k q true) s = .next (withQueue s (setConn (wr (wr u (f_SIP_TGTSTAT_QUEUES k) n) (f_SIP_TGTSTAT_CONN k) 1)
        k (some ⟨be l 4 16, le l 2 2, n, s.clk⟩)))) ∧
      (q.val < n → exec (.storeConnectionOpen k q true) s =
        .next (withQueue s (wr (wr u (f_SIP_TGTSTAT_QUEUES k) q) (f_SIP_TGTSTAT_CONN k) 0))))) ∧
  (∀ (s : State) (k : Fin 16) (c : Conn), connOf s k = some c →
    exec (.storeConnectionLoss k) s = .next (withQueue s (event (closeConn (dropCmds s k 0x0F) k) 0x197 1 0x12 k))) ∧
  (∀ (s : State) (k : Fin 16) (id : BitVec 16) (c : StoreCmd), s.sip.cmds.find? (fun c => c.target == k.val && c.id == id.toNat) = some c →
    (∀ e, c.at_ + 1000000 * rd s f_SIP_CFG_TMO < s.clk → entryOf s c.f c.i = some e → e.ended = false →
      exec (.storeCommandTimeout k id) s = .next (withQueue s (event (closeConn (dropCmds (incF (endEntry s c.f c.i 0x10 noResult)
        f_SIP_CNT_TMO_V 1) k 0x0F) k) 0x197 1 0x12 k))) ∧
    (s.clk ≤ c.at_ + 1000000 * rd s f_SIP_CFG_TMO →
      let t := { s with sip := { s.sip with cmds := s.sip.cmds.erase c } }
      ∀ (d : List Byte) (e : Entry) (f : Fin 262144) (i : Fin 65536), entryOf t c.f c.i = some e → e.ended = false → c.f = f → c.i = i →
      let l := padTo (4096 * c.blocks) d
      (∀ st : Fin 3, st ≠ 0 → exec (.storeTargetCompletion k id st d) s = .next (withQueue s (endEntry t f i 0x0C noResult))) ∧
      (e.op = 1 → exec (.storeTargetCompletion k id 0 d) s = exec (.save f i) (sipStage t f i 1 .fetched e.staged)) ∧
      (e.op = 2 → exec (.storeTargetCompletion k id 0 d) s = exec (.load f i) (sipStage t f i 1 .fetched (e.staged ++ l))) ∧
      (e.op = 3 → exec (.storeTargetCompletion k id 0 d) s = exec (.manWrite f i) (sipStage t f i 1 .fetched e.staged)) ∧
      (e.op = 4 →
        let v := sipStage t f i (e.stage + 1) .fetched l
        exec (.storeTargetCompletion k id 0 d) s = exec (.manRead f i) v ∧
        (∀ x, InTurn v f i clSiphon 4 x → x.f = f → x.i = i → e.stage = 0 → x.stage = 1 → x.staged = l → manTag l = true →
          manLen (nshards l) ≤ pArg x.b →
          exec (.storeTargetCompletion k id 0 d) s = .next (withQueue s (storeCmd (sipStage (modEntry v f i fetchStart) f i 1 .running l)
            (fetchStart x) (pTarget x.b) false (pLba x.b) ((manLen (nshards l) + 4095) / 4096) []))))))

/-- Turnout migration (R379–R381): TRN_SAVE freezes the turnout's furrows, drains, halts its cells and writes its image; the drain
deadline, once it has passed, ends what is left with FROZEN; TRN_RESTORE puts an image back and leaves the cells halted; GO lets them run. -/
def Obligations.SiphonTurnouts : Prop :=
  (∀ (s : State) (f : Fin 262144) (i : Fin 65536) (e : Entry),
    (EntryReady s f i clSiphon 8 e → e.ended = false → s.sip.op = none → turnActive s (pArg e.b) = true → hasTier s (pArg e.b) 2 = false →
      let t := pArg e.b
      let on := ((fursOf s t).filter (fun p => p.2.enabled)).map Prod.fst
      let u := wr (wr (freezeFurs s (fun _ x => x.owner == t)) f_SIP_TSTAT_PHASE 1) f_SIP_TSTAT_TURNOUT t
      exec (.trnSave f i) s = .next (withQueue s (modEntry { u with sip := { u.sip with op := some ⟨f, i, t, s.clk, on⟩ } } f i
        (fun e => { e with ph := .running })))) ∧
    (entryOf s f i = some e → furClass s f = clSiphon → e.op = 8 → e.ended = false → ∀ o, s.sip.op = some o → o.f = f → o.i = i →
      (sipPhase s = 1 → exec (.trnSave f i) s = .next (wr s f_SIP_TSTAT_PHASE 2)) ∧
      (sipPhase s = 2 → inFlight s o.t = false → exec (.trnSave f i) s = .next (withQueue s (saveHalt s o))) ∧
      (2 < sipPhase s → ∀ u, u = (cellsOf s o.t).foldl (fun s c => modCell s c saveCell) s →
        (cellsOf u o.t).all (fun c => cellSaved (cellOf u c)) = true → ∀ n w, freshBelow u (2 ^ 20) = (n, w) → ∀ v, moveAll w o.t = some v →
          ∀ bytes x, freshBytes v (4096 * (n + 1)) = (bytes, x) →
            let img := putAt bytes 0 ([0x53, 0x4B, 0x54, 0x49] ++ natLE 2 1)
            ∀ y, runMM x (writeSp (ioOf e) 0x201 (pDesc e.b) img) = (.ok (), y) →
              exec (.trnSave f i) s = .next (withQueue s (saveEnd { y with sip := { y.sip with images := y.sip.images ++ [(img, turnImage w o.t (n + 1))] } }
                o 0 (n + 1) (bit (le e.b 18 1) 0))))) ∧
    (InTurn s f i clSiphon 9 e → e.f = f → e.i = i → ∀ (c : TurnImage) u l,
      runMM (modEntry s f i fetchStart) (readSp (ioOf e) 0x201 (pDesc e.b) (4096 * c.units)) = (.ok l, u) →
      let t := pArg e.b
      u.sip.images.find? (fun p => p.1 == l) = none → turnActive u t = true → c.fwif ≤ fwif u → c.digest = true → fursOf u t = [] →
      ctxsOf u t = [] → winCount u t = 0 → c.furs.length ≤ (quotaOf u t).furrows → c.ctxs.length ≤ (quotaOf u t).contexts →
      c.wins.length ≤ (quotaOf u t).windows → c.cells.length ≤ (cellsOf u t).length →
      let a := c.furs.foldl (putFurImg t) (wr (wr u f_SIP_TSTAT_PHASE 4) f_SIP_TSTAT_TURNOUT t)
      let b := c.ctxs.foldl (putCtxImg t) { a with lat := { a.lat with wins := a.lat.wins ++ c.wins.map (fun w => { w with t := t }) } }
      let d := ((cellsOf u t).zip c.cells).foldl (fun s p => putCellImg t s p.1 p.2) b
      let g := ((cellsOf u t).drop c.cells.length).foldl (fun s c => modCell s c saveCell) d
      exec (.trnRestore f i c) s = .next (withQueue s (endEntry (wr { g with sip := { g.sip with halted := some t } } f_SIP_TSTAT_PHASE 5) f i 0 noResult)))) ∧
  (∀ (s : State) (o : TurnOp), s.sip.op = some o → (sipPhase s = 1 ∨ sipPhase s = 2) → o.at_ + 50000000 < s.clk →
    exec .drainDeadline s = .next (withQueue s (saveHalt (endAll s (fun e => furOwner s e.f == o.t) 0x0E) o))) ∧
  (∀ s : State, barOpen s = true →
    (∀ t, sipPhase s = 5 → s.sip.halted = some t → let u := (cellsOf s t).foldl freeCell s
      exec .turnoutGo s = .next (withQueue s (wr { u with sip := { u.sip with halted := none } } f_SIP_TSTAT_PHASE 0))) ∧
    (sipPhase s ≠ 5 → exec .turnoutGo s = .next (withQueue s (writeIgnored s))))

/-- Mimin's calls (R170, R174, R176–R179, R181, R182, R184–R186, R189): on a turnout with a free attention cell, a call whose memory
accesses succeed ends with what its computation gives, its output written, what a read of its pages met being counted; without an
attention cell it ends with NO_RESOURCE; a twin call begins as two copies, and copies that succeed and differ end with DEVICE_FAULT
and record the event, others end as the call does. SCAN's result (R181) with finite queries: the count of the selected pages, their indices ascending, and each
head's bound rounded up; the bytes of the gap before the bounds are free values (log entry 1). -/
def Obligations.MiminCalls : Prop :=
  (∀ (s u v : State) (f : Fin 262144) (i : Fin 65536) (e : Entry), e.f = f → e.i = i → (attnOf s (furOwner s f)).all (inRun s) = false →
    let o := furOwner s f
    let k := 64 * le e.b 20 1 + lef e.b 21 1 5 0
    let lg (x : Context) : LGroup := sget ⟨64 * x.first, []⟩ x.lgs k
    let writes (u : State) (d : Done) (c : Instr) (commit : State → State) : Prop := runMM u (writeAll (ioOf e) (furOwner u f) d.out) = (.ok (), v) →
      exec c s = .next (withQueue s (endEntry (commit v) f i (okStatus e.b d.fl) d.res))
    (mTwin e.b = false →
      (∀ x, e.ctx = some x →
        (EntryReady s f i clMimin 0x01 e → ∀ (perr : Fin 5) buf d, runMM s (mimRead (ioOf e) x.t (le e.b 48 8) (attendBuf x e.b)) = (.ok buf, u) →
          let ps := (entryPages u e).map Prod.snd
          pageErr perr (ps.map (pageOf x (lg x))) = none → attend x e.b buf = some d →
          writes (pageMarks u perr (ps.map (pageOf x (lg x)))) d (.attend f i perr) (fun s => touch s x.t x.id k ps)) ∧
        (EntryReady s f i clMimin 0x03 e → ∀ (perr : Fin 5) buf,
          runMM s (mimRead (ioOf e) x.t (le e.b 48 8) (rowLen ((fmtOfCode (lef e.b 22 1 4 0)).getD .fp32) (x.heads * x.d))) = (.ok buf, u) →
          let ys := ((List.range (le e.b 36 4)).map (fun j => le e.b 32 4 + j)).map (pageOf x (lg x))
          ∀ st, pageErr perr ys = some st →
          exec (.scan f i perr) s = .next (withQueue s (endEntry (pageMarks u perr ys) f i st noResult))) ∧
        (EntryReady s f i clMimin 0x06 e → ∀ (perr : Fin 5) ps, runMM s (gatherList x.t e) = (.ok ps, u) →
          listOk x.first (lg x).pageCount ps = true → pageErr perr (ps.map (pageOf x (lg x))) = none →
          ∀ frames w, gatherFrames x.alloc (le e.b 56 8) (ps.map (fun p => (pageOf x (lg x) p).frame))
            (pageMarks u perr (ps.map (pageOf x (lg x)))) = (frames, w) →
            let sums := if lef e.b 24 1 4 4 = 1 then [(le e.b 56 8 + ps.length * x.alloc,
              ps.flatMap (fun p => (pageOf x (lg x) p).kmax ++ (pageOf x (lg x) p).kmin))] else []
            writes w ⟨ps.length, 0, frames ++ sums⟩ (.gather f i perr) (fun s => touch s x.t x.id k ps)) ∧
        (EntryReady s f i clMimin 0x02 e →
          let n := lef e.b 28 4 16 0
          let w := rowLen ((fmtOfCode (lef e.b 23 1 4 0)).getD .fp32) x.d
          ∀ src, runMM s (mimRead (ioOf e) x.t (le e.b 48 8) ((lef e.b 22 1 5 0 + 1) * 2 * n * w)) = (.ok src, u) →
            let gs := (List.range (lef e.b 22 1 5 0 + 1)).map (fun j =>
              let a := convRows x ((fmtOfCode (lef e.b 23 1 4 0)).getD .fp32) (src.drop (j * 2 * n * w)) n
              let b := convRows x ((fmtOfCode (lef e.b 23 1 4 0)).getD .fp32) (src.drop ((j * 2 + 1) * n * w)) n
              (lef e.b 21 1 5 0 + j, List.zip a.1 b.1, a.2 ||| b.2))
            let fl := gs.foldl (fun a g => a ||| g.2.2) 0
            let added := appendGroups x (le e.b 20 1) (le e.b 32 5) (gs.map (fun g => (g.1, g.2.1))) u
            let live := liveCtx u e x.t x.id
            (live.any (fun y => mimRanges y e.b) = true →
              (added = none → exec (.append f i) s = .next (withQueue s (endEntry u f i 0x0A noResult))) ∧
              (∀ t, added = some t → exec (.append f i) s = .next (withQueue s (endEntry t f i (okStatus e.b fl) fl.toNat)))) ∧
            (live.any (fun y => mimRanges y e.b) = false →
              (cutSince e live = true → exec (.append f i) s = .next (withQueue s (endEntry u f i (okStatus e.b fl) fl.toNat))) ∧
              (cutSince e live = false → exec (.append f i) s = .next (withQueue s (endEntry u f i 0x01 noResult)))))) ∧
      (EntryReady s f i clMimin 0x04 e → ∀ ins as, runMM s (mergeRead o e) = (.ok ins, u) → mergeSlots ins (lef e.b 20 4 20 0) = some as →
        let d : Done := ⟨(mergeOut e.b as).2.toNat, (mergeOut e.b as).2, [(le e.b 56 8, (mergeOut e.b as).1)]⟩
        (lef e.b 24 1 4 3 = 0 → writes u d (.mergeLax f i) id) ∧
        (lef e.b 24 1 4 3 = 1 → writes u d (.mergeFinalise f i) id) ∧
        (lef e.b 24 1 4 3 = 2 → writes u d (.mergeRound f i) id)) ∧
      (EntryReady s f i clMimin 0x05 e → ∀ l, runMM s (mimRead (ioOf e) o (le e.b 56 8) (if lef e.b 24 1 4 3 = 1 then le e.b 20 3 else 4 * le e.b 20 3)) = (.ok l, u) →
        exec (.sample f i) s = .next (withQueue s (endEntry u f i (okStatus e.b (sample e.b l).2) ((sample e.b l).1 + (sample e.b l).2.toNat * 2 ^ 24))))) ∧
    (mTwin e.b = true → (attnOf s o).length ≠ 1 → ∀ perr : Fin 5,
      ∀ p ∈ [(0x01, Instr.attend f i perr), (0x02, .append f i), (0x03, .scan f i perr), (0x05, .sample f i), (0x06, .gather f i perr)],
        EntryReady s f i clMimin p.1 e → exec p.2 s = .next (withQueue s (modEntry s f i (fun e => { e with ph := .running })))) ∧
    (entryOf s f i = some e → furClass s f = clMimin → e.ph = .running → mTwin e.b = true → ∀ z : TwinEnd,
      let t := twinBody (twinErr z.err1 z.err2) e s
      ∀ e' st r, entryOf t f i = some e' → e'.ph = .ended st r →
        (z.same = false → st = 0 ∨ st = 0x0D → exec (.twinCompare f i z) s =
          .next (withQueue s (endEntry (event (incF s f_MIM_TWIN_MISMATCH_COUNT 1) 0x198 1 0x0D 0) f i 0x0F noResult))) ∧
        (z.same = true ∨ st ≠ 0 ∧ st ≠ 0x0D → exec (.twinCompare f i z) s = .next (withQueue s t)))) ∧
  (∀ (s : State) (f : Fin 262144) (i : Fin 65536) (e : Entry) (perr : Fin 5), e.f = f → e.i = i → attnOf s (furOwner s f) = [] →
    ∀ p ∈ [(0x01, Instr.attend f i perr), (0x02, .append f i), (0x03, .scan f i perr), (0x05, .sample f i), (0x06, .gather f i perr)],
      EntryReady s f i clMimin p.1 e → exec p.2 s = .next (withQueue s (endEntry s f i 0x03 noResult))) ∧
  (∀ (s u : State) (f : Fin 262144) (i : Fin 65536) (perr : Fin 5) (e : Entry) (x : Context), EntryReady s f i clMimin 0x03 e → e.f = f → e.i = i →
    (attnOf s (furOwner s f)).all (inRun s) = false → mTwin e.b = false → e.ctx = some x →
    let b := e.b
    let qf := (fmtOfCode (lef b 22 1 4 0)).getD .fp32
    let g := sget ⟨64 * x.first, []⟩ x.lgs (64 * le b 20 1 + lef b 21 1 5 0)
    let ps := (List.range (le b 36 4)).map (fun j => le b 32 4 + j)
    ∀ buf, runMM s (mimRead (ioOf e) x.t (le b 48 8) (rowLen qf (x.heads * x.d))) = (.ok buf, u) → pageErr perr (ps.map (pageOf x g)) = none →
      let q := (List.range x.heads).map (fun h => (List.range x.d).map (fun j => valOf qf (elemAt (fmtBits qf) buf (h * x.d + j))))
      (∀ r ∈ q, ∀ v ∈ r, vSpecial v = false) →
      let cands : List PageCand := ps.map (fun p =>
        let mx := rowVals x.pfmt x.d (pageOf x g p).kmax
        let mn := rowVals x.pfmt x.d (pageOf x g p).kmin
        let bh := q.map (fun r => bound r mx mn)
        ⟨p, (mx ++ mn).any vSpecial, bh, bh.foldl (fun a c => a + c.n.toInt) 0⟩)
      let sel := (pickBest (lef b 28 4 16 0) cands).foldl (fun l p => insertNat p l) []
      let heads := (List.range x.heads).map (fun h =>
        let m := (cands.map (fun c => (c.bh.getD h Acc.zero).resolve.1)).foldl (fun a v => match a with
          | some w => some (qMax w v)
          | none => some v) none
        convertQ .fp32 .rup (qMul (m.getD (.q false 0 1)) (fpVal (le b 40 4))))
      let fl := cands.foldl (fun a c => c.bh.foldl (fun a h => a ||| h.flags ||| h.resolve.2) a) (heads.foldl (fun a h => a ||| h.2) 0)
      let idx := sel.flatMap (natLE 4)
      ∀ gap v w, freshBytes (pageMarks u perr (ps.map (pageOf x g))) (alignUp idx.length 64 - idx.length) = (gap, v) →
        runMM v (writeAll (ioOf e) (furOwner v f) [(le b 56 8, idx ++ gap ++ heads.flatMap (fun h => natLE 4 h.1))]) = (.ok (), w) →
        exec (.scan f i perr) s = .next (withQueue s (endEntry w f i (okStatus b fl) sel.length)))

/-- Mimin's contexts and kernels (R157, R159, R168, R183, R187, R188): CREATE, DESTROY, PIN, UNPIN and TRUNCATE change the directory
and the pages, a PIN or UNPIN whose context a later call has taken ending with SUCCESS; RUN starts its kernel on each named cell
that is free, on the others as they free, and ends with TIMEOUT once its limit has passed. -/
def Obligations.MiminContexts : Prop :=
  ∀ (s u : State) (f : Fin 262144) (i : Fin 65536) (e : Entry),
    let t := furOwner s f
    let b := e.b
    let k := 64 * le b 20 1 + lef b 21 1 5 0
    let ends (c : Instr) (u : State) (st res : Nat) : Prop := exec c s = .next (withQueue s (endEntry u f i st res))
    (EntryReady s f i clMimin 0x08 e → ctxOf s t (le b 16 4) = none →
      ((quotaOf s t).contexts ≤ ctxCount s t → ends (.miminCreate f i) s 0x03 noResult) ∧
      (ctxCount s t < (quotaOf s t).contexts → s.mim.ctxs.length < 262144 → ends (.miminCreate f i) (setCtx s t (le b 16 4) (some {
        t := t, id := le b 16 4, layers := le b 20 1 + 1, groups := lef b 21 1 5 0 + 1, heads := lef b 22 1 4 0 + 1, d := le b 26 2,
        pfmt := (pageFmt (lef b 23 1 4 0)).getD .bf16, policy := lef b 24 1 4 2, recent := lef b 28 2 12 0, sumrsv := lef b 24 1 1 1 == 1,
        nsid := le b 32 4, first := le b 36 4, lgs := [], cuts := 0 })) 0 0)) ∧
    (EntryReady s f i clMimin 0x09 e → ∀ x, e.ctx = some x →
      s.infl.any (fun x => furClass s x.f == clMimin && decide (x.seq < e.seq) && furOwner s x.f == t && needsCtx x.op && le x.b 16 4 == le b 16 4) = false →
      ends (.miminDestroy f i) (tombPages s x (fun _ _ => true)) 0 noResult) ∧
    (let live := liveCtx s e t (le b 16 4)
     (live = none → (EntryReady s f i clMimin 0x0A e → ends (.pin f i) s 0 noResult) ∧
       (EntryReady s f i clMimin 0x0B e → ends (.unpin f i) s 0 noResult)) ∧
     (∀ x, live = some x → mimRanges x b = true ∨ cutSince e live = true →
       (EntryReady s f i clMimin 0x0A e →
         let gone := pinGo t x.id k (lef b 22 1 0 0) ((pinList b).filter (fun p => (x.page? k p).isSome)) s
         (gone = none → ends (.pin f i) s 0x03 noResult) ∧
         (gone = some u → ends (.pin f i) u 0 noResult)) ∧
       (EntryReady s f i clMimin 0x0B e →
         let g := sget ⟨64 * x.first, []⟩ x.lgs k
         let pages := g.pages.map (fun p => if (pinList b).contains p.1 then (p.1, p.2.map (fun q => { q with pin := false })) else p)
         ends (.unpin f i) (setCtx s t x.id (some (x.setLg k { g with pages := pages }))) 0 noResult)) ∧
     (∀ x, live = some x → mimRanges x b = false → cutSince e live = false →
       (EntryReady s f i clMimin 0x0A e → ends (.pin f i) s 0x01 noResult) ∧
       (EntryReady s f i clMimin 0x0B e → ends (.unpin f i) s 0x01 noResult))) ∧
    (∀ x, ctxOf s t (le b 16 4) = some x → EntryReady s f i clMimin 0x0C e →
      let len := le b 20 5
      let cut (j : Nat) : Nat := max (64 * x.first) (min (sget ⟨64 * x.first, []⟩ x.lgs j).len len)
      let lgs := (x.lgs.map (fun g => (g.1, truncGroup x len g.2))).filter (fun g => decide (g.2 ≠ ⟨64 * x.first, []⟩))
      let hit := x.lgs.filter (fun g => decide (cut g.1 < g.2.len))
      let y := { x with lgs := lgs, cuts := if hit.isEmpty then x.cuts else x.cuts + 1 }
      ends (.truncate f i) (tombPages (storeEnds (setCtx s t x.id (some y))
        { y with lgs := lgs.filter (fun g => hit.any (fun h => h.1 == g.1)) }) x (fun j p => decide (cut j ≤ 64 * p))) 0 noResult) ∧
    (EntryReady s f i clMimin 0x07 e → fwServes s = true → runOf s f i = none → ∀ l,
      runMM s (eachMM [mimRead (ioOf e) t (le b 32 8) 32, mimRead (ioOf e) t (le b 48 8) (le b 56 4)]) = (.ok l, u) →
      let cs := maskCells (l.headD [])
      (¬ (∀ c ∈ cs, c ∈ attnOf u t) → ends (.run f i) u 0x07 noResult) ∧
      ((∀ c ∈ cs, c ∈ attnOf u t) → cs = [] → ends (.run f i) u 0 0) ∧
      ((∀ c ∈ cs, c ∈ attnOf u t) → cs ≠ [] → compStopped u 1 = true → ends (.run f i) u 0x0F noResult) ∧
      ((∀ c ∈ cs, c ∈ attnOf u t) → cs ≠ [] → compStopped u 1 = false →
        let w := modEntry u f i (fun e => { e with ph := .running, snap := [0] })
        let r : RunRec := ⟨f, i, cs, [], 0, if le b 16 4 = 0 then 0 else u.clk + 1000 * le b 16 4 + 1, [], List.range cs.length⟩
        exec (.run f i) s = .next (withQueue s
          (takeCells { w with mim := { w.mim with runs := w.mim.runs ++ [r] } } f i (le b 40 8) r (l.getD 1 []))))) ∧
    (∀ r, runOf s f i = some r →
      (entryOf s f i = some e → furClass s f = clMimin → e.op = 0x07 → fwServes s = true → (r.due = 0 ∨ s.clk < r.due) →
        r.wait ≠ [] ∨ r.lost ≠ [] → compStopped s 1 = false → ∀ img, runMM s (mimRead (ioOf e) t (le b 48 8) (le b 56 4)) = (.ok img, u) →
        let v := takeCells u f i (le b 40 8) r img
        exec (.run f i) s = .next (withQueue s (rerunShare v t f i (le b 40 8) ((runOf v f i).getD r) img))) ∧
      (r.due ≠ 0 → r.due ≤ s.clk → exec (.runTimeout f i) s = .next (withQueue s (endRun s r 0x10 noResult))))

/-- Chip resets (R397, R403–R408, R440–R442, R447, R459): each source resets the chip at the level that its reach entry gives, trips
also log themselves in the auxiliary domain and hold the device, and a reset releases when its time is over. From 0.96 to 1.04
µs the SYS_RST_N filter is free (log entry 1). The start (R397, R399–R402, R409–R412): the fuses, then the option bytes, then
the configuration image, applied whole or rejected, then self-test, each only in its place; the device comes to state TEST and
then to IDLE or FAILED. -/
def Obligations.Boot : Prop :=
  (∀ s : State,
    (let t := chipResetTo { powerLoss s.sto.undo.reverse [] s with sto := { (powerLoss s.sto.undo.reverse [] s).sto with undo := [] } } 0 7
     exec .powerOn s = .next (withQueue s { t with pcie := { t.pcie with cold := false }, boot := { t.boot with powered := true, hold := false, trip := false, refLost := false, goodAt := t.clk } })) ∧
    (let t := chipResetTo { s with pcie := { s.pcie with cold := false } } 0 7
     exec .auxPowerOn s = .next (withQueue s { t with boot := { t.boot with powered := false, trip := false, hold := false, auxRose := true } })) ∧
    (let t := chipResetTo s 0 7
     exec .refclk25mLoss s = .next (withQueue s { t with boot := { t.boot with refLost := true } })) ∧
    (mayRelease s = true → ∀ locked : BitVec 16,
      (∀ straps : BitVec 3, s.boot.rstSrc = 0 → s.boot.goodAt + 2000000 ≤ s.clk →
        exec (.powerOnRelease straps locked) s = .next (withQueue s (releaseReset { s with side := { s.side with addr := 0x20 + straps.toNat } } locked))) ∧
      (s.boot.rstSrc ≠ 0 → s.boot.rstUntil ≤ s.clk → exec (.resetRelease locked) s = .next (withQueue s (releaseReset s locked)))) ∧
    (∀ i until_ l, sourceLevel s i = l → l = 6 ∨ l = 7 →
      let t := raiseChip s i l
      let u := { t with boot := { t.boot with rstUntil := max t.boot.rstUntil until_ } }
      (∀ (w : DWord) d v, freshBelow s 81 = (d, v) → sourceLevel v 1 = 6 → 960 + d ≤ w.toNat →
        let t := raiseChip v 1 6
        exec (.sysRst w) s = .next (withQueue s { t with boot := { t.boot with
          rstUntil := max t.boot.rstUntil (v.clk + max (w.toNat - (960 + d)) 10000) } })) ∧
      (until_ = s.clk → i = 9 → exec (.rstSw 0x5A) s = .next (withQueue s u)) ∧
      (until_ = s.clk → i = 10 → exec .managementWatchdog s = .next (withQueue s u)) ∧
      (∀ j : Fin 16, until_ = s.clk → i = j →
        let v := { u with boot := { u.boot with hold := u.boot.hold || j == 13 || j == 14, goodAt := if j = 0 then u.clk else u.boot.goodAt } }
        (l = 6 → exec (.chipReset j) s = .next (withQueue s v)) ∧ (l = 7 → exec (.fullReset j) s = .next (withQueue s v)))) ∧
    (∀ key : Byte, key ≠ 0x5A → exec (.rstSw key) s = .next (withQueue s (writeIgnored s))) ∧
    (s.boot.powered = true →
      (∀ k : Fin 24, let t := chipSource (auxLog s 1 k) 13 s.clk
        exec (.thermalTrip k) s = .next (withQueue s { t with boot := { t.boot with hold := true, trip := true } })) ∧
      (∀ r : Fin 9, (List.range 9).all (fun q => decide (sget 0 s.pwr.quiet q ≤ s.clk)) = true →
        let u := { s with pcie := { s.pcie with cold := allInL2 s } }
        let t := chipSource (auxLog u 2 r) 14 s.clk
        exec (.supplyFault r) s = .next (withQueue s { t with boot := { t.boot with hold := true, trip := t.boot.trip } })))) ∧
  (∀ s : State, s.boot.inRst = false →
    (s.boot.stage = .fuse → ∀ (reach : DWord) (k0 k1 k2 k3 : FuseKey) (rb : Fin 64) (test : Bool) (avs : List (BitVec 16)) (fac : List Word),
      let t := wr (setReg s f_RST_REACH_LEVEL.key reach) f_FLT_INJ_AVAIL (b2n test)
      let keys := sput FuseKey.none (sput FuseKey.none (sput FuseKey.none (sput FuseKey.none [] 0 k0) 1 k1) 2 k2) 3 k3
      let mv := (List.range 5).foldl (fun m i => sput 0 m (avsRails.getD i 0) ((avs.getD i 0).toNat)) []
      exec (.fuseSenseDone reach k0 k1 k2 k3 rb test avs fac) s = .next (withQueue s (avsFuses { t with boot := { t.boot with
        keys := keys, rollback := max t.boot.rollback rb, avs := mv, factory := fac.map (fun (w : Word) => w.toNat), stage := .option } }))) ∧
    (s.boot.stage = .option → ∀ (nor : Bool) (a b : List Byte),
      let t := { s with boot := { s.boot with stage := .image } }
      (nor = true → optValid b = true → optUsesB a b = true →
        exec (.optionFetchDone nor a b) s = .next (withQueue s { wr t f_CFG_STAT_OPT 1 with boot := { t.boot with opt := b } })) ∧
      (nor = true → optValid a = true → optUsesB a b = false →
        exec (.optionFetchDone nor a b) s = .next (withQueue s { wr t f_CFG_STAT_OPT 0 with boot := { t.boot with opt := a } })) ∧
      (nor = false ∨ optValid a = false ∧ optUsesB a b = false → exec (.optionFetchDone nor a b) s = .next (withQueue s (fallback (wr t f_CFG_STAT_OPT 3))))) ∧
    (s.boot.stage = .image → ∀ data : List Byte,
      let ends (u : State) : Prop :=
        let v := releasePorts { u with boot := { u.boot with stage := .test } }
        let w := wr v f_GEN_STATE_STATE 2
        exec (.imageApplyDone data) s = .next (withQueue s (if bistMode w = .off then w else (List.range 4).foldl (fun s r => setPoint s r (bistMv s)) w))
      (imgMax s = 0 → ends (wr s f_CFG_STAT_IMG 1)) ∧
      (imgMax s ≠ 0 → imgOk (imgMax s) data = none → ends (fallback (wr s f_CFG_STAT_IMG 2))) ∧
      (imgMax s ≠ 0 → ∀ l, imgOk (imgMax s) data = some l →
        ends (applyImage l { wr s f_CFG_STAT_IMG 0 with boot := { s.boot with img := data.take (le data 8 4) } }))) ∧
    (s.boot.stage = .test →
      (∀ recs : List BistRec, let l := recs.filter (bistSees (bistMode s))
        exec (.selfTestDone recs) s = .next (withQueue s (bistEnd s l (bistResult l (bistMode s))))) ∧
      exec .selfTestAbort s = .next (withQueue s (bistEnd s [] 3))))

/-- The firmware (R398, R413, R414, R417, R418): a load starts it or leaves its result, activation holds the next one until it takes
over, SVN_COMMIT raises the rollback counter, readiness ends BOOT within 2 s, and a component that crashes four times in 60 s
stays stopped. -/
def Obligations.BootFirmware : Prop :=
  ∀ s : State,
    (∀ (err : Bool) (rt : List Byte),
      (let t := wr s f_GEN_FW_CTL_OP 0
       (rd t f_GEN_STATE_STATE ≠ 3 ∨ fwBusy t = true → exec (.firmwareLoad err rt) s = .next (withQueue s (writeIgnored t))) ∧
       (rd t f_GEN_STATE_STATE = 3 → fwBusy t = false → ∀ b r, fwFetch t err = (b, r) →
        (r ≠ 0 → exec (.firmwareLoad err rt) s = .next (withQueue s (wr (wr t f_GEN_FW_CTL_RESULT r) f_GEN_FW_CTL_GO 0))) ∧
        (r = 0 → let u := wr (wr (wr t f_GEN_FW_CTL_RESULT 1) f_GEN_FW_CTL_GO 1) f_GEN_STATE_STATE 4
          exec (.firmwareLoad err rt) s = .next (withQueue s { u with boot := { u.boot with fw := some (fwOf b rt), goAt := u.clk, comps := [] } })))) ∧
      (let t := wr s f_GEN_FW_CTL_OP 1
       afterBoot t = true → fwBusy t = false → ∀ b, fwFetch t err = (b, 0) →
        (le b 14 2 ≠ (t.boot.fw.map Fw.fwif).getD 0 / 2 ^ 16 →
          exec (.firmwareActivate err rt) s = .next (withQueue s (wr (wr t f_GEN_FW_CTL_RESULT 9) f_GEN_FW_CTL_GO 0))) ∧
        (le b 14 2 = (t.boot.fw.map Fw.fwif).getD 0 / 2 ^ 16 → let u := wr (wr t f_GEN_FW_CTL_RESULT 1) f_GEN_FW_CTL_GO 1
          exec (.firmwareActivate err rt) s = .next (withQueue s { u with boot := { u.boot with next := some (fwOf b rt) } })))) ∧
    (∀ f, s.boot.next = some f →
      let u := { s with
        boot := { s.boot with fw := some f, next := none, comps := [] }
        trn := { s.trn with cmd := s.trn.cmd.map (fun c => { c with at_ := s.clk }) } }
      let v := setReg u f_GEN_FWIF_MAJOR.key (BitVec.ofNat 64 f.fwif)
      exec .activationComplete s = .next (withQueue s (wr (wr v f_GEN_FW_CTL_RESULT 2) f_GEN_FW_CTL_GO 0))) ∧
    (let t := wr s f_GEN_FW_CTL_OP 2
     afterBoot t = true → fwBusy t = false → ∀ f, t.boot.fw = some f →
      exec .svnCommit s = .next (withQueue s (wr (wr { t with boot := { t.boot with rollback := max t.boot.rollback f.svn } } f_GEN_FW_CTL_RESULT 2)
        f_GEN_FW_CTL_GO 0))) ∧
    (rd s f_GEN_STATE_STATE = 4 → s.clk ≤ s.boot.goAt + 2000000000 →
      let v := wr s f_GEN_STATE_STATE (if partsLost s then 6 else 5)
      let w := setReg v f_GEN_FWIF_MAJOR.key (BitVec.ofNat 64 ((v.boot.fw.map Fw.fwif).getD 0))
      exec .firmwareReady s = .next (withQueue s (wr (wr w f_GEN_FW_CTL_RESULT 2) f_GEN_FW_CTL_GO 0))) ∧
    (rd s f_GEN_STATE_STATE = 4 → s.boot.goAt + 2000000000 ≤ s.clk →
      exec .bootTimeout s = .next (withQueue s (wr (wr (wr { s with boot := { s.boot with fw := none, comps := [] } } f_GEN_STATE_STATE 3)
        f_GEN_FW_CTL_RESULT 8) f_GEN_FW_CTL_GO 0))) ∧
    (∀ k : Fin 8, s.boot.fw.isSome = true → (compOf s k).stopped = false →
      let last := (compOf s k).crashes.take 3
      let stays := last.length = 3 ∧ s.clk ≤ last.getD 2 0 + 60000000000
      let t := sideDrops (compDrops s k) k
      (∀ c : Instr, c = .componentCrash k ∨ c = .componentHeartbeatMiss k →
        (stays → t.clk = s.clk → exec c s = .next (withQueue s (event (setComp t k ⟨s.clk :: last, true⟩) 0x19D 2 0x11 k))) ∧
        (¬ stays → t.clk = s.clk → exec c s = .next (withQueue s (event (setComp t k ⟨s.clk :: last, false⟩) 0x19D 3 0x10 k)))))

/-- Faults and telemetry (R425–R432): a window that is over closes with its count 0; clearing ACTIVE records a persisting condition again at most
once per 10 ms; clearing LASTING may bring the device back; a recovery ends when its resets are over; an injected event is an
event; a snapshot copies the counters at its instant, and the ditch rider reads them a period after it last did. -/
def Obligations.FaultsAndTelemetry : Prop :=
  ∀ s : State,
    (∀ src : Fin 512,
      (windowOver s src = true →
        exec (.faultWindowClose src) s = .next (wr { s with flt := { s.flt with win := sput 0 s.flt.win src 0 } } (f_FLT_STAT_WIN_COUNT src) 0)) ∧
      (barOpen s = true → rd s (f_FLT_STAT_ACTIVE src) = 1 →
        (rd s (f_FLT_STAT_PRESENT src) = 0 → exec (.faultClearActive src) s = .next (withQueue s
          (alertPin (errPin (wr (wr s (f_FLT_STAT_ACTIVE src) 0) (f_FLT_STAT_PINNED src) 0))))) ∧
        (rd s (f_FLT_STAT_PRESENT src) ≠ 0 →
          let last := sget 0 s.flt.rep src
          (last ≠ 0 → s.clk < last - 1 + 10000000 → exec (.faultClearActive src) s = .next (withQueue s (incF s f_FLT_HIST_DROP_V 1))) ∧
          (last = 0 ∨ last - 1 + 10000000 ≤ s.clk → exec (.faultClearActive src) s = .next (withQueue s
            (uncorr { s with flt := { s.flt with rep := sput 0 s.flt.rep src (1 + s.clk) } } src (condOf s src / 2 ^ 24) (condOf s src % 2 ^ 24) 0 true))))) ∧
      (barOpen s = true → rd s (f_FLT_STAT_LASTING src) = 1 →
        let t := closeWindow (wr s (f_FLT_STAT_LASTING src) 0) src
        exec (.faultClearLasting src) s = .next (withQueue s (if rd t f_GEN_STATE_STATE = 6 ∧
          (List.range 0x1A0).any (fun k => rd t (f_FLT_STAT_LASTING k) == 1) = false ∧ partsLost t = false then wr t f_GEN_STATE_STATE 5 else t)))) ∧
    (rd s f_FLT_PIN_RECOVERY = 1 → rstPending s = false →
      exec .recoveryEnd s = .next (wr { s with flt := { s.flt with nmi := 0, rsts := [] } } f_FLT_PIN_RECOVERY 0)) ∧
    (barOpen s = true → ∀ (cls : Fin 4) (src : BitVec 9) (code : Byte) (d : BitVec 24),
      (rd s f_FLT_INJ_AVAIL = 0 → exec (.faultInject cls src code d) s = .next (withQueue s (writeIgnored s))) ∧
      (rd s f_FLT_INJ_AVAIL = 1 →
        let t := wr (wr (wr (wr s f_FLT_INJ_CLASS cls) f_FLT_INJ_SOURCE src.toNat) f_FLT_INJ_CODE code.toNat) f_FLT_INJ_DETAIL d.toNat
        src.toNat ≤ 0x19F → srcInReset t src.toNat = false →
        (cls = 0 → exec (.faultInject cls src code d) s = .next (withQueue s (corr t src.toNat code.toNat d.toNat 1))) ∧
        (cls = 1 → exec (.faultInject cls src code d) s = .next (withQueue s (uncorr t src.toNat code.toNat d.toNat 1 false))) ∧
        (cls = 2 → exec (.faultInject cls src code d) s = .next (withQueue s (promoted t src.toNat code.toNat d.toNat 1))) ∧
        (cls = 3 → exec (.faultInject cls src code d) s = .next (withQueue s (infoEvent t src.toNat code.toNat d.toNat 1))))) ∧
    (barOpen s = true → rd s f_TEL_SNAP_CTL_ARM = 0 →
      let u := { s with flt := { s.flt with snap := 0 } }
      ((regv s f_TEL_SNAP_AT_V.key).toNat < now s →
        exec .telSnapArm s = .next (withQueue s (snapshot (wr (wr u f_TEL_SNAP_CTL_ARM 1) f_TEL_SNAP_CTL_LATE 1)))) ∧
      (now s ≤ (regv s f_TEL_SNAP_AT_V.key).toNat → exec .telSnapArm s = .next (wr (wr u f_TEL_SNAP_CTL_ARM 1) f_TEL_SNAP_CTL_LATE 0))) ∧
    (rd s f_TEL_SNAP_CTL_ARM = 1 → (regv s f_TEL_SNAP_AT_V.key).toNat ≤ now s → exec .snapshotCopy s = .next (withQueue s (snapshot s))) ∧
    (s.boot.fw.isSome = true → compStopped s 7 = false → pollDue s = true →
      exec .ditchRiderPoll s = .next (emit { s with flt := { s.flt with polled := 1 + s.clk } } (.side 0 3 (catalogue.flatMap (fun p => natLE 8 (regv s p.1).toNat)))))

/-- The TAP and the debug lock (R433, R436): each code selects its register; a nonce, its verification, LOCK and the expiry move the
lock's state. Debug commands (R434, R435): on a claimed cell in the unlock's scope each command has its effect and leaves status
0, or status 3 where the register or address gives none, or is refused without a claim; a read that has gone out through a port
leaves status busy, and while it does commands are ignored; a reset's level is that of the debug source, every cell of the unit
in scope; a fetch at a breakpoint halts the cell. -/
def Obligations.Debug : Prop :=
  (∀ s : State,
    let ir (k : Nat) : State := { s with dbg := { s.dbg with ir := k } }
    (exec .extest s = .next (emit (ir 0) (.side 4 0 s.dbg.bscan))) ∧
    (∀ d : List Byte, ∀ pins t, freshBytes (ir 1) d.length = (pins, t) →
      exec (.samplePreload d) s = .next (withQueue s (emit { t with dbg := { t.dbg with bscan := d } } (.side 4 1 pins)))) ∧
    (∀ code : Byte, code.toNat ∉ [0x00, 0x01, 0x10, 0x11, 0x12] → exec (.bypass code) s = .next (ir code.toNat)) ∧
    (∀ c : Fin 256, exec (.dsel c) s = .next { s with dbg := { s.dbg with ir := 0x10, sel := c } }) ∧
    (∀ w : DWord,
      let u := match s.dbg.wait with
        | some (c, a) => dbgRead (ir 0x12) c a
        | none => ir 0x12
      exec (.ddata w) s = .next (withQueue s { emit u (.rdata 6 (natLE 8 u.dbg.result.toNat ++ natLE 1 u.dbg.status)) with
        dbg := { u.dbg with wdata := w } })) ∧
    (barOpen s = true →
      (s.boot.fw.isSome = true →
        (∀ n t, freshBytes s 32 = (n, t) →
          let u := (List.range 8).foldl (fun s i => wr s (f_DBG_CHAL_V i) (le n (4 * i) 4)) t
          let v := if rd u f_DBG_CTL_STATE = 2 then u else wr u f_DBG_CTL_STATE 1
          exec .debugNonceRequest s = .next (withQueue s { v with dbg := { v.dbg with nonceAt := 1 + v.clk } })) ∧
        (let r := regBytes s f_DBG_RESP_V 64
         let t := wr s f_DBG_CTL_RESULT (dbgCheck s r)
         (dbgCheck s r = 1 →
            let u := wr { t with dbg := { t.dbg with nonceAt := 0, until_ := t.clk + 1000000000 * le r 4 4 } } f_DBG_CTL_STATE 2
            exec .debugVerify s = .next (withQueue s (if rd t f_DBG_CTL_STATE = 2 then u else event u 0x19F 3 0x16 0))) ∧
         (dbgCheck s r = 5 →
            exec .debugVerify s = .next (if rd t f_DBG_CTL_STATE = 1 then wr t f_DBG_CTL_STATE 0 else t)) ∧
         (dbgCheck s r = 2 ∨ dbgCheck s r = 3 ∨ dbgCheck s r = 4 → exec .debugVerify s = .next t))) ∧
      (rd s f_DBG_CTL_STATE = 2 → exec .debugLock s = .next (withQueue s (relock s))) ∧
      (rd s f_DBG_CTL_STATE ≠ 2 → exec .debugLock s = .next { wr s f_DBG_CTL_STATE 0 with dbg := { s.dbg with nonceAt := 0 } })) ∧
    (rd s f_DBG_CTL_STATE = 2 → s.dbg.until_ ≤ s.clk → exec .debugUnlockExpiry s = .next (withQueue s (relock s))) ∧
    (s.dbg.nonceAt ≠ 0 → s.dbg.nonceAt - 1 + 60000000000 < s.clk →
      exec .nonceVoid s = .next { (if rd s f_DBG_CTL_STATE = 1 then wr s f_DBG_CTL_STATE 0 else s) with dbg := { s.dbg with nonceAt := 0 } })) ∧
  ((∀ s : State,
    let t := tapIr s 0x11
    let c := s.dbg.sel
    let x := cellOf t c
    let ok (u : State) (r : DWord) : State := { u with dbg := { u.dbg with status := 0, result := r } }
    let bad (u : State) : State := { u with dbg := { u.dbg with status := 3, result := 0 } }
    (dbgBusy t = true → ∀ cmd ∈ [Instr.debugStatus, .claim, .debugRelease, .halt, .resume, .step, .debugReset], exec cmd s = .next t) ∧
    (dbgBusy t = false → exec .debugStatus s = .next (ok t (BitVec.ofNat 64 (dstat x)))) ∧
    (dbgBusy t = false → dbgOpen t = false ∨ cellInScope t c = false ∨ x.dbg.claimed = false →
      (∀ cmd ∈ [Instr.debugRelease, .halt, .resume, .step, .debugReset], exec cmd s = .next (withQueue s (dbgRefuse t))) ∧
      (∀ a : Word, ∀ cmd ∈ [Instr.rdReg a, .wrReg a, .rdMem a, .wrMem a], exec cmd s = .next (withQueue s (dbgRefuse t)))) ∧
    (dbgBusy t = false → dbgOpen t = true → cellInScope t c = true →
      exec .claim s = .next (withQueue s (ok (modCell t c (fun x => { x with dbg := { x.dbg with claimed := true } })) 0)) ∧
      (x.dbg.claimed = true →
        exec .debugRelease s = .next (withQueue s (ok (parkCheck (modCell t c releaseCell) c) 0)) ∧
        exec .halt s = .next (withQueue s (ok (modCell t c haltAt) 0)) ∧
        exec .resume s = .next (withQueue s (ok (parkCheck (modCell t c (fun x => resumeCell x false)) c) 0)) ∧
        exec .step s = .next (withQueue s (ok (parkCheck (modCell t c (fun x => resumeCell x true)) c) 0)) ∧
        (sourceLevel t 15 = 2 → exec .debugReset s = .next (withQueue s (ok (reqCellReset (seen t 15) 0x19F c) 0))) ∧
        (sourceLevel t 15 = 3 → (List.range 4).all (fun i => cellInScope t (c / 4 * 4 + i)) = true →
          exec .debugReset s = .next (withQueue s (ok (reqBlockReset (seen t 15) 0x19F (c / 4)) 0))) ∧
        (sourceLevel t 15 = 4 → (List.range 16).all (fun i => cellInScope t (c / 16 * 16 + i)) = true →
          exec .debugReset s = .next (withQueue s (ok (reqRegionReset (seen t 15) 0x19F (c / 16)) 0))) ∧
        (sourceLevel t 15 = 6 → (liveTurns t).all (turnInScope t) = true →
          exec .debugReset s = .next (withQueue s (chipSource t 15 t.clk))) ∧
        (x.k.run ≠ .debug → ∀ a : Word, ∀ cmd ∈ [Instr.rdReg a, .wrReg a, .rdMem a, .wrMem a], exec cmd s = .next (withQueue s (bad t))) ∧
        (x.k.run = .debug →
          (∀ a : Word, (∀ v, rdReg t c x a.toNat = some v → exec (.rdReg a) s = .next (withQueue s (ok t (v.zeroExtend 64)))) ∧
            (rdReg t c x a.toNat = none → exec (.rdReg a) s = .next (withQueue s (bad t))) ∧
            (∀ y, wrReg t x a.toNat (t.dbg.wdata.truncate 32) = some y → exec (.wrReg a) s = .next (withQueue s (ok (setCell t c y) 0))) ∧
            (wrReg t x a.toNat (t.dbg.wdata.truncate 32) = none → exec (.wrReg a) s = .next (withQueue s (bad t)))) ∧
          (∀ a : Word, a.toNat % 8 ≠ 0 → ∀ cmd ∈ [Instr.rdMem a, .wrMem a], exec cmd s = .next (withQueue s (bad t))) ∧
          (∀ a : Word, a.toNat % 8 = 0 → ∀ u,
            let clear (r : State → State) : State :=
              let v := dropAsks u (fun x => decide (x = .debug))
              r { v with dbg := { v.dbg with wait := none } }
            (∀ l, dbgLoad t c a.toNat = (.ok l, u) →
              exec (.rdMem a) s = .next (withQueue s (clear (fun v => ok v (BitVec.ofNat 64 (leNat l)))))) ∧
            (∀ q, dbgLoad t c a.toNat = (.error (.wait q), u) → let v := askPort u q
              exec (.rdMem a) s = .next (withQueue s { v with dbg := { v.dbg with wait := some (c, a.toNat), status := 1, result := 0 } })) ∧
            (dbgLoad t c a.toNat = (.error .denied, u) → exec (.rdMem a) s = .next (withQueue s (clear bad))) ∧
            (dbgStore t c a.toNat (natLE 8 t.dbg.wdata.toNat) = (true, u) → exec (.wrMem a) s = .next (withQueue s (ok u 0))) ∧
            (dbgStore t c a.toNat (natLE 8 t.dbg.wdata.toNat) = (false, u) → exec (.wrMem a) s = .next (withQueue s (bad u)))))))) ∧
  (∀ (s : State) (c : Fin 256) (i : Nat), canIssue s c = true → fetchCheck s c = .bp i → exec (.breakpointHit c) s = .next (withQueue s (dbgHalt s c 2 i))))

/-- Power, heat and droop (R443–R447, R456) while the device's clocks run: a measurement sets POWER and moves STEP one down, to 4 at
least, while the limit is exceeded or a sensor is at THROTTLE, and one up after enough low ones; PROCHOT_N forces step 4, one that
falls in reset is held for later; a sensor at 120 °C trips, in reset too; a region's stretch starts at its first trip, counts once
and ends 1 µs after the last. -/
def Obligations.PowerManagement : Prop :=
  ∀ s : State,
    (clocksRun s = true → ∀ l : List (Fin 11 × BitVec 16),
      let t := takeReadings s l
      let p := t.pwr.readings.foldl (fun a r => a + r.2) 0
      let u := wr t f_PWR_STAT_POWER (min p 65535)
      let k := rd u f_PWR_STAT_STEP
      let above := decide (powerLimit u < p)
      let free := u.pwr.silent.isEmpty && rd u f_PWR_STAT_PROCHOT == 0
      let low := if rd u f_PWR_STAT_PROCHOT = 1 ∨ 95 * powerLimit u ≤ 100 * p then 0 else u.pwr.low + 1
      let down := free && (above || u.pwr.hot)
      let up := free && !above && !u.pwr.hot && !u.pwr.noRise && decide (rd u f_PWR_CAP_RAISE ≤ low) && decide (k < 16)
      let next := if down then max 4 (k - 1) else if up then k + 1 else k
      let v := wr (wr u f_PWR_STAT_STEP next) f_PWR_STAT_CAPPED (if above then 1 else if next = 16 then 0 else rd u f_PWR_STAT_CAPPED)
      let w := { v with pwr := { v.pwr with overLimit := above && decide (k ≤ 4), low := if up then 0 else low } }
      exec (.powerMeasurement l) s =
        .next (withQueue s (if above && decide (k ≤ 4) && !u.pwr.overLimit then event w 0x19B 1 0x14 0x80 else w))) ∧
    (let pin (b : Bool) : State := { s with pwr := { s.pwr with pin := b } }
     (clocksRun s = true → rd s f_PWR_STAT_PROCHOT = 0 →
       exec .prochotAssert s = .next (withQueue s (condEvent (wr (wr (pin true) f_PWR_STAT_STEP 4) f_PWR_STAT_PROCHOT 1) 0x19C 0x13 0xFF))) ∧
     (clocksRun s = false → exec .prochotAssert s = .next (pin true)) ∧
     (rd s f_PWR_STAT_PROCHOT = 0 → exec .prochotRelease s = .next (pin false)) ∧
     (rd s f_PWR_STAT_PROCHOT = 1 →
       let u := wr (pin false) f_PWR_STAT_PROCHOT 0
       (s.pwr.hotSrc = 0 → exec .prochotRelease s = .next (withQueue s (clearPresent u 0x19C))) ∧
       (s.pwr.hotSrc ≠ 0 → exec .prochotRelease s = .next (withQueue s (setPresent u 0x19C 0x13 (s.pwr.hotSrc - 1)))))) ∧
    (∀ t : List Byte,
      let top := t.foldl (fun a b => max a b.toNat) 0
      let k := t.findIdx (fun b => b.toNat == top)
      let lim := rd s f_PWR_THERM_THROTTLE
      let u := wr s f_PWR_THERM_HOTTEST top
      let v := if clocksRun s = true then hotEvent { u with pwr := { u.pwr with
        sensors := (List.range t.length).foldl (fun m i => sput 0 m i (t.getD i 0).toNat) []
        hot := decide (lim ≤ top)
        noRise := decide (lim ≤ top) || (s.pwr.noRise && decide (lim < top + 3)) } } k top else s
      (top < 120 ∨ v.boot.powered = false → exec (.thermalSensorRead t) s = .next (withQueue s v)) ∧
      (120 ≤ top → v.boot.powered = true → exec (.thermalSensorRead t) s = .next (withQueue s (tripReset v 13 1 k true)))) ∧
    (∀ r : Fin 16,
      (clocksRun s = true →
        let t := { s with pwr := { s.pwr with droop := sput 0 s.pwr.droop r (1 + s.clk) } }
        (rd t (f_RGN_CLK_STAT_STRETCHED r) = 1 → exec (.droopTrip r) s = .next t) ∧
        (rd t (f_RGN_CLK_STAT_STRETCHED r) ≠ 1 →
          exec (.droopTrip r) s = .next (withQueue s (incF (wr t (f_RGN_CLK_STAT_STRETCHED r) 1) (f_RGN_CLK_STAT_STRETCH_COUNT r) 1)))) ∧
      (rd s (f_RGN_CLK_STAT_STRETCHED r) = 1 → sget 0 s.pwr.droop r + 1000 ≤ s.clk →
        exec (.droopHoldEnd r) s = .next { wr s (f_RGN_CLK_STAT_STRETCHED r) 0 with pwr := { s.pwr with droop := sput 0 s.pwr.droop r 0 } })) ∧
    (clocksRun s = true → ∀ r : Fin 11, exec (.regulatorTimeout r) s =
      .next (withQueue s (event { s with pwr := { s.pwr with silent := nadd s.pwr.silent r } } 0x19B 1 0x14 r)))

/-- The sideband (R451–R459): requests queue up to sixteen, and the boot ROM answers MCTP control alone; a second failed I2C try, 1 ms
after the first, and a bus fault record event 15h; a shorted pad does, and that of the slot chain's output counts as a frame error;
HEALTH toggles each 0.5 ms while the device is alive. -/
def Obligations.Sidebands : Prop :=
  ∀ s : State,
    (s.boot.inRst = false → s.boot.powered = true → rd s f_GEN_STATE_STATE ≠ 0 → ∀ r : SideReq, r ≠ .other →
      (afterBoot s = false → (∀ c a, r = .mctp c a → exec (.smbusRequest r) s = .next (withQueue s (serveMctp s c a))) ∧
        ((∀ c a, r ≠ .mctp c a) → (∀ v, r ≠ .setTod v) → exec (.smbusRequest r) s = .next (emit s (.side 0 1 [])))) ∧
      (afterBoot s = true → compStopped s 6 = true → exec (.smbusRequest r) s = .next (emit s (.side 0 2 []))) ∧
      (afterBoot s = true → compStopped s 6 = false → s.boot.activating = false →
        (16 ≤ s.side.queue.length → exec (.smbusRequest r) s = .next (emit s (.side 0 1 []))) ∧
        (s.side.queue.length < 16 → exec (.smbusRequest r) s = .next { s with side := { s.side with queue := s.side.queue ++ [r] } }))) ∧
    (s.boot.inRst = false → fwServes s = true → compStopped s 6 = false → ∀ v : DWord,
      let t := setReg s f_TMB_TOD_NEXT_V.key v
      exec (.setTod v) s = .next (emit { t with tb := { t.tb with tod := true } } (.side 0 0 []))) ∧
    (clocksRun s = true → s.side.i2cFails = 0 ∨ s.side.i2cRetry ≤ s.clk →
      let set (n t : Nat) : State := { s with side := { s.side with i2cFails := n, i2cRetry := t } }
      exec (.i2cTransaction 0) s = .next (set 0 0) ∧ exec (.i2cTransaction 1) s = .next s ∧
      (s.side.i2cFails = 0 → exec (.i2cTransaction 2) s = .next (set 1 (s.clk + 1000000))) ∧
      (s.side.i2cFails ≠ 0 → exec (.i2cTransaction 2) s = .next (withQueue s (event (set 0 0) 0x19D 1 0x15 (1 + 256 * 3))))) ∧
    (clocksRun s = true → ∀ (b : Fin 2) (n : Fin 10),
      exec (.i2cBusClear b n 2) s = .next (withQueue s (busFault s (1 + b.val) 1 0)) ∧
      (sget 0 s.side.clear b = 0 ∨ sget 0 s.side.clear b - 1 + 1000000000 ≤ s.clk →
        let t := emit s (.side 2 (1 + b.val) (natLE 1 n))
        let u := emit s (.side 2 (1 + b.val) (natLE 1 9))
        exec (.i2cBusClear b n 0) s = .next { t with side := { t.side with clear := sput 0 t.side.clear b 0 } } ∧
        exec (.i2cBusClear b n 1) s = .next (withQueue s (busFault { u with side := { u.side with clear := sput 0 u.side.clear b (1 + u.clk) } } (1 + b.val) 0 0)))) ∧
    (healthy s = false → exec .healthToggle s = .next { s with side := { s.side with health := false, healthAt := 0 } }) ∧
    (healthy s = true → s.side.healthAt = 0 ∨ s.side.healthAt - 1 + 500000 ≤ s.clk →
      exec .healthToggle s = .next (emit { s with side := { s.side with health := !s.side.health, healthAt := 1 + s.clk } }
        (.side 3 0 (natLE 1 (b2n (!s.side.health)))))) ∧
    (∀ (p : Fin 48) (b : Nat), pullBus p = some b →
      (clocksRun s = true → exec (.pullupTest p true) s = .next (withQueue s (busFault s b 2 p))) ∧ exec (.pullupTest p false) s = .next s) ∧
    (clocksRun s = true → ∀ p : Fin 48, drivenPin p = true →
      let t := busFault s (if p.val = 24 ∨ p.val = 25 then 3 else if p.val = 15 then 0 else 4) 4 p
      exec (.padShortDetect p) s = .next (withQueue s (if p.val = 29 then slotBad t else t)))

/-- Accesses from outside (R8, R9, R242–R251, R465): a register write is the access of its BAR: CQS_CFG.TMO takes its field, a
reserved value is ignored and counted, and before the firmware is loaded nothing changes; a request in BAR4 reaches HBM at the
offset, one beyond the BAR is unsupported; a request between downstream links goes direct in its own hierarchy unless ACS turns it
away or redirects it; a configuration request finds its target by its bus, device and function number: none is answered as
unsupported, one that is not ready with a retry, a device below gets it. -/
def Obligations.OutsideAccesses : Prop :=
  (∀ (s : State) (src : RegSrc) (off : BitVec 26) (wide : Bool) (v : DWord),
    exec (.registerWrite src off wide v) s = .next (withQueue s (barWrite s src off.toNat wide v)) ∧
    (off.toNat % 4 ≠ 0 → exec (.registerWrite src off wide v) s = .next s)) ∧
  (∀ (s : State) (v : DWord), (fnOf s fnPF0).d3 = false →
    (fwLoaded s = false → exec (.registerWrite .pf0 0xE00000 false v) s = .next s) ∧
    (fwLoaded s = true → v.toNat % 2 ^ 16 ≠ 0 →
      exec (.registerWrite .pf0 0xE00000 false v) s = .next (wr s f_CQS_CFG_TMO (v.toNat % 2 ^ 16))) ∧
    (fwLoaded s = true → v.toNat % 2 ^ 16 = 0 → exec (.registerWrite .pf0 0xE00000 false v) s = .next (withQueue s (writeIgnored s)))) ∧
  (∀ (s : State) (off : BitVec 38) (q : MemReq),
    ((fnOf s fnPF0).d3 = true ∨ 2 ^ bar4Bits s ≤ off.toNat → exec (.bar4Access off q) s = .next (emit s (.rdata 3 []))) ∧
    ((fnOf s fnPF0).d3 = false → off.toNat < 2 ^ bar4Bits s →
      (∀ t, hbmAccess s (bar4Addr s off.toNat) q = (none, t) → exec (.bar4Access off q) s = .next (withQueue s (emit t (.rdata 3 [])))) ∧
      (∀ n l t, q = .read n → hbmAccess s (bar4Addr s off.toNat) q = (some l, t) → exec (.bar4Access off q) s = .next (withQueue s (emit t (.rdata 1 l)))) ∧
      (∀ d l t, q = .write d → hbmAccess s (bar4Addr s off.toNat) q = (some l, t) → exec (.bar4Access off q) s = .next (withQueue s t)))) ∧
  (∀ (s : State) (k : Fin 16) (p : Nat) (h : P2PHead) (q : MemReq), dpUp s (k.val % 8) = some p → (dpOf s k).active = true →
    (acsViolation s k h.rid.toNat h.at_ = true →
      exec (.p2pRequest k h q) s = .next (withQueue s (emit (aerLog s (1032 + k) 21) (.rdata 3 [])))) ∧
    (acsViolation s k h.rid.toNat h.at_ = false →
      (∀ src off, h.dst = .bar0 src off →
        (portOfSrc s src = p → srcAnswers s src = true → exec (.p2pRequest k h q) s = .next (withQueue s (bar0Do s src off.toNat q))) ∧
        (portOfSrc s src ≠ p ∨ srcAnswers s src = false → exec (.p2pRequest k h q) s = .next (emit s (.rdata 3 [])))) ∧
      (∀ off, h.dst = .bar4 off → rd s f_HEP_TOPO_MGR_UP = p → exec (.p2pRequest k h q) s = exec (.bar4Access off q) s) ∧
      (∀ j, h.dst = .port j →
        (dpUp s (j.val % 8) ≠ some p → exec (.p2pRequest k h q) s = .next (emit s (.rdata 3 []))) ∧
        (dpUp s (j.val % 8) = some p → j ≠ k →
          (acsRedirect s k h.at_ = true → (upOf s p).link = true → exec (.p2pRequest k h q) s = .next (emit s (.tlp p 5 (reqData q)))) ∧
          (acsRedirect s k h.at_ = false → (dpOf s j).active = true →
            exec (.p2pRequest k h q) s = .next (emit s (.tlp (2 + j.val) 5 (reqData q)))) ∧
          (acsRedirect s k h.at_ = false → (dpOf s j).active = false →
            exec (.p2pRequest k h q) s = .next (emit s (.rdata (if (dpOf s j).dpcTrig && !bit (dpOf s j).dpcCtl 2 then 4 else 3) []))))) ∧
      (h.dst = .up → (upOf s p).link = true → exec (.p2pRequest k h q) s = .next (emit s (.tlp p 5 (reqData q)))))) ∧
  (∀ (s : State) (p : Fin 2) (d : CfgDst) (r : CfgReg), (upOf s p).link = true →
    (cfgTarget s p d = none → ∀ w, exec (.configRequest p d r w) s = .next (emit s (.rdata 3 []))) ∧
    (∀ k, cfgTarget s p d = some (.below k) → (dpOf s k).active = true →
      exec (.configRequest p d r none) s = .next (emit s (.tlp (2 + k) 6 [])) ∧
      (∀ v : Word, exec (.configRequest p d r (some v)) s = .next (emit s (.tlp (2 + k) 6 (natLE 4 v.toNat))))) ∧
    (∀ x, cfgTarget s p d = some x → (∀ k, x ≠ .below k) →
      (cfgRetry s p x = true → ∀ w, exec (.configRequest p d r w) s = .next (emit s (.rdata 2 []))) ∧
      (cfgRetry s p x = false →
        exec (.configRequest p d r none) s = .next (emit s (.rdata 1 (natLE 4 (cfgRead s p x r)))) ∧
        (∀ v : Word, exec (.configRequest p d r (some v)) s = .next (withQueue s (emit (cfgWrite s p x r v.toNat) (.rdata 1 [])))))))
end

