-- ==== Sys2Proof/Laws/Flume.lean ====
section
/-! SUPPORT. Laws/Flume.lean: the way of a packet changes the flume alone, and what a write that merges does. -/

namespace Sys2Proof.Machine

/-- A walk whose every stage changes the flume alone changes the flume alone. -/
theorem foldl_fab {α : Type} (f : State → α → State) (hf : ∀ s a, ∃ b, f s a = { s with fab := b }) (s : State) (l : List α) :
    ∃ b, l.foldl f s = { s with fab := b } := by
  induction l generalizing s with
  | nil => exact ⟨s.fab, rfl⟩
  | cons a r ih =>
    obtain ⟨b, hb⟩ := hf s a
    obtain ⟨c, hc⟩ := ih (f s a)
    exact ⟨c, by rw [List.foldl_cons, hc, hb]⟩

/-- The grants before a turn change the flume alone. -/
theorem grantsBefore_frame (s : State) (r j : Nat) : ∃ b, grantsBefore s r j = { s with fab := b } :=
  foldl_fab _ (fun t i => by
    split
    · split
      · exact ⟨_, rfl⟩
      · exact ⟨t.fab, rfl⟩
    · exact ⟨t.fab, rfl⟩) s _

/-- A turn at a local input changes the flume alone. -/
theorem turnOf_frame (s : State) (p : Packet) : ∃ b, turnOf s p = { s with fab := b } := by
  unfold turnOf
  split
  · obtain ⟨b, hb⟩ := grantsBefore_frame s (routerAt p.src) (localPort p.src)
    exact ⟨_, by rw [hb]; rfl⟩
  · exact ⟨s.fab, rfl⟩

/-- The travel of a packet changes the flume alone, whether it arrives or waits on its way. -/
theorem arrive_frame (s : State) (p : Packet) : ∃ b, (arrive s p).2 = { s with fab := b } := by
  unfold arrive
  split
  · exact ⟨s.fab, rfl⟩
  · rename_i q _
    split
    · exact ⟨s.fab, rfl⟩
    · obtain ⟨b, hb⟩ : ∃ b, (if reach s q = q.hop then s else turnOf s q) = { s with fab := b } := by
        split
        · exact ⟨s.fab, rfl⟩
        · exact turnOf_frame s q
      simp only [hb]
      split
      · exact ⟨_, rfl⟩
      · dsimp only
        split
        · exact ⟨b, rfl⟩
        · exact ⟨_, rfl⟩

/-- A write over words that it may merge into is performed after their single-bit errors have been corrected. -/
theorem putMem_ok {s : State} {a : Nat} {l : List Byte} (p : Bool) (h : mergeBad s a l.length = false) :
    putMem s a l p = (true, storeBytes (mergeFix s a l.length) a l p) := by simp [putMem, h]

/-- A write that would have to merge into an uncorrectable word is not performed. -/
theorem putMem_refused {s : State} {a : Nat} {l : List Byte} (p : Bool) (h : mergeBad s a l.length = true) :
    putMem s a l p = (false, mergeUE s a l.length) := by simp [putMem, h]

/-- A write of whole words merges into none. -/
theorem mergeFix_aligned {s : State} {a n : Nat} (ha : 8 ∣ a) (hn : 8 ∣ n) : mergeFix s a n = s := by
  have h : edgeWords a n = [] := by
    unfold edgeWords
    rw [if_neg (by omega), if_neg (by omega)]
    rfl
  simp [mergeFix, h]

end Sys2Proof.Machine
end

