-- ==== Sys2Proof/Laws/Store.lean ====
section
/-! SUPPORT. Laws/Store.lean: what the sparse stores do: a read after a write at the same key and at another key, and that every
operation keeps the canonical form. -/

namespace Sys2Proof.Machine

variable {α : Type} [DecidableEq α] {d v : α} {m : SMap α} {j k a : Nat}

/-- Every key of a tail lies above the head of a canonical store. -/
theorem swf_cons {p : Nat × α} : swf d (p :: m) = true ↔ p.2 ≠ d ∧ (∀ q ∈ m, p.1 < q.1) ∧ swf d m = true := by
  obtain ⟨k, w⟩ := p
  simp [swf, and_assoc]

omit [DecidableEq α] in
/-- A key below every listed key reads as the default. -/
theorem sget_below (h : ∀ q ∈ m, k < q.1) : sget d m k = d := by
  induction m with
  | nil => rfl
  | cons p r ih =>
    obtain ⟨i, w⟩ := p
    have hi : k < i := h (i, w) (by simp)
    have : i ≠ k := by omega
    simp only [sget, this, if_false]
    exact ih (fun q hq => h q (by simp [hq]))

/-- The keys of a store after a write are those before it and the key written. -/
theorem mem_sput {p : Nat × α} (h : p ∈ sput d m k v) : p.1 = k ∨ p ∈ m := by
  induction m with
  | nil =>
    simp only [sput] at h
    split at h <;> simp_all
  | cons q r ih =>
    obtain ⟨i, w⟩ := q
    simp only [sput] at h
    split at h
    · split at h
      · exact .inr h
      · rcases List.mem_cons.1 h with rfl | h
        · exact .inl rfl
        · exact .inr h
    · split at h
      · split at h
        · exact .inr (by simp [h])
        · rcases List.mem_cons.1 h with rfl | h
          · exact .inl rfl
          · exact .inr (by simp [h])
      · rcases List.mem_cons.1 h with rfl | h
        · exact .inr (by simp)
        · rcases ih h with h | h
          · exact .inl h
          · exact .inr (by simp [h])

/-- A write keeps the canonical form. -/
theorem swf_sput (h : swf d m = true) : swf d (sput d m k v) = true := by
  induction m with
  | nil =>
    simp only [sput]
    split
    · rfl
    · simp_all [swf]
  | cons q r ih =>
    obtain ⟨i, w⟩ := q
    obtain ⟨hw, hlt, hr⟩ := swf_cons.1 h
    simp only [sput]
    split
    · rename_i hki
      split
      · exact h
      · rename_i hv
        refine swf_cons.2 ⟨hv, ?_, h⟩
        intro q hq
        rcases List.mem_cons.1 hq with rfl | hq
        · exact hki
        · exact Nat.lt_trans hki (hlt q hq)
    · split
      · rename_i hik
        split
        · exact hr
        · rename_i hv
          refine swf_cons.2 ⟨hv, ?_, hr⟩
          intro q hq
          have := hlt q hq
          simp only at this ⊢
          omega
      · rename_i h1 h2
        refine swf_cons.2 ⟨hw, ?_, ih hr⟩
        intro q hq
        rcases mem_sput hq with h3 | h3
        · simp only
          omega
        · exact hlt q h3

omit [DecidableEq α] in
/-- Every key of a tail lies above the head of a store with rising keys. -/
theorem rising_cons {p : Nat × α} : rising (p :: m) = true ↔ (∀ q ∈ m, p.1 < q.1) ∧ rising m = true := by
  obtain ⟨k, w⟩ := p
  simp [rising]

/-- A canonical store has rising keys. -/
theorem rising_of_swf (h : swf d m = true) : rising m = true := by
  induction m with
  | nil => rfl
  | cons p r ih =>
    obtain ⟨_, hlt, hr⟩ := swf_cons.1 h
    exact rising_cons.2 ⟨hlt, ih hr⟩

/-- A write keeps the keys rising. -/
theorem rising_sput (h : rising m = true) : rising (sput d m k v) = true := by
  induction m with
  | nil =>
    simp only [sput]
    split <;> simp [rising]
  | cons q r ih =>
    obtain ⟨i, w⟩ := q
    obtain ⟨hlt, hr⟩ := rising_cons.1 h
    simp only [sput]
    split
    · rename_i hki
      split
      · exact h
      · refine rising_cons.2 ⟨?_, h⟩
        intro q hq
        rcases List.mem_cons.1 hq with rfl | hq
        · exact hki
        · exact Nat.lt_trans hki (hlt q hq)
    · split
      · rename_i hik
        split
        · exact hr
        · refine rising_cons.2 ⟨?_, hr⟩
          intro q hq
          have := hlt q hq
          simp only at this ⊢
          omega
      · rename_i h1 h2
        refine rising_cons.2 ⟨?_, ih hr⟩
        intro q hq
        rcases mem_sput hq with h3 | h3
        · simp only
          omega
        · exact hlt q h3

/-- A read at the key of a write to a store with rising keys gives what was written. -/
theorem sget_sput_rising (h : rising m = true) : sget d (sput d m k v) k = v := by
  induction m with
  | nil =>
    simp only [sput]
    split <;> simp_all [sget]
  | cons q r ih =>
    obtain ⟨i, w⟩ := q
    obtain ⟨hlt, hr⟩ := rising_cons.1 h
    simp only [sput]
    split
    · rename_i hki
      split
      · rename_i hv
        rw [hv]
        refine sget_below ?_
        intro q hq
        rcases List.mem_cons.1 hq with rfl | hq
        · exact hki
        · exact Nat.lt_trans hki (hlt q hq)
      · simp [sget]
    · split
      · rename_i hik
        split
        · rename_i hv
          rw [hv]
          refine sget_below ?_
          intro q hq
          have := hlt q hq
          simp only at this
          omega
        · simp [sget]
      · rename_i h2
        simp only [sget, h2, if_false]
        exact ih hr

/-- A read at the key of a write gives what was written. -/
theorem sget_sput_same (h : swf d m = true) : sget d (sput d m k v) k = v := sget_sput_rising (rising_of_swf h)

/-- A read at another key is unchanged by a write. -/
theorem sget_sput_other (hjk : j ≠ k) : sget d (sput d m k v) j = sget d m j := by
  induction m with
  | nil =>
    simp only [sput]
    split
    · rfl
    · have : k ≠ j := fun e => hjk e.symm
      simp [sget, this]
  | cons q r ih =>
    obtain ⟨i, w⟩ := q
    have hkj : k ≠ j := fun e => hjk e.symm
    simp only [sput]
    split
    · split
      · rfl
      · simp [sget, hkj]
    · split
      · rename_i hik
        have hij : i ≠ j := by omega
        split
        · simp [sget, hij]
        · simp [sget, hkj, hij]
      · by_cases hij : i = j
        · simp [sget, hij]
        · simp only [sget, hij, if_false]
          exact ih

/-- Returning a range to the default keeps the canonical form. -/
theorem swf_sclear (n : Nat) (h : swf d m = true) : swf d (sclear m a n) = true := by
  induction m with
  | nil => rfl
  | cons q r ih =>
    obtain ⟨hw, hlt, hr⟩ := swf_cons.1 h
    unfold sclear
    rw [List.filter_cons]
    split
    · refine swf_cons.2 ⟨hw, ?_, ih hr⟩
      intro p hp
      exact hlt p (List.mem_filter.1 hp).1
    · exact ih hr

omit [DecidableEq α] in
/-- A key of a cleared range reads as the default. -/
theorem sget_sclear_in {n : Nat} (h1 : a ≤ k) (h2 : k < a + n) : sget d (sclear m a n) k = d := by
  induction m with
  | nil => rfl
  | cons q r ih =>
    obtain ⟨i, w⟩ := q
    unfold sclear
    rw [List.filter_cons]
    split
    · rename_i hf
      have : i ≠ k := by
        rintro rfl
        simp [h1, h2] at hf
      simp only [sget, this, if_false]
      exact ih
    · exact ih

omit [DecidableEq α] in
/-- A key outside a cleared range reads as before. -/
theorem sget_sclear_out {n : Nat} (h : k < a ∨ a + n ≤ k) : sget d (sclear m a n) k = sget d m k := by
  induction m with
  | nil => rfl
  | cons q r ih =>
    obtain ⟨i, w⟩ := q
    unfold sclear
    rw [List.filter_cons]
    split
    · by_cases hik : i = k
      · simp [sget, hik]
      · simp only [sget, hik, if_false]
        exact ih
    · rename_i hf
      have hik : i ≠ k := by
        rintro rfl
        apply hf
        simp only [Bool.not_eq_true', Bool.and_eq_false_iff, decide_eq_false_iff_not]
        omega
      simp only [sget, hik, if_false]
      exact ih

/-- Storing a list of bytes keeps the canonical form. -/
theorem swf_putBytes {b : Byte} {n : SMap Byte} {l : List Byte} (h : swf b n = true) : swf b (putBytes b n a l) = true := by
  induction l generalizing n a with
  | nil => exact h
  | cons x r ih => exact ih (swf_sput h)

end Sys2Proof.Machine
end

