-- ==== Sys2Proof/Laws/State.lean ====
section
/-! SUPPORT. Laws/State.lean: what each basic update leaves of every field, so that no later proof unfolds a record update. -/

namespace Sys2Proof.Machine

/-! ### setReg -/

@[simp] theorem setReg_clk (s : State) (o : Nat) (v : DWord) : (setReg s o v).clk = s.clk := rfl
@[simp] theorem setReg_free (s : State) (o : Nat) (v : DWord) : (setReg s o v).free = s.free := rfl
@[simp] theorem setReg_seq (s : State) (o : Nat) (v : DWord) : (setReg s o v).seq = s.seq := rfl
@[simp] theorem setReg_tb (s : State) (o : Nat) (v : DWord) : (setReg s o v).tb = s.tb := rfl
@[simp] theorem setReg_m (s : State) (o : Nat) (v : DWord) : (setReg s o v).m = s.m := rfl
@[simp] theorem setReg_cells (s : State) (o : Nat) (v : DWord) : (setReg s o v).cells = s.cells := rfl
@[simp] theorem setReg_fab (s : State) (o : Nat) (v : DWord) : (setReg s o v).fab = s.fab := rfl
@[simp] theorem setReg_lev (s : State) (o : Nat) (v : DWord) : (setReg s o v).lev = s.lev := rfl
@[simp] theorem setReg_fur (s : State) (o : Nat) (v : DWord) : (setReg s o v).fur = s.fur := rfl
@[simp] theorem setReg_infl (s : State) (o : Nat) (v : DWord) : (setReg s o v).infl = s.infl := rfl
@[simp] theorem setReg_mim (s : State) (o : Nat) (v : DWord) : (setReg s o v).mim = s.mim := rfl
@[simp] theorem setReg_sync (s : State) (o : Nat) (v : DWord) : (setReg s o v).sync = s.sync := rfl
@[simp] theorem setReg_flt (s : State) (o : Nat) (v : DWord) : (setReg s o v).flt = s.flt := rfl
@[simp] theorem setReg_pcie (s : State) (o : Nat) (v : DWord) : (setReg s o v).pcie = s.pcie := rfl
@[simp] theorem setReg_trn (s : State) (o : Nat) (v : DWord) : (setReg s o v).trn = s.trn := rfl
@[simp] theorem setReg_sto (s : State) (o : Nat) (v : DWord) : (setReg s o v).sto = s.sto := rfl
@[simp] theorem setReg_cip (s : State) (o : Nat) (v : DWord) : (setReg s o v).cip = s.cip := rfl
@[simp] theorem setReg_lnk (s : State) (o : Nat) (v : DWord) : (setReg s o v).lnk = s.lnk := rfl
@[simp] theorem setReg_par (s : State) (o : Nat) (v : DWord) : (setReg s o v).par = s.par := rfl
@[simp] theorem setReg_sch (s : State) (o : Nat) (v : DWord) : (setReg s o v).sch = s.sch := rfl
@[simp] theorem setReg_lat (s : State) (o : Nat) (v : DWord) : (setReg s o v).lat = s.lat := rfl
@[simp] theorem setReg_sip (s : State) (o : Nat) (v : DWord) : (setReg s o v).sip = s.sip := rfl
@[simp] theorem setReg_boot (s : State) (o : Nat) (v : DWord) : (setReg s o v).boot = s.boot := rfl
@[simp] theorem setReg_pwr (s : State) (o : Nat) (v : DWord) : (setReg s o v).pwr = s.pwr := rfl
@[simp] theorem setReg_dbg (s : State) (o : Nat) (v : DWord) : (setReg s o v).dbg = s.dbg := rfl
@[simp] theorem setReg_side (s : State) (o : Nat) (v : DWord) : (setReg s o v).side = s.side := rfl
@[simp] theorem setReg_out (s : State) (o : Nat) (v : DWord) : (setReg s o v).out = s.out := rfl
@[simp] theorem setReg_pending (s : State) (o : Nat) (v : DWord) : (setReg s o v).pending = s.pending := rfl

/-! ### wr -/

@[simp] theorem wr_clk (s : State) (f : Fld) (v : Nat) : (wr s f v).clk = s.clk := rfl
@[simp] theorem wr_free (s : State) (f : Fld) (v : Nat) : (wr s f v).free = s.free := rfl
@[simp] theorem wr_seq (s : State) (f : Fld) (v : Nat) : (wr s f v).seq = s.seq := rfl
@[simp] theorem wr_tb (s : State) (f : Fld) (v : Nat) : (wr s f v).tb = s.tb := rfl
@[simp] theorem wr_m (s : State) (f : Fld) (v : Nat) : (wr s f v).m = s.m := rfl
@[simp] theorem wr_cells (s : State) (f : Fld) (v : Nat) : (wr s f v).cells = s.cells := rfl
@[simp] theorem wr_fab (s : State) (f : Fld) (v : Nat) : (wr s f v).fab = s.fab := rfl
@[simp] theorem wr_lev (s : State) (f : Fld) (v : Nat) : (wr s f v).lev = s.lev := rfl
@[simp] theorem wr_fur (s : State) (f : Fld) (v : Nat) : (wr s f v).fur = s.fur := rfl
@[simp] theorem wr_infl (s : State) (f : Fld) (v : Nat) : (wr s f v).infl = s.infl := rfl
@[simp] theorem wr_mim (s : State) (f : Fld) (v : Nat) : (wr s f v).mim = s.mim := rfl
@[simp] theorem wr_sync (s : State) (f : Fld) (v : Nat) : (wr s f v).sync = s.sync := rfl
@[simp] theorem wr_flt (s : State) (f : Fld) (v : Nat) : (wr s f v).flt = s.flt := rfl
@[simp] theorem wr_pcie (s : State) (f : Fld) (v : Nat) : (wr s f v).pcie = s.pcie := rfl
@[simp] theorem wr_trn (s : State) (f : Fld) (v : Nat) : (wr s f v).trn = s.trn := rfl
@[simp] theorem wr_sto (s : State) (f : Fld) (v : Nat) : (wr s f v).sto = s.sto := rfl
@[simp] theorem wr_cip (s : State) (f : Fld) (v : Nat) : (wr s f v).cip = s.cip := rfl
@[simp] theorem wr_lnk (s : State) (f : Fld) (v : Nat) : (wr s f v).lnk = s.lnk := rfl
@[simp] theorem wr_par (s : State) (f : Fld) (v : Nat) : (wr s f v).par = s.par := rfl
@[simp] theorem wr_sch (s : State) (f : Fld) (v : Nat) : (wr s f v).sch = s.sch := rfl
@[simp] theorem wr_lat (s : State) (f : Fld) (v : Nat) : (wr s f v).lat = s.lat := rfl
@[simp] theorem wr_sip (s : State) (f : Fld) (v : Nat) : (wr s f v).sip = s.sip := rfl
@[simp] theorem wr_boot (s : State) (f : Fld) (v : Nat) : (wr s f v).boot = s.boot := rfl
@[simp] theorem wr_pwr (s : State) (f : Fld) (v : Nat) : (wr s f v).pwr = s.pwr := rfl
@[simp] theorem wr_dbg (s : State) (f : Fld) (v : Nat) : (wr s f v).dbg = s.dbg := rfl
@[simp] theorem wr_side (s : State) (f : Fld) (v : Nat) : (wr s f v).side = s.side := rfl
@[simp] theorem wr_out (s : State) (f : Fld) (v : Nat) : (wr s f v).out = s.out := rfl
@[simp] theorem wr_pending (s : State) (f : Fld) (v : Nat) : (wr s f v).pending = s.pending := rfl

/-! ### incF -/

@[simp] theorem incF_clk (s : State) (f : Fld) (n : Nat) : (incF s f n).clk = s.clk := rfl
@[simp] theorem incF_free (s : State) (f : Fld) (n : Nat) : (incF s f n).free = s.free := rfl
@[simp] theorem incF_seq (s : State) (f : Fld) (n : Nat) : (incF s f n).seq = s.seq := rfl
@[simp] theorem incF_tb (s : State) (f : Fld) (n : Nat) : (incF s f n).tb = s.tb := rfl
@[simp] theorem incF_m (s : State) (f : Fld) (n : Nat) : (incF s f n).m = s.m := rfl
@[simp] theorem incF_cells (s : State) (f : Fld) (n : Nat) : (incF s f n).cells = s.cells := rfl
@[simp] theorem incF_fab (s : State) (f : Fld) (n : Nat) : (incF s f n).fab = s.fab := rfl
@[simp] theorem incF_lev (s : State) (f : Fld) (n : Nat) : (incF s f n).lev = s.lev := rfl
@[simp] theorem incF_fur (s : State) (f : Fld) (n : Nat) : (incF s f n).fur = s.fur := rfl
@[simp] theorem incF_infl (s : State) (f : Fld) (n : Nat) : (incF s f n).infl = s.infl := rfl
@[simp] theorem incF_mim (s : State) (f : Fld) (n : Nat) : (incF s f n).mim = s.mim := rfl
@[simp] theorem incF_sync (s : State) (f : Fld) (n : Nat) : (incF s f n).sync = s.sync := rfl
@[simp] theorem incF_flt (s : State) (f : Fld) (n : Nat) : (incF s f n).flt = s.flt := rfl
@[simp] theorem incF_pcie (s : State) (f : Fld) (n : Nat) : (incF s f n).pcie = s.pcie := rfl
@[simp] theorem incF_trn (s : State) (f : Fld) (n : Nat) : (incF s f n).trn = s.trn := rfl
@[simp] theorem incF_sto (s : State) (f : Fld) (n : Nat) : (incF s f n).sto = s.sto := rfl
@[simp] theorem incF_cip (s : State) (f : Fld) (n : Nat) : (incF s f n).cip = s.cip := rfl
@[simp] theorem incF_lnk (s : State) (f : Fld) (n : Nat) : (incF s f n).lnk = s.lnk := rfl
@[simp] theorem incF_par (s : State) (f : Fld) (n : Nat) : (incF s f n).par = s.par := rfl
@[simp] theorem incF_sch (s : State) (f : Fld) (n : Nat) : (incF s f n).sch = s.sch := rfl
@[simp] theorem incF_lat (s : State) (f : Fld) (n : Nat) : (incF s f n).lat = s.lat := rfl
@[simp] theorem incF_sip (s : State) (f : Fld) (n : Nat) : (incF s f n).sip = s.sip := rfl
@[simp] theorem incF_boot (s : State) (f : Fld) (n : Nat) : (incF s f n).boot = s.boot := rfl
@[simp] theorem incF_pwr (s : State) (f : Fld) (n : Nat) : (incF s f n).pwr = s.pwr := rfl
@[simp] theorem incF_dbg (s : State) (f : Fld) (n : Nat) : (incF s f n).dbg = s.dbg := rfl
@[simp] theorem incF_side (s : State) (f : Fld) (n : Nat) : (incF s f n).side = s.side := rfl
@[simp] theorem incF_out (s : State) (f : Fld) (n : Nat) : (incF s f n).out = s.out := rfl
@[simp] theorem incF_pending (s : State) (f : Fld) (n : Nat) : (incF s f n).pending = s.pending := rfl

/-! ### writeIgnored -/

@[simp] theorem writeIgnored_clk (s : State) : (writeIgnored s).clk = s.clk := rfl
@[simp] theorem writeIgnored_free (s : State) : (writeIgnored s).free = s.free := rfl
@[simp] theorem writeIgnored_seq (s : State) : (writeIgnored s).seq = s.seq := rfl
@[simp] theorem writeIgnored_tb (s : State) : (writeIgnored s).tb = s.tb := rfl
@[simp] theorem writeIgnored_m (s : State) : (writeIgnored s).m = s.m := rfl
@[simp] theorem writeIgnored_cells (s : State) : (writeIgnored s).cells = s.cells := rfl
@[simp] theorem writeIgnored_fab (s : State) : (writeIgnored s).fab = s.fab := rfl
@[simp] theorem writeIgnored_lev (s : State) : (writeIgnored s).lev = s.lev := rfl
@[simp] theorem writeIgnored_fur (s : State) : (writeIgnored s).fur = s.fur := rfl
@[simp] theorem writeIgnored_infl (s : State) : (writeIgnored s).infl = s.infl := rfl
@[simp] theorem writeIgnored_mim (s : State) : (writeIgnored s).mim = s.mim := rfl
@[simp] theorem writeIgnored_sync (s : State) : (writeIgnored s).sync = s.sync := rfl
@[simp] theorem writeIgnored_flt (s : State) : (writeIgnored s).flt = s.flt := rfl
@[simp] theorem writeIgnored_pcie (s : State) : (writeIgnored s).pcie = s.pcie := rfl
@[simp] theorem writeIgnored_trn (s : State) : (writeIgnored s).trn = s.trn := rfl
@[simp] theorem writeIgnored_sto (s : State) : (writeIgnored s).sto = s.sto := rfl
@[simp] theorem writeIgnored_cip (s : State) : (writeIgnored s).cip = s.cip := rfl
@[simp] theorem writeIgnored_lnk (s : State) : (writeIgnored s).lnk = s.lnk := rfl
@[simp] theorem writeIgnored_par (s : State) : (writeIgnored s).par = s.par := rfl
@[simp] theorem writeIgnored_sch (s : State) : (writeIgnored s).sch = s.sch := rfl
@[simp] theorem writeIgnored_lat (s : State) : (writeIgnored s).lat = s.lat := rfl
@[simp] theorem writeIgnored_sip (s : State) : (writeIgnored s).sip = s.sip := rfl
@[simp] theorem writeIgnored_boot (s : State) : (writeIgnored s).boot = s.boot := rfl
@[simp] theorem writeIgnored_pwr (s : State) : (writeIgnored s).pwr = s.pwr := rfl
@[simp] theorem writeIgnored_dbg (s : State) : (writeIgnored s).dbg = s.dbg := rfl
@[simp] theorem writeIgnored_side (s : State) : (writeIgnored s).side = s.side := rfl
@[simp] theorem writeIgnored_out (s : State) : (writeIgnored s).out = s.out := rfl
@[simp] theorem writeIgnored_pending (s : State) : (writeIgnored s).pending = s.pending := rfl

/-! ### emit -/

@[simp] theorem emit_clk (s : State) (o : Out) : (emit s o).clk = s.clk := rfl
@[simp] theorem emit_free (s : State) (o : Out) : (emit s o).free = s.free := rfl
@[simp] theorem emit_seq (s : State) (o : Out) : (emit s o).seq = s.seq := rfl
@[simp] theorem emit_regs (s : State) (o : Out) : (emit s o).regs = s.regs := rfl
@[simp] theorem emit_tb (s : State) (o : Out) : (emit s o).tb = s.tb := rfl
@[simp] theorem emit_m (s : State) (o : Out) : (emit s o).m = s.m := rfl
@[simp] theorem emit_cells (s : State) (o : Out) : (emit s o).cells = s.cells := rfl
@[simp] theorem emit_fab (s : State) (o : Out) : (emit s o).fab = s.fab := rfl
@[simp] theorem emit_lev (s : State) (o : Out) : (emit s o).lev = s.lev := rfl
@[simp] theorem emit_fur (s : State) (o : Out) : (emit s o).fur = s.fur := rfl
@[simp] theorem emit_infl (s : State) (o : Out) : (emit s o).infl = s.infl := rfl
@[simp] theorem emit_mim (s : State) (o : Out) : (emit s o).mim = s.mim := rfl
@[simp] theorem emit_sync (s : State) (o : Out) : (emit s o).sync = s.sync := rfl
@[simp] theorem emit_flt (s : State) (o : Out) : (emit s o).flt = s.flt := rfl
@[simp] theorem emit_pcie (s : State) (o : Out) : (emit s o).pcie = s.pcie := rfl
@[simp] theorem emit_trn (s : State) (o : Out) : (emit s o).trn = s.trn := rfl
@[simp] theorem emit_sto (s : State) (o : Out) : (emit s o).sto = s.sto := rfl
@[simp] theorem emit_cip (s : State) (o : Out) : (emit s o).cip = s.cip := rfl
@[simp] theorem emit_lnk (s : State) (o : Out) : (emit s o).lnk = s.lnk := rfl
@[simp] theorem emit_par (s : State) (o : Out) : (emit s o).par = s.par := rfl
@[simp] theorem emit_sch (s : State) (o : Out) : (emit s o).sch = s.sch := rfl
@[simp] theorem emit_lat (s : State) (o : Out) : (emit s o).lat = s.lat := rfl
@[simp] theorem emit_sip (s : State) (o : Out) : (emit s o).sip = s.sip := rfl
@[simp] theorem emit_boot (s : State) (o : Out) : (emit s o).boot = s.boot := rfl
@[simp] theorem emit_pwr (s : State) (o : Out) : (emit s o).pwr = s.pwr := rfl
@[simp] theorem emit_dbg (s : State) (o : Out) : (emit s o).dbg = s.dbg := rfl
@[simp] theorem emit_side (s : State) (o : Out) : (emit s o).side = s.side := rfl
@[simp] theorem emit_pending (s : State) (o : Out) : (emit s o).pending = s.pending := rfl

/-! ### send -/

@[simp] theorem send_clk (s : State) (p : Packet) : (send s p).clk = s.clk := rfl
@[simp] theorem send_free (s : State) (p : Packet) : (send s p).free = s.free := rfl
@[simp] theorem send_seq (s : State) (p : Packet) : (send s p).seq = s.seq := rfl
@[simp] theorem send_regs (s : State) (p : Packet) : (send s p).regs = s.regs := rfl
@[simp] theorem send_tb (s : State) (p : Packet) : (send s p).tb = s.tb := rfl
@[simp] theorem send_m (s : State) (p : Packet) : (send s p).m = s.m := rfl
@[simp] theorem send_cells (s : State) (p : Packet) : (send s p).cells = s.cells := rfl
@[simp] theorem send_lev (s : State) (p : Packet) : (send s p).lev = s.lev := rfl
@[simp] theorem send_fur (s : State) (p : Packet) : (send s p).fur = s.fur := rfl
@[simp] theorem send_infl (s : State) (p : Packet) : (send s p).infl = s.infl := rfl
@[simp] theorem send_mim (s : State) (p : Packet) : (send s p).mim = s.mim := rfl
@[simp] theorem send_sync (s : State) (p : Packet) : (send s p).sync = s.sync := rfl
@[simp] theorem send_flt (s : State) (p : Packet) : (send s p).flt = s.flt := rfl
@[simp] theorem send_pcie (s : State) (p : Packet) : (send s p).pcie = s.pcie := rfl
@[simp] theorem send_trn (s : State) (p : Packet) : (send s p).trn = s.trn := rfl
@[simp] theorem send_sto (s : State) (p : Packet) : (send s p).sto = s.sto := rfl
@[simp] theorem send_cip (s : State) (p : Packet) : (send s p).cip = s.cip := rfl
@[simp] theorem send_lnk (s : State) (p : Packet) : (send s p).lnk = s.lnk := rfl
@[simp] theorem send_par (s : State) (p : Packet) : (send s p).par = s.par := rfl
@[simp] theorem send_sch (s : State) (p : Packet) : (send s p).sch = s.sch := rfl
@[simp] theorem send_lat (s : State) (p : Packet) : (send s p).lat = s.lat := rfl
@[simp] theorem send_sip (s : State) (p : Packet) : (send s p).sip = s.sip := rfl
@[simp] theorem send_boot (s : State) (p : Packet) : (send s p).boot = s.boot := rfl
@[simp] theorem send_pwr (s : State) (p : Packet) : (send s p).pwr = s.pwr := rfl
@[simp] theorem send_dbg (s : State) (p : Packet) : (send s p).dbg = s.dbg := rfl
@[simp] theorem send_side (s : State) (p : Packet) : (send s p).side = s.side := rfl
@[simp] theorem send_out (s : State) (p : Packet) : (send s p).out = s.out := rfl
@[simp] theorem send_pending (s : State) (p : Packet) : (send s p).pending = s.pending := rfl

/-! ### setCell -/

@[simp] theorem setCell_clk (s : State) (c : Nat) (x : Cell) : (setCell s c x).clk = s.clk := rfl
@[simp] theorem setCell_free (s : State) (c : Nat) (x : Cell) : (setCell s c x).free = s.free := rfl
@[simp] theorem setCell_seq (s : State) (c : Nat) (x : Cell) : (setCell s c x).seq = s.seq := rfl
@[simp] theorem setCell_regs (s : State) (c : Nat) (x : Cell) : (setCell s c x).regs = s.regs := rfl
@[simp] theorem setCell_tb (s : State) (c : Nat) (x : Cell) : (setCell s c x).tb = s.tb := rfl
@[simp] theorem setCell_m (s : State) (c : Nat) (x : Cell) : (setCell s c x).m = s.m := rfl
@[simp] theorem setCell_fab (s : State) (c : Nat) (x : Cell) : (setCell s c x).fab = s.fab := rfl
@[simp] theorem setCell_lev (s : State) (c : Nat) (x : Cell) : (setCell s c x).lev = s.lev := rfl
@[simp] theorem setCell_fur (s : State) (c : Nat) (x : Cell) : (setCell s c x).fur = s.fur := rfl
@[simp] theorem setCell_infl (s : State) (c : Nat) (x : Cell) : (setCell s c x).infl = s.infl := rfl
@[simp] theorem setCell_mim (s : State) (c : Nat) (x : Cell) : (setCell s c x).mim = s.mim := rfl
@[simp] theorem setCell_sync (s : State) (c : Nat) (x : Cell) : (setCell s c x).sync = s.sync := rfl
@[simp] theorem setCell_flt (s : State) (c : Nat) (x : Cell) : (setCell s c x).flt = s.flt := rfl
@[simp] theorem setCell_pcie (s : State) (c : Nat) (x : Cell) : (setCell s c x).pcie = s.pcie := rfl
@[simp] theorem setCell_trn (s : State) (c : Nat) (x : Cell) : (setCell s c x).trn = s.trn := rfl
@[simp] theorem setCell_sto (s : State) (c : Nat) (x : Cell) : (setCell s c x).sto = s.sto := rfl
@[simp] theorem setCell_cip (s : State) (c : Nat) (x : Cell) : (setCell s c x).cip = s.cip := rfl
@[simp] theorem setCell_lnk (s : State) (c : Nat) (x : Cell) : (setCell s c x).lnk = s.lnk := rfl
@[simp] theorem setCell_par (s : State) (c : Nat) (x : Cell) : (setCell s c x).par = s.par := rfl
@[simp] theorem setCell_sch (s : State) (c : Nat) (x : Cell) : (setCell s c x).sch = s.sch := rfl
@[simp] theorem setCell_lat (s : State) (c : Nat) (x : Cell) : (setCell s c x).lat = s.lat := rfl
@[simp] theorem setCell_sip (s : State) (c : Nat) (x : Cell) : (setCell s c x).sip = s.sip := rfl
@[simp] theorem setCell_boot (s : State) (c : Nat) (x : Cell) : (setCell s c x).boot = s.boot := rfl
@[simp] theorem setCell_pwr (s : State) (c : Nat) (x : Cell) : (setCell s c x).pwr = s.pwr := rfl
@[simp] theorem setCell_dbg (s : State) (c : Nat) (x : Cell) : (setCell s c x).dbg = s.dbg := rfl
@[simp] theorem setCell_side (s : State) (c : Nat) (x : Cell) : (setCell s c x).side = s.side := rfl
@[simp] theorem setCell_out (s : State) (c : Nat) (x : Cell) : (setCell s c x).out = s.out := rfl
@[simp] theorem setCell_pending (s : State) (c : Nat) (x : Cell) : (setCell s c x).pending = s.pending := rfl

/-! ### modCell -/

@[simp] theorem modCell_clk (s : State) (c : Nat) (g : Cell → Cell) : (modCell s c g).clk = s.clk := rfl
@[simp] theorem modCell_free (s : State) (c : Nat) (g : Cell → Cell) : (modCell s c g).free = s.free := rfl
@[simp] theorem modCell_seq (s : State) (c : Nat) (g : Cell → Cell) : (modCell s c g).seq = s.seq := rfl
@[simp] theorem modCell_regs (s : State) (c : Nat) (g : Cell → Cell) : (modCell s c g).regs = s.regs := rfl
@[simp] theorem modCell_tb (s : State) (c : Nat) (g : Cell → Cell) : (modCell s c g).tb = s.tb := rfl
@[simp] theorem modCell_m (s : State) (c : Nat) (g : Cell → Cell) : (modCell s c g).m = s.m := rfl
@[simp] theorem modCell_fab (s : State) (c : Nat) (g : Cell → Cell) : (modCell s c g).fab = s.fab := rfl
@[simp] theorem modCell_lev (s : State) (c : Nat) (g : Cell → Cell) : (modCell s c g).lev = s.lev := rfl
@[simp] theorem modCell_fur (s : State) (c : Nat) (g : Cell → Cell) : (modCell s c g).fur = s.fur := rfl
@[simp] theorem modCell_infl (s : State) (c : Nat) (g : Cell → Cell) : (modCell s c g).infl = s.infl := rfl
@[simp] theorem modCell_mim (s : State) (c : Nat) (g : Cell → Cell) : (modCell s c g).mim = s.mim := rfl
@[simp] theorem modCell_sync (s : State) (c : Nat) (g : Cell → Cell) : (modCell s c g).sync = s.sync := rfl
@[simp] theorem modCell_flt (s : State) (c : Nat) (g : Cell → Cell) : (modCell s c g).flt = s.flt := rfl
@[simp] theorem modCell_pcie (s : State) (c : Nat) (g : Cell → Cell) : (modCell s c g).pcie = s.pcie := rfl
@[simp] theorem modCell_trn (s : State) (c : Nat) (g : Cell → Cell) : (modCell s c g).trn = s.trn := rfl
@[simp] theorem modCell_sto (s : State) (c : Nat) (g : Cell → Cell) : (modCell s c g).sto = s.sto := rfl
@[simp] theorem modCell_cip (s : State) (c : Nat) (g : Cell → Cell) : (modCell s c g).cip = s.cip := rfl
@[simp] theorem modCell_lnk (s : State) (c : Nat) (g : Cell → Cell) : (modCell s c g).lnk = s.lnk := rfl
@[simp] theorem modCell_par (s : State) (c : Nat) (g : Cell → Cell) : (modCell s c g).par = s.par := rfl
@[simp] theorem modCell_sch (s : State) (c : Nat) (g : Cell → Cell) : (modCell s c g).sch = s.sch := rfl
@[simp] theorem modCell_lat (s : State) (c : Nat) (g : Cell → Cell) : (modCell s c g).lat = s.lat := rfl
@[simp] theorem modCell_sip (s : State) (c : Nat) (g : Cell → Cell) : (modCell s c g).sip = s.sip := rfl
@[simp] theorem modCell_boot (s : State) (c : Nat) (g : Cell → Cell) : (modCell s c g).boot = s.boot := rfl
@[simp] theorem modCell_pwr (s : State) (c : Nat) (g : Cell → Cell) : (modCell s c g).pwr = s.pwr := rfl
@[simp] theorem modCell_dbg (s : State) (c : Nat) (g : Cell → Cell) : (modCell s c g).dbg = s.dbg := rfl
@[simp] theorem modCell_side (s : State) (c : Nat) (g : Cell → Cell) : (modCell s c g).side = s.side := rfl
@[simp] theorem modCell_out (s : State) (c : Nat) (g : Cell → Cell) : (modCell s c g).out = s.out := rfl
@[simp] theorem modCell_pending (s : State) (c : Nat) (g : Cell → Cell) : (modCell s c g).pending = s.pending := rfl

/-! ### modLnk -/

@[simp] theorem modLnk_clk (s : State) (n : Nat) (g : Link → Link) : (modLnk s n g).clk = s.clk := rfl
@[simp] theorem modLnk_free (s : State) (n : Nat) (g : Link → Link) : (modLnk s n g).free = s.free := rfl
@[simp] theorem modLnk_seq (s : State) (n : Nat) (g : Link → Link) : (modLnk s n g).seq = s.seq := rfl
@[simp] theorem modLnk_regs (s : State) (n : Nat) (g : Link → Link) : (modLnk s n g).regs = s.regs := rfl
@[simp] theorem modLnk_tb (s : State) (n : Nat) (g : Link → Link) : (modLnk s n g).tb = s.tb := rfl
@[simp] theorem modLnk_m (s : State) (n : Nat) (g : Link → Link) : (modLnk s n g).m = s.m := rfl
@[simp] theorem modLnk_cells (s : State) (n : Nat) (g : Link → Link) : (modLnk s n g).cells = s.cells := rfl
@[simp] theorem modLnk_fab (s : State) (n : Nat) (g : Link → Link) : (modLnk s n g).fab = s.fab := rfl
@[simp] theorem modLnk_lev (s : State) (n : Nat) (g : Link → Link) : (modLnk s n g).lev = s.lev := rfl
@[simp] theorem modLnk_fur (s : State) (n : Nat) (g : Link → Link) : (modLnk s n g).fur = s.fur := rfl
@[simp] theorem modLnk_infl (s : State) (n : Nat) (g : Link → Link) : (modLnk s n g).infl = s.infl := rfl
@[simp] theorem modLnk_mim (s : State) (n : Nat) (g : Link → Link) : (modLnk s n g).mim = s.mim := rfl
@[simp] theorem modLnk_sync (s : State) (n : Nat) (g : Link → Link) : (modLnk s n g).sync = s.sync := rfl
@[simp] theorem modLnk_flt (s : State) (n : Nat) (g : Link → Link) : (modLnk s n g).flt = s.flt := rfl
@[simp] theorem modLnk_pcie (s : State) (n : Nat) (g : Link → Link) : (modLnk s n g).pcie = s.pcie := rfl
@[simp] theorem modLnk_trn (s : State) (n : Nat) (g : Link → Link) : (modLnk s n g).trn = s.trn := rfl
@[simp] theorem modLnk_sto (s : State) (n : Nat) (g : Link → Link) : (modLnk s n g).sto = s.sto := rfl
@[simp] theorem modLnk_cip (s : State) (n : Nat) (g : Link → Link) : (modLnk s n g).cip = s.cip := rfl
@[simp] theorem modLnk_par (s : State) (n : Nat) (g : Link → Link) : (modLnk s n g).par = s.par := rfl
@[simp] theorem modLnk_sch (s : State) (n : Nat) (g : Link → Link) : (modLnk s n g).sch = s.sch := rfl
@[simp] theorem modLnk_lat (s : State) (n : Nat) (g : Link → Link) : (modLnk s n g).lat = s.lat := rfl
@[simp] theorem modLnk_sip (s : State) (n : Nat) (g : Link → Link) : (modLnk s n g).sip = s.sip := rfl
@[simp] theorem modLnk_boot (s : State) (n : Nat) (g : Link → Link) : (modLnk s n g).boot = s.boot := rfl
@[simp] theorem modLnk_pwr (s : State) (n : Nat) (g : Link → Link) : (modLnk s n g).pwr = s.pwr := rfl
@[simp] theorem modLnk_dbg (s : State) (n : Nat) (g : Link → Link) : (modLnk s n g).dbg = s.dbg := rfl
@[simp] theorem modLnk_side (s : State) (n : Nat) (g : Link → Link) : (modLnk s n g).side = s.side := rfl
@[simp] theorem modLnk_out (s : State) (n : Nat) (g : Link → Link) : (modLnk s n g).out = s.out := rfl
@[simp] theorem modLnk_pending (s : State) (n : Nat) (g : Link → Link) : (modLnk s n g).pending = s.pending := rfl

/-! ### addTimer -/

@[simp] theorem addTimer_clk (s : State) (d : Nat) (t : Timer) : (addTimer s d t).clk = s.clk := rfl
@[simp] theorem addTimer_free (s : State) (d : Nat) (t : Timer) : (addTimer s d t).free = s.free := rfl
@[simp] theorem addTimer_seq (s : State) (d : Nat) (t : Timer) : (addTimer s d t).seq = s.seq := rfl
@[simp] theorem addTimer_regs (s : State) (d : Nat) (t : Timer) : (addTimer s d t).regs = s.regs := rfl
@[simp] theorem addTimer_tb (s : State) (d : Nat) (t : Timer) : (addTimer s d t).tb = s.tb := rfl
@[simp] theorem addTimer_m (s : State) (d : Nat) (t : Timer) : (addTimer s d t).m = s.m := rfl
@[simp] theorem addTimer_cells (s : State) (d : Nat) (t : Timer) : (addTimer s d t).cells = s.cells := rfl
@[simp] theorem addTimer_lev (s : State) (d : Nat) (t : Timer) : (addTimer s d t).lev = s.lev := rfl
@[simp] theorem addTimer_fur (s : State) (d : Nat) (t : Timer) : (addTimer s d t).fur = s.fur := rfl
@[simp] theorem addTimer_infl (s : State) (d : Nat) (t : Timer) : (addTimer s d t).infl = s.infl := rfl
@[simp] theorem addTimer_mim (s : State) (d : Nat) (t : Timer) : (addTimer s d t).mim = s.mim := rfl
@[simp] theorem addTimer_sync (s : State) (d : Nat) (t : Timer) : (addTimer s d t).sync = s.sync := rfl
@[simp] theorem addTimer_flt (s : State) (d : Nat) (t : Timer) : (addTimer s d t).flt = s.flt := rfl
@[simp] theorem addTimer_pcie (s : State) (d : Nat) (t : Timer) : (addTimer s d t).pcie = s.pcie := rfl
@[simp] theorem addTimer_trn (s : State) (d : Nat) (t : Timer) : (addTimer s d t).trn = s.trn := rfl
@[simp] theorem addTimer_sto (s : State) (d : Nat) (t : Timer) : (addTimer s d t).sto = s.sto := rfl
@[simp] theorem addTimer_cip (s : State) (d : Nat) (t : Timer) : (addTimer s d t).cip = s.cip := rfl
@[simp] theorem addTimer_lnk (s : State) (d : Nat) (t : Timer) : (addTimer s d t).lnk = s.lnk := rfl
@[simp] theorem addTimer_par (s : State) (d : Nat) (t : Timer) : (addTimer s d t).par = s.par := rfl
@[simp] theorem addTimer_sch (s : State) (d : Nat) (t : Timer) : (addTimer s d t).sch = s.sch := rfl
@[simp] theorem addTimer_lat (s : State) (d : Nat) (t : Timer) : (addTimer s d t).lat = s.lat := rfl
@[simp] theorem addTimer_sip (s : State) (d : Nat) (t : Timer) : (addTimer s d t).sip = s.sip := rfl
@[simp] theorem addTimer_boot (s : State) (d : Nat) (t : Timer) : (addTimer s d t).boot = s.boot := rfl
@[simp] theorem addTimer_pwr (s : State) (d : Nat) (t : Timer) : (addTimer s d t).pwr = s.pwr := rfl
@[simp] theorem addTimer_dbg (s : State) (d : Nat) (t : Timer) : (addTimer s d t).dbg = s.dbg := rfl
@[simp] theorem addTimer_side (s : State) (d : Nat) (t : Timer) : (addTimer s d t).side = s.side := rfl
@[simp] theorem addTimer_out (s : State) (d : Nat) (t : Timer) : (addTimer s d t).out = s.out := rfl
@[simp] theorem addTimer_pending (s : State) (d : Nat) (t : Timer) : (addTimer s d t).pending = s.pending := rfl

/-! ### modEntry -/

@[simp] theorem modEntry_clk (s : State) (f i : Nat) (g : Entry → Entry) : (modEntry s f i g).clk = s.clk := rfl
@[simp] theorem modEntry_free (s : State) (f i : Nat) (g : Entry → Entry) : (modEntry s f i g).free = s.free := rfl
@[simp] theorem modEntry_seq (s : State) (f i : Nat) (g : Entry → Entry) : (modEntry s f i g).seq = s.seq := rfl
@[simp] theorem modEntry_regs (s : State) (f i : Nat) (g : Entry → Entry) : (modEntry s f i g).regs = s.regs := rfl
@[simp] theorem modEntry_tb (s : State) (f i : Nat) (g : Entry → Entry) : (modEntry s f i g).tb = s.tb := rfl
@[simp] theorem modEntry_m (s : State) (f i : Nat) (g : Entry → Entry) : (modEntry s f i g).m = s.m := rfl
@[simp] theorem modEntry_cells (s : State) (f i : Nat) (g : Entry → Entry) : (modEntry s f i g).cells = s.cells := rfl
@[simp] theorem modEntry_fab (s : State) (f i : Nat) (g : Entry → Entry) : (modEntry s f i g).fab = s.fab := rfl
@[simp] theorem modEntry_lev (s : State) (f i : Nat) (g : Entry → Entry) : (modEntry s f i g).lev = s.lev := rfl
@[simp] theorem modEntry_fur (s : State) (f i : Nat) (g : Entry → Entry) : (modEntry s f i g).fur = s.fur := rfl
@[simp] theorem modEntry_mim (s : State) (f i : Nat) (g : Entry → Entry) : (modEntry s f i g).mim = s.mim := rfl
@[simp] theorem modEntry_sync (s : State) (f i : Nat) (g : Entry → Entry) : (modEntry s f i g).sync = s.sync := rfl
@[simp] theorem modEntry_flt (s : State) (f i : Nat) (g : Entry → Entry) : (modEntry s f i g).flt = s.flt := rfl
@[simp] theorem modEntry_pcie (s : State) (f i : Nat) (g : Entry → Entry) : (modEntry s f i g).pcie = s.pcie := rfl
@[simp] theorem modEntry_trn (s : State) (f i : Nat) (g : Entry → Entry) : (modEntry s f i g).trn = s.trn := rfl
@[simp] theorem modEntry_sto (s : State) (f i : Nat) (g : Entry → Entry) : (modEntry s f i g).sto = s.sto := rfl
@[simp] theorem modEntry_cip (s : State) (f i : Nat) (g : Entry → Entry) : (modEntry s f i g).cip = s.cip := rfl
@[simp] theorem modEntry_lnk (s : State) (f i : Nat) (g : Entry → Entry) : (modEntry s f i g).lnk = s.lnk := rfl
@[simp] theorem modEntry_par (s : State) (f i : Nat) (g : Entry → Entry) : (modEntry s f i g).par = s.par := rfl
@[simp] theorem modEntry_sch (s : State) (f i : Nat) (g : Entry → Entry) : (modEntry s f i g).sch = s.sch := rfl
@[simp] theorem modEntry_lat (s : State) (f i : Nat) (g : Entry → Entry) : (modEntry s f i g).lat = s.lat := rfl
@[simp] theorem modEntry_sip (s : State) (f i : Nat) (g : Entry → Entry) : (modEntry s f i g).sip = s.sip := rfl
@[simp] theorem modEntry_boot (s : State) (f i : Nat) (g : Entry → Entry) : (modEntry s f i g).boot = s.boot := rfl
@[simp] theorem modEntry_pwr (s : State) (f i : Nat) (g : Entry → Entry) : (modEntry s f i g).pwr = s.pwr := rfl
@[simp] theorem modEntry_dbg (s : State) (f i : Nat) (g : Entry → Entry) : (modEntry s f i g).dbg = s.dbg := rfl
@[simp] theorem modEntry_side (s : State) (f i : Nat) (g : Entry → Entry) : (modEntry s f i g).side = s.side := rfl
@[simp] theorem modEntry_out (s : State) (f i : Nat) (g : Entry → Entry) : (modEntry s f i g).out = s.out := rfl
@[simp] theorem modEntry_pending (s : State) (f i : Nat) (g : Entry → Entry) : (modEntry s f i g).pending = s.pending := rfl

/-! ### dropEntry -/

@[simp] theorem dropEntry_clk (s : State) (f i : Nat) : (dropEntry s f i).clk = s.clk := rfl
@[simp] theorem dropEntry_free (s : State) (f i : Nat) : (dropEntry s f i).free = s.free := rfl
@[simp] theorem dropEntry_seq (s : State) (f i : Nat) : (dropEntry s f i).seq = s.seq := rfl
@[simp] theorem dropEntry_regs (s : State) (f i : Nat) : (dropEntry s f i).regs = s.regs := rfl
@[simp] theorem dropEntry_tb (s : State) (f i : Nat) : (dropEntry s f i).tb = s.tb := rfl
@[simp] theorem dropEntry_m (s : State) (f i : Nat) : (dropEntry s f i).m = s.m := rfl
@[simp] theorem dropEntry_cells (s : State) (f i : Nat) : (dropEntry s f i).cells = s.cells := rfl
@[simp] theorem dropEntry_fab (s : State) (f i : Nat) : (dropEntry s f i).fab = s.fab := rfl
@[simp] theorem dropEntry_lev (s : State) (f i : Nat) : (dropEntry s f i).lev = s.lev := rfl
@[simp] theorem dropEntry_fur (s : State) (f i : Nat) : (dropEntry s f i).fur = s.fur := rfl
@[simp] theorem dropEntry_mim (s : State) (f i : Nat) : (dropEntry s f i).mim = s.mim := rfl
@[simp] theorem dropEntry_sync (s : State) (f i : Nat) : (dropEntry s f i).sync = s.sync := rfl
@[simp] theorem dropEntry_flt (s : State) (f i : Nat) : (dropEntry s f i).flt = s.flt := rfl
@[simp] theorem dropEntry_trn (s : State) (f i : Nat) : (dropEntry s f i).trn = s.trn := rfl
@[simp] theorem dropEntry_sto (s : State) (f i : Nat) : (dropEntry s f i).sto = s.sto := rfl
@[simp] theorem dropEntry_cip (s : State) (f i : Nat) : (dropEntry s f i).cip = s.cip := rfl
@[simp] theorem dropEntry_lnk (s : State) (f i : Nat) : (dropEntry s f i).lnk = s.lnk := rfl
@[simp] theorem dropEntry_par (s : State) (f i : Nat) : (dropEntry s f i).par = s.par := rfl
@[simp] theorem dropEntry_sch (s : State) (f i : Nat) : (dropEntry s f i).sch = s.sch := rfl
@[simp] theorem dropEntry_lat (s : State) (f i : Nat) : (dropEntry s f i).lat = s.lat := rfl
@[simp] theorem dropEntry_sip (s : State) (f i : Nat) : (dropEntry s f i).sip = s.sip := rfl
@[simp] theorem dropEntry_boot (s : State) (f i : Nat) : (dropEntry s f i).boot = s.boot := rfl
@[simp] theorem dropEntry_pwr (s : State) (f i : Nat) : (dropEntry s f i).pwr = s.pwr := rfl
@[simp] theorem dropEntry_dbg (s : State) (f i : Nat) : (dropEntry s f i).dbg = s.dbg := rfl
@[simp] theorem dropEntry_side (s : State) (f i : Nat) : (dropEntry s f i).side = s.side := rfl
@[simp] theorem dropEntry_out (s : State) (f i : Nat) : (dropEntry s f i).out = s.out := rfl
@[simp] theorem dropEntry_pending (s : State) (f i : Nat) : (dropEntry s f i).pending = s.pending := rfl

/-! ### modFur -/

@[simp] theorem modFur_clk (s : State) (i : Nat) (g : Furrow → Furrow) : (modFur s i g).clk = s.clk := by unfold modFur; split <;> rfl
@[simp] theorem modFur_free (s : State) (i : Nat) (g : Furrow → Furrow) : (modFur s i g).free = s.free := by unfold modFur; split <;> rfl
@[simp] theorem modFur_seq (s : State) (i : Nat) (g : Furrow → Furrow) : (modFur s i g).seq = s.seq := by unfold modFur; split <;> rfl
@[simp] theorem modFur_regs (s : State) (i : Nat) (g : Furrow → Furrow) : (modFur s i g).regs = s.regs := by unfold modFur; split <;> rfl
@[simp] theorem modFur_tb (s : State) (i : Nat) (g : Furrow → Furrow) : (modFur s i g).tb = s.tb := by unfold modFur; split <;> rfl
@[simp] theorem modFur_m (s : State) (i : Nat) (g : Furrow → Furrow) : (modFur s i g).m = s.m := by unfold modFur; split <;> rfl
@[simp] theorem modFur_cells (s : State) (i : Nat) (g : Furrow → Furrow) : (modFur s i g).cells = s.cells := by unfold modFur; split <;> rfl
@[simp] theorem modFur_fab (s : State) (i : Nat) (g : Furrow → Furrow) : (modFur s i g).fab = s.fab := by unfold modFur; split <;> rfl
@[simp] theorem modFur_lev (s : State) (i : Nat) (g : Furrow → Furrow) : (modFur s i g).lev = s.lev := by unfold modFur; split <;> rfl
@[simp] theorem modFur_infl (s : State) (i : Nat) (g : Furrow → Furrow) : (modFur s i g).infl = s.infl := by unfold modFur; split <;> rfl
@[simp] theorem modFur_mim (s : State) (i : Nat) (g : Furrow → Furrow) : (modFur s i g).mim = s.mim := by unfold modFur; split <;> rfl
@[simp] theorem modFur_sync (s : State) (i : Nat) (g : Furrow → Furrow) : (modFur s i g).sync = s.sync := by unfold modFur; split <;> rfl
@[simp] theorem modFur_flt (s : State) (i : Nat) (g : Furrow → Furrow) : (modFur s i g).flt = s.flt := by unfold modFur; split <;> rfl
@[simp] theorem modFur_pcie (s : State) (i : Nat) (g : Furrow → Furrow) : (modFur s i g).pcie = s.pcie := by unfold modFur; split <;> rfl
@[simp] theorem modFur_trn (s : State) (i : Nat) (g : Furrow → Furrow) : (modFur s i g).trn = s.trn := by unfold modFur; split <;> rfl
@[simp] theorem modFur_sto (s : State) (i : Nat) (g : Furrow → Furrow) : (modFur s i g).sto = s.sto := by unfold modFur; split <;> rfl
@[simp] theorem modFur_cip (s : State) (i : Nat) (g : Furrow → Furrow) : (modFur s i g).cip = s.cip := by unfold modFur; split <;> rfl
@[simp] theorem modFur_lnk (s : State) (i : Nat) (g : Furrow → Furrow) : (modFur s i g).lnk = s.lnk := by unfold modFur; split <;> rfl
@[simp] theorem modFur_par (s : State) (i : Nat) (g : Furrow → Furrow) : (modFur s i g).par = s.par := by unfold modFur; split <;> rfl
@[simp] theorem modFur_sch (s : State) (i : Nat) (g : Furrow → Furrow) : (modFur s i g).sch = s.sch := by unfold modFur; split <;> rfl
@[simp] theorem modFur_lat (s : State) (i : Nat) (g : Furrow → Furrow) : (modFur s i g).lat = s.lat := by unfold modFur; split <;> rfl
@[simp] theorem modFur_sip (s : State) (i : Nat) (g : Furrow → Furrow) : (modFur s i g).sip = s.sip := by unfold modFur; split <;> rfl
@[simp] theorem modFur_boot (s : State) (i : Nat) (g : Furrow → Furrow) : (modFur s i g).boot = s.boot := by unfold modFur; split <;> rfl
@[simp] theorem modFur_pwr (s : State) (i : Nat) (g : Furrow → Furrow) : (modFur s i g).pwr = s.pwr := by unfold modFur; split <;> rfl
@[simp] theorem modFur_dbg (s : State) (i : Nat) (g : Furrow → Furrow) : (modFur s i g).dbg = s.dbg := by unfold modFur; split <;> rfl
@[simp] theorem modFur_side (s : State) (i : Nat) (g : Furrow → Furrow) : (modFur s i g).side = s.side := by unfold modFur; split <;> rfl
@[simp] theorem modFur_out (s : State) (i : Nat) (g : Furrow → Furrow) : (modFur s i g).out = s.out := by unfold modFur; split <;> rfl
@[simp] theorem modFur_pending (s : State) (i : Nat) (g : Furrow → Furrow) : (modFur s i g).pending = s.pending := by unfold modFur; split <;> rfl

/-! ### endEntry -/

@[simp] theorem endEntry_clk (s : State) (f i st res : Nat) : (endEntry s f i st res).clk = s.clk := by simp only [endEntry]; split <;> simp
@[simp] theorem endEntry_free (s : State) (f i st res : Nat) : (endEntry s f i st res).free = s.free := by simp only [endEntry]; split <;> simp
@[simp] theorem endEntry_seq (s : State) (f i st res : Nat) : (endEntry s f i st res).seq = s.seq := by simp only [endEntry]; split <;> simp
@[simp] theorem endEntry_regs (s : State) (f i st res : Nat) : (endEntry s f i st res).regs = s.regs := by simp only [endEntry]; split <;> simp
@[simp] theorem endEntry_tb (s : State) (f i st res : Nat) : (endEntry s f i st res).tb = s.tb := by simp only [endEntry]; split <;> simp
@[simp] theorem endEntry_m (s : State) (f i st res : Nat) : (endEntry s f i st res).m = s.m := by simp only [endEntry]; split <;> simp
@[simp] theorem endEntry_cells (s : State) (f i st res : Nat) : (endEntry s f i st res).cells = s.cells := by simp only [endEntry]; split <;> simp
@[simp] theorem endEntry_fab (s : State) (f i st res : Nat) : (endEntry s f i st res).fab = s.fab := by simp only [endEntry]; split <;> simp
@[simp] theorem endEntry_lev (s : State) (f i st res : Nat) : (endEntry s f i st res).lev = s.lev := by simp only [endEntry]; split <;> simp
@[simp] theorem endEntry_mim (s : State) (f i st res : Nat) : (endEntry s f i st res).mim = s.mim := by simp only [endEntry]; split <;> simp
@[simp] theorem endEntry_sync (s : State) (f i st res : Nat) : (endEntry s f i st res).sync = s.sync := by simp only [endEntry]; split <;> simp
@[simp] theorem endEntry_flt (s : State) (f i st res : Nat) : (endEntry s f i st res).flt = s.flt := by simp only [endEntry]; split <;> simp
@[simp] theorem endEntry_pcie (s : State) (f i st res : Nat) : (endEntry s f i st res).pcie = s.pcie := by simp only [endEntry]; split <;> simp
@[simp] theorem endEntry_trn (s : State) (f i st res : Nat) : (endEntry s f i st res).trn = s.trn := by simp only [endEntry]; split <;> simp
@[simp] theorem endEntry_sto (s : State) (f i st res : Nat) : (endEntry s f i st res).sto = s.sto := by simp only [endEntry]; split <;> simp
@[simp] theorem endEntry_cip (s : State) (f i st res : Nat) : (endEntry s f i st res).cip = s.cip := by simp only [endEntry]; split <;> simp
@[simp] theorem endEntry_lnk (s : State) (f i st res : Nat) : (endEntry s f i st res).lnk = s.lnk := by simp only [endEntry]; split <;> simp
@[simp] theorem endEntry_par (s : State) (f i st res : Nat) : (endEntry s f i st res).par = s.par := by simp only [endEntry]; split <;> simp
@[simp] theorem endEntry_sch (s : State) (f i st res : Nat) : (endEntry s f i st res).sch = s.sch := by simp only [endEntry]; split <;> simp
@[simp] theorem endEntry_lat (s : State) (f i st res : Nat) : (endEntry s f i st res).lat = s.lat := by simp only [endEntry]; split <;> simp
@[simp] theorem endEntry_sip (s : State) (f i st res : Nat) : (endEntry s f i st res).sip = s.sip := by simp only [endEntry]; split <;> simp
@[simp] theorem endEntry_boot (s : State) (f i st res : Nat) : (endEntry s f i st res).boot = s.boot := by simp only [endEntry]; split <;> simp
@[simp] theorem endEntry_pwr (s : State) (f i st res : Nat) : (endEntry s f i st res).pwr = s.pwr := by simp only [endEntry]; split <;> simp
@[simp] theorem endEntry_dbg (s : State) (f i st res : Nat) : (endEntry s f i st res).dbg = s.dbg := by simp only [endEntry]; split <;> simp
@[simp] theorem endEntry_side (s : State) (f i st res : Nat) : (endEntry s f i st res).side = s.side := by simp only [endEntry]; split <;> simp
@[simp] theorem endEntry_out (s : State) (f i st res : Nat) : (endEntry s f i st res).out = s.out := by simp only [endEntry]; split <;> simp
@[simp] theorem endEntry_pending (s : State) (f i st res : Nat) : (endEntry s f i st res).pending = s.pending := by simp only [endEntry]; split <;> simp

/-! ### What reads of one part see of updates of another -/

@[simp] theorem cellOf_setReg (s : State) (o : Nat) (v : DWord) (c : Nat) : cellOf (setReg s o v) c = cellOf s c := rfl
@[simp] theorem cellOf_wr (s : State) (f : Fld) (v : Nat) (c : Nat) : cellOf (wr s f v) c = cellOf s c := rfl
@[simp] theorem cellOf_emit (s : State) (o : Out) (c : Nat) : cellOf (emit s o) c = cellOf s c := rfl
@[simp] theorem cellOf_send (s : State) (p : Packet) (c : Nat) : cellOf (send s p) c = cellOf s c := rfl
@[simp] theorem rd_setCell (s : State) (c : Nat) (x : Cell) (f : Fld) : rd (setCell s c x) f = rd s f := rfl
@[simp] theorem rd_emit (s : State) (o : Out) (f : Fld) : rd (emit s o) f = rd s f := rfl
@[simp] theorem rd_send (s : State) (p : Packet) (f : Fld) : rd (send s p) f = rd s f := rfl
@[simp] theorem barOpen_setCell (s : State) (c : Nat) (x : Cell) : barOpen (setCell s c x) = barOpen s := rfl
@[simp] theorem barOpen_emit (s : State) (o : Out) : barOpen (emit s o) = barOpen s := rfl
@[simp] theorem memByte_setCell (s : State) (c : Nat) (x : Cell) (a : Nat) : memByte (setCell s c x) a = memByte s a := rfl

/-- The queue of a meaning's answer is the queue that it was given. -/
theorem keepQueue_next {s t : State} {a : Ans} (h : keepQueue s a = .next t) : t.pending = s.pending := by
  cases a with
  | next u => simp only [keepQueue, Host.Outcome.next.injEq] at h; rw [← h]
  | fault f => cases h
  | refused r => cases h

/-- A meaning whose body leaves the queue alone answers its body. -/
theorem keepQueue_of_pending {s t : State} (h : t.pending = s.pending) : keepQueue s (.next t) = .next t := by
  simp only [keepQueue, ← h]

/-- A cell reads as it was written. -/
theorem cellOf_setCell {s : State} {c : Nat} {x : Cell} (h : swf Cell.reset s.cells = true) : cellOf (setCell s c x) c = x :=
  sget_sput_same h

/-- Another cell reads as before. -/
theorem cellOf_setCell_other {s : State} {b c : Nat} {x : Cell} (h : b ≠ c) : cellOf (setCell s c x) b = cellOf s b :=
  sget_sput_other h

/-- A register reads as it was written. -/
theorem regv_setReg {s : State} {o : Nat} {v : DWord} (h : rising s.regs = true) : regv (setReg s o v) o = v :=
  sget_sput_rising h

/-- A write of a register keeps the keys of the register store rising. -/
theorem setReg_rising {s : State} {o : Nat} {v : DWord} (h : rising s.regs = true) : rising (setReg s o v).regs = true :=
  rising_sput h

/-- Another register reads as before. -/
theorem regv_setReg_other {s : State} {o p : Nat} {v : DWord} (h : p ≠ o) :
    sget (regReset o) (setReg s o v).regs p = sget (regReset o) s.regs p :=
  sget_sput_other h

end Sys2Proof.Machine
end

