-- ==== Sys2Proof/Laws/Kiben.lean ====
section
/-! SUPPORT. Laws/Kiben.lean: what issuing an instruction does on a cell that is ready, and the arithmetic behind FLAGS. -/

namespace Sys2Proof.Machine

/-- A ready cell is not in reset. -/
theorem Ready.notInReset {s : State} {c : Nat} (h : Ready s c) : cellInReset s c = false := by
  have h1 := h.1
  simp only [canIssue, Bool.and_eq_true, Bool.not_eq_true'] at h1
  exact h1.2

/-- An instruction of a ready cell runs its body on the cell. -/
theorem issue_ready {s : State} {c : Nat} (h : Ready s c) (f : State → Cell → State × KOut) :
    issue s c f = (if cellInReset (f s (cellOf s c)).1 c then (f s (cellOf s c)).1
      else finish (f s (cellOf s c)).1 c (f s (cellOf s c)).2) := by
  simp [issue, h.1, h.2]

/-- An instruction that touches its cell alone, on a ready cell. -/
theorem issueK_ready {s : State} {c : Nat} (h : Ready s c) (f : Cell → KOut) : issueK s c f = finish s c (f (cellOf s c)) := by
  simp [issueK, issue_ready h, h.notInReset]

/-- An instruction that only writes registers, on a ready cell. -/
theorem issueR_ready {s : State} {c : Nat} (h : Ready s c) (f : KCore → KCore) :
    issueR s c f = seqTo s c (f (coreOf s c)) := by
  simp [issueR, issueK_ready h, finish, seqTo, coreOf]

@[simp] theorem seqTo_pending (s : State) (c : Nat) (k : KCore) : (seqTo s c k).pending = s.pending := rfl
@[simp] theorem jumpTo_pending (s : State) (c : Nat) (k : KCore) (t : Word) : (jumpTo s c k t).pending = s.pending := rfl
@[simp] theorem memByte_seqTo (s : State) (c : Nat) (k : KCore) (a : Nat) : memByte (seqTo s c k) a = memByte s a := rfl

/-- An ALU instruction that is no division, on a ready cell. -/
theorem aluOp_ready {s : State} {c : Nat} (h : Ready s c) (op : AluOp) (ho : isDiv op = false) (d a b : BitVec 5) :
    aluOp s c op d a b = seqTo s c (let r := aluResult op (gReg (coreOf s c) a) (gReg (coreOf s c) b) (coreOf s c).flags
      { setG (coreOf s c) d r.1 with flags := r.2 }) := by
  simp [aluOp, issueK_ready h, ho, finish, seqTo]

/-- A division on a ready cell only starts. -/
theorem aluOp_div {s : State} {c : Nat} (h : Ready s c) (op : AluOp) (ho : isDiv op = true) (d a b : BitVec 5) :
    aluOp s c op d a b = setCell s c { cellOf s c with k := { coreOf s c with
      run := .dividing d (aluResult op (gReg (coreOf s c) a) (gReg (coreOf s c) b) (coreOf s c).flags).1 } } := by
  simp [aluOp, issueK_ready h, ho, finish]

/-- An ALU instruction with an immediate, on a ready cell. -/
theorem immOp_ready {s : State} {c : Nat} (h : Ready s c) (op : AluOp) (d a : BitVec 5) (i : Word) :
    immOp s c op d a i = seqTo s c (let r := aluResult op (gReg (coreOf s c) a) i (coreOf s c).flags
      { setG (coreOf s c) d r.1 with flags := r.2 }) := by
  simp [immOp, issueR_ready h]

/-- Writing a register leaves FLAGS. -/
@[simp] theorem setG_flags (k : KCore) (d : BitVec 5) (v : Word) : (setG k d v).flags = k.flags := by
  unfold setG
  split <;> rfl

/-- Writing g0 writes nothing (R91). -/
@[simp] theorem setG_zero (k : KCore) (v : Word) : setG k 0 v = k := by simp [setG]

/-- g0 reads as zero (R91). -/
@[simp] theorem gReg_zero (k : KCore) : gReg k 0 = 0 := by simp [gReg]

/-- Writing back the flags that are there changes nothing. -/
theorem setG_sameFlags (k : KCore) (d : BitVec 5) (v : Word) : { setG k d v with flags := k.flags } = setG k d v := by
  have := setG_flags k d v
  rw [← this]

/-- The sum with its flags, in the words of R103. -/
theorem addFlags_eq (x y : Word) (cin : Bool) :
    addFlags x y cin = (x + y + BitVec.ofNat 32 (b2n cin),
      nzcv (x + y + BitVec.ofNat 32 (b2n cin)) (decide (2 ^ 32 ≤ x.toNat + y.toNat + b2n cin))
        (outside32 (x.toInt + y.toInt + b2n cin))) := by
  have e : BitVec.ofNat 32 (x.toNat + y.toNat + b2n cin) = x + y + BitVec.ofNat 32 (b2n cin) := by
    apply BitVec.eq_of_toNat_eq
    simp [Nat.add_mod]
  simp only [addFlags, nzcv, e]
  refine Prod.ext rfl ?_
  simp only
  congr 1
  simp only [outside32, decide_eq_decide]
  have hx := BitVec.toInt_lt (x := x)
  have hx' := BitVec.le_toInt (x := x)
  have hy := BitVec.toInt_lt (x := y)
  have hy' := BitVec.le_toInt (x := y)
  have : (x + y + BitVec.ofNat 32 (b2n cin)).toInt = (x.toInt + y.toInt + b2n cin).bmod (2 ^ 32) := by
    rw [BitVec.toInt_add, BitVec.toInt_add]
    cases cin <;> simp [b2n, Int.bmod_add_bmod]
  rw [this]
  have hb : b2n cin ≤ 1 := by cases cin <;> simp [b2n]
  unfold Int.bmod
  simp at *
  omega

/-- The difference with its flags, in the words of R103. -/
theorem subFlags_eq (x y : Word) (nb : Bool) :
    subFlags x y nb = (x - y - BitVec.ofNat 32 (1 - b2n nb),
      nzcv (x - y - BitVec.ofNat 32 (1 - b2n nb)) (decide (y.toNat + (1 - b2n nb) ≤ x.toNat))
        (outside32 (x.toInt - y.toInt - ((1 - b2n nb : Nat) : Int)))) := by
  simp only [subFlags, nzcv]
  refine Prod.ext rfl ?_
  simp only
  congr 1
  simp only [outside32, decide_eq_decide]
  have hx := BitVec.toInt_lt (x := x)
  have hx' := BitVec.le_toInt (x := x)
  have hy := BitVec.toInt_lt (x := y)
  have hy' := BitVec.le_toInt (x := y)
  have : (x - y - BitVec.ofNat 32 (1 - b2n nb)).toInt = (x.toInt - y.toInt - ((1 - b2n nb : Nat) : Int)).bmod (2 ^ 32) := by
    rw [BitVec.toInt_sub, BitVec.toInt_sub]
    cases nb <;> simp [b2n, Int.bmod_sub_bmod]
  rw [this]
  have hb : 1 - b2n nb ≤ 1 := by cases nb <;> simp [b2n]
  unfold Int.bmod
  simp at *
  omega

end Sys2Proof.Machine
end

