-- ==== Sys2Proof/Laws/Memory.lean ====
section
/-! SUPPORT. Laws/Memory.lean: the operations over the memories keep the canonical form, and what one byte reads after them. -/

namespace Sys2Proof.Machine

/-- The canonical form, part by part. -/
theorem Mems.wf_iff (m : Mems) : m.wf = true ↔ swf 0 m.sram = true ∧ swf none m.hbm = true ∧ swf none m.ext = true ∧
    swf 0 m.ecc = true ∧ swf false m.par = true := by
  simp [Mems.wf, and_assoc]

/-- Writing one byte keeps the canonical form. -/
theorem setMemByte_wf {s : State} (a : Nat) (b : Byte) (h : s.m.wf = true) : (setMemByte s a b).m.wf = true := by
  obtain ⟨h1, h2, h3, h4, h5⟩ := (Mems.wf_iff _).1 h
  unfold setMemByte
  split <;> first
    | exact h
    | exact (Mems.wf_iff _).2 ⟨h1, swf_sput h2, h3, h4, h5⟩
    | exact (Mems.wf_iff _).2 ⟨swf_sput h1, h2, h3, h4, h5⟩
    | exact (Mems.wf_iff _).2 ⟨h1, h2, swf_sput h3, h4, h5⟩

/-- Writing bytes keeps the canonical form. -/
theorem setMemBytes_wf {s : State} (a : Nat) (l : List Byte) (h : s.m.wf = true) : (setMemBytes s a l).m.wf = true := by
  induction l generalizing s a with
  | nil => exact h
  | cons b r ih => exact ih (a + 1) (setMemByte_wf a b h)

/-- Marking words keeps the canonical form. -/
theorem swf_marks {m : SMap Nat} (l : List Nat) (h : swf 0 m = true) : swf 0 (l.foldl (fun e w => sput 0 e w 2) m) = true := by
  induction l generalizing m with
  | nil => exact h
  | cons w r ih => exact ih (swf_sput h)

/-- Marking words of instruction memory keeps the canonical form. -/
theorem swf_nadds {m : NSet} (f : Nat → Nat) (l : List Nat) (h : swf false m = true) :
    swf false (l.foldl (fun m i => nadd m (f i)) m) = true := by
  induction l generalizing m with
  | nil => exact h
  | cons w r ih => exact ih (swf_sput h)

/-- Poisoning a range keeps the canonical form. -/
theorem poisonRange_wf {s : State} (a n : Nat) (h : s.m.wf = true) : (poisonRange s a n).m.wf = true := by
  obtain ⟨h1, h2, h3, h4, h5⟩ := (Mems.wf_iff _).1 h
  unfold poisonRange
  split
  · exact h
  · split
    · exact (Mems.wf_iff _).2 ⟨h1, h2, h3, h4, swf_nadds _ _ h5⟩
    · exact h
    · exact h
    · exact h
    · exact (Mems.wf_iff _).2 ⟨h1, h2, h3, swf_marks _ h4, h5⟩

/-- A store of bytes with its check bits keeps the canonical form. -/
theorem storeBytes_wf {s : State} (a : Nat) (l : List Byte) (p : Bool) (h : s.m.wf = true) :
    (storeBytes s a l p).m.wf = true := by
  obtain ⟨h1, h2, h3, h4, h5⟩ := (Mems.wf_iff _).1 (setMemBytes_wf a l h)
  have h' : ∀ t : State, t.m = { (setMemBytes s a l).m with
      ecc := sclear (setMemBytes s a l).m.ecc ((a + 7) / 8) ((a + l.length) / 8 - (a + 7) / 8)
      par := sclear (setMemBytes s a l).m.par ((a + 3) / 4) ((a + l.length) / 4 - (a + 3) / 4) } → t.m.wf = true :=
    fun t e => by rw [e]; exact (Mems.wf_iff _).2 ⟨h1, h2, h3, swf_sclear _ h4, swf_sclear _ h5⟩
  simp only [storeBytes]
  split
  · exact poisonRange_wf _ _ (h' _ rfl)
  · exact h' _ rfl

/-- Correcting a word keeps the canonical form of the check bits. -/
theorem ecc_corrected_wf {m : Mems} (w : Nat) (h : m.wf = true) : ({ m with ecc := sput 0 m.ecc w 0 } : Mems).wf = true := by
  obtain ⟨h1, h2, h3, h4, h5⟩ := (Mems.wf_iff _).1 h
  exact (Mems.wf_iff _).2 ⟨h1, h2, h3, swf_sput h4, h5⟩

/-- A region of one array cleared keeps the canonical form. -/
theorem sram_cleared_wf {m : Mems} (a n : Nat) (h : m.wf = true) : ({ m with sram := sclear m.sram a n } : Mems).wf = true := by
  obtain ⟨h1, h2, h3, h4, h5⟩ := (Mems.wf_iff _).1 h
  exact (Mems.wf_iff _).2 ⟨swf_sclear _ h1, h2, h3, h4, h5⟩

/-- The end of an extent's scrub keeps the canonical form. -/
theorem extentScrubbed_wf {s : State} (e : Nat) (h : s.m.wf = true) : (extentScrubbed s e).m.wf = true := by
  obtain ⟨h1, h2, h3, h4, h5⟩ := (Mems.wf_iff _).1 h
  exact (Mems.wf_iff _).2 ⟨h1, swf_sclear _ h2, h3, swf_sclear _ h4, h5⟩

/-- The end of a granule's scrub keeps the canonical form. -/
theorem granuleScrubbed_wf {s : State} (g : Nat) (h : s.m.wf = true) : (granuleScrubbed s g).m.wf = true := by
  obtain ⟨h1, h2, h3, h4, h5⟩ := (Mems.wf_iff _).1 h
  exact (Mems.wf_iff _).2 ⟨swf_sclear _ h1, h2, h3, swf_sclear _ h4, h5⟩

/-- Setting a run of registers leaves the memories. -/
theorem foldl_setReg_m (k : Nat → Nat) (v : DWord) (l : List Nat) (s : State) :
    (l.foldl (fun s i => setReg s (k i) v) s).m = s.m := by
  induction l generalizing s with
  | nil => rfl
  | cons i r ih => exact (ih _).trans rfl

/-- Clearing a cell keeps the canonical form. -/
theorem cellScrub_wf {s : State} (c : Nat) (h : s.m.wf = true) : (cellScrub s c).m.wf = true := by
  obtain ⟨h1, h2, h3, h4, h5⟩ := (Mems.wf_iff _).1 h
  unfold cellScrub
  rw [foldl_setReg_m]
  exact (Mems.wf_iff _).2 ⟨swf_sclear _ (swf_sclear _ h1), h2, h3, swf_sclear _ (swf_sclear _ h4), swf_sclear _ h5⟩

/-- A CHIP or FULL reset keeps the canonical form. -/
theorem chipResetTo_wf {s : State} (i lvl : Nat) (h : s.m.wf = true) : (chipResetTo s i lvl).m.wf = true :=
  (Mems.wf_iff _).2 ⟨rfl, rfl, ((Mems.wf_iff _).1 h).2.2.1, rfl, rfl⟩

/-- Writing a run of bytes at an offset keeps the canonical form. -/
theorem swf_puts {m : SMap Byte} (base : Nat) (l : SMap Byte) (h : swf 0 m = true) :
    swf 0 (l.foldl (fun m p => sput 0 m (base + p.1) p.2) m) = true := by
  induction l generalizing m with
  | nil => exact h
  | cons p r ih => exact ih (swf_sput h)

/-- Installing a cell's image keeps the canonical form. -/
theorem putCellImg_wf {s : State} (t c : Nat) (x : CellImg) (h : s.m.wf = true) : (putCellImg t s c x).m.wf = true := by
  obtain ⟨h1, h2, h3, h4, h5⟩ := (Mems.wf_iff _).1 h
  exact (Mems.wf_iff _).2 ⟨swf_puts _ _ (swf_puts _ _ (swf_sclear _ (swf_sclear _ h1))), h2, h3, swf_sclear _ h4, swf_sclear _ h5⟩

/-- The memories right after power-on are in canonical form. -/
theorem reset_mem_wf : State.reset.m.wf = true := by decide

/-- A byte of scratch, instruction memory or the reservoir reads what was written to it. -/
theorem memByte_setMemByte_sram {s : State} {a : Nat} {b : Byte} (h : s.m.wf = true)
    (ha : (∃ g, areaOf a = .rsv g) ∨ (∃ c, areaOf a = .scratch c) ∨ ∃ c, areaOf a = .imem c) :
    memByte (setMemByte s a b) a = b := by
  obtain ⟨h1, _⟩ := (Mems.wf_iff _).1 h
  rcases ha with ⟨g, ha⟩ | ⟨g, ha⟩ | ⟨g, ha⟩ <;>
    simp only [memByte, setMemByte, ha] <;> exact sget_sput_same h1

end Sys2Proof.Machine
end

