-- ==== Sys2Proof/Laws/Runs.lean ====
section
/-! SUPPORT. Laws/Runs.lean: how a computation over the memories runs, and what wrapping a meaning does to the queue. -/

namespace Sys2Proof.Machine

/-- A meaning that answers a next state answers it with the queue as it found it. -/
@[simp] theorem keepQueue_of_next (s t : State) : keepQueue s (.next t) = .next (withQueue s t) := rfl

/-- A meaning never touches the queue. -/
@[simp] theorem withQueue_pending (s t : State) : (withQueue s t).pending = s.pending := rfl

/-- Keeping the queue of a state whose queue is the same changes nothing. -/
theorem withQueue_same {s t : State} (h : t.pending = s.pending) : withQueue s t = t := by rw [withQueue, ← h]

@[simp] theorem withQueue_self (s : State) : withQueue s s = s := rfl

/-- A value alone leaves the state. -/
@[simp] theorem runMM_pure {α : Type} (s : State) (a : α) : runMM s (pure a : MM α) = (.ok a, s) := rfl

/-- An error leaves the state. -/
@[simp] theorem runMM_throw {α : Type} (s : State) (e : MErr) : runMM s (throw e : MM α) = (.error e, s) := rfl

/-- One computation after another: an error ends both. -/
theorem runMM_bind {α β : Type} (s : State) (x : MM α) (k : α → MM β) : runMM s (x >>= k) = (match runMM s x with
    | (.ok a, t) => runMM t (k a)
    | (.error e, t) => (.error e, t)) := by
  simp only [runMM, bind, ExceptT.bind, ExceptT.mk, ExceptT.run, ExceptT.bindCont, StateT.bind, StateT.run]
  rcases x s with ⟨a | a, t⟩ <;> rfl

/-- A function over a computation's value. -/
theorem runMM_map {α β : Type} (s : State) (x : MM α) (k : α → β) : runMM s (k <$> x) = (match runMM s x with
    | (.ok a, t) => (.ok (k a), t)
    | (.error e, t) => (.error e, t)) := by
  rw [← bind_pure_comp, runMM_bind]
  rfl

/-- A row's meaning on an entry that is fetched and of its class and opcode. -/
theorem runEntry_ready {s : State} {f i cls op : Nat} {e : Entry} (h : EntryReady s f i cls op e) (k : Entry → State) :
    runEntry s f i cls op k = k e := by
  obtain ⟨h1, h2, h3, h4⟩ := h
  simp [runEntry, h1, h2, h3, h4]

/-- An access to data that succeeds goes on with its value. -/
theorem withData_ok {α : Type} {s t : State} {e : Entry} {x : MM α} {a : α} (src : Nat) (h : runMM s x = (.ok a, t)) (k : α → State → State) :
    withData s e src x k = k a t := by
  simp only [withData, h]

end Sys2Proof.Machine
end

