-- ==== Sys2Proof/Tests/Slice0.lean ====
section
/-! SUPPORT. Tests/Slice0.lean: the well-formedness smoke, small tests of single commands, and for every statement concrete states
and operands that meet its hypotheses (`witness_…`). Expected results are worked out by hand from the rules cited. -/

open Sys2Proof Sys2Proof.Machine

namespace Sys2Proof.Tests

set_option Elab.async false

/-! ### Builders -/

/-- An operational device: firmware running, out of reset. -/
def on : State :=
  { wr State.reset f_GEN_STATE_STATE 5 with boot := { State.reset.boot with
    inRst := false
    powered := true
    stage := .done
    fw := some ⟨0x10000, 1, [], []⟩ } }

/-- A cell of turnout 3 whose core runs at 100h: g1 the last word of scratch, g2 = 7, g3 unaligned, g4 a window address. -/
def cell : Cell :=
  { Cell.reset with
    turnout := 3
    k := { KCore.reset with
      run := .running
      pc := 0x100
      g := [(1, 0x100FFFFC), (2, 7), (3, 0x10000001), (4, 0x40000000), (5, 0x10000000), (6, 0x200), (7, 0x10000040)]
      tvec := 0x40 } }

/-- The operational device with cell 5 changed. -/
def at5 (f : Cell → Cell) : State := setCell on 5 (f cell)

/-- Cell 5 with another core state. -/
def core5 (f : KCore → KCore) : State := at5 (fun x => { x with k := f x.k })

/-- User mode, with one MPU region that allows everything. -/
def asUser (k : KCore) : KCore := { k with status := 0, mpu := [(0, 0xF), (8, 0xFFFFFFFF)] }

/-- In trap handling. -/
def asExl (k : KCore) : KCore := { k with status := 0b10001 }

/-- A read or write of memory that succeeds. -/
def okRead {α : Type} (s : State) (x : MM α) : Bool :=
  match (runMM s x).1 with
  | .ok _ => true
  | .error _ => false

/-- The next state of a command; State.reset where it answers none. -/
def nextOf (a : Host.Outcome State Fault Refusal) : State :=
  match a with
  | .next t => t
  | _ => State.reset


/-- A computation over memory that answers a value with a property. -/
def valIs {α : Type} (s : State) (x : MM α) (p : α → Bool) : Bool :=
  match (runMM s x).1 with
  | .ok v => p v
  | .error _ => false

/-- A computation over memory that ends in an error with a property. -/
def errIs {α : Type} (s : State) (x : MM α) (p : MErr → Bool) : Bool :=
  match (runMM s x).1 with
  | .ok _ => false
  | .error e => p e

/-- The management firmware's granule 0 of the reservoir. -/
def owned (s : State) : State := wr s (f_TRN_GRAN_OWNER 0) 0x201
/-- The first byte of the reservoir. -/
def rsv : Nat := 0x10000000000

/-! ### Statements about the whole machine -/

theorem witness_QueueFront : ({ on with pending := [.add 5 1 2 3] } : State).pending = .add 5 1 2 3 :: [] := rfl
theorem witness_QueueFront_idle : (let s := { State.reset with boot := { State.reset.boot with powered := false } }
    s.pending = [] ∧ clocksRun s = false) := by decide
theorem witness_QueueStaysSound : QueueOk { on with pending := [.add 5 1 2 3, .telSnapArm] } := by
  intro c hc
  simp only [List.mem_cons, List.not_mem_nil, or_false] at hc
  rcases hc with rfl | rfl <;> rfl
theorem witness_KibenDecodeEncode : kOk (.addi 31 31 0xFFFF) = true ∧ kOk (.loop 2 31 0xFFF) = true ∧ kOk (.cp3 (.dq 31)) = true := by decide
theorem witness_Conditions : condOk 0xD = true ∧ (0xD#4).getLsbD 0 = true := by decide
theorem witness_KeySlotRelease : rising (writeSlot on 8191 1 3 [1]).cip.slots = true ∧ (7 = 6 ∨ 7 = 7) := by decide

/-! ### The core -/

theorem ready_core : Ready (core5 id) 5 := ⟨by decide +kernel, by decide +kernel⟩
theorem witness_CoreAddMultiply : Ready (core5 id) 5 := ready_core
theorem ready_user : Ready (core5 asUser) 5 := ⟨by decide +kernel, by decide +kernel⟩
theorem ready_exl : Ready (core5 asExl) 5 := ⟨by decide +kernel, by decide +kernel⟩

/-- CoreAddMultiply, CoreShiftDivide, CoreBranches, CoreLoops, CoreControlRegisters, CoreTraps, CoreRuns, CoreIssue, CoreLoads, CoreStores,
CoreAlignment, Conditions: the hypothesis that a core can issue. -/
theorem witness_Ready : (∃ s, Ready s 5 ∧ userMode (coreOf s 5) = false) ∧ (∃ s, Ready s 5 ∧ userMode (coreOf s 5) = true ∧ exl (coreOf s 5) = false) ∧
    ∃ s, Ready s 5 ∧ exl (coreOf s 5) = true :=
  ⟨⟨_, ready_core, by decide +kernel⟩, ⟨_, ready_user, by decide +kernel⟩, ⟨_, ready_exl, by decide +kernel⟩⟩

theorem witness_CoreShiftDivide_end : (coreOf (core5 (fun k => { k with run := .dividing 3 9 })) 5).run = .dividing 3 9 ∧
    cellInReset (core5 (fun k => { k with run := .dividing 3 9 })) 5 = false := by decide +kernel
theorem witness_CoreBranches_aligned : 4 ∣ (gReg (coreOf (core5 id) 5) 6 + (0x8#16).signExtend 32).toNat ∧
    ¬ 4 ∣ (gReg (coreOf (core5 id) 5) 3 + (0x0#16).signExtend 32).toNat ∧ ¬ 4 ∣ (gReg (coreOf (core5 asExl) 5) 3 + (0x0#16).signExtend 32).toNat := by
  decide +kernel
/-- The largest body that fits: 100h + 4 × 1FBFh = 7FFCh; and an inner loop inside an outer one. -/
theorem witness_CoreLoops : (let k := coreOf (core5 id) 5
    exl k = false ∧ 0 < 3 ∧ (0x0FF#12) ≠ 0 ∧ 0 = loopDepth k ∧ k.pc.toNat + 4 * (0x0FF#12).toNat ≤ 0x7FFC) ∧
    (let k := coreOf (core5 (fun k => { k with pc := 0x7FF8, loops := [(0, 0x7FF8), (4, 0x7FFC), (8, 2)] })) 5
    1 = loopDepth k ∧ k.pc.toNat + 4 * 1 ≤ 0x7FFC ∧ (loopS k 0).toNat ≤ k.pc.toNat ∧ k.pc.toNat + 4 * 1 ≤ (loopE k 0).toNat) := by
  decide +kernel
theorem witness_CoreLoops_refused : exl (coreOf (core5 id) 5) = false ∧ loopDepth (coreOf (core5 id) 5) = 0 ∧ (1#2) ≠ 3 ∧ (0xFFF#12) ≠ 0 ∧
    (1#2).toNat ≠ loopDepth (coreOf (core5 id) 5) ∧ (2#2).toNat ≠ loopDepth (coreOf (core5 id) 5) := by decide +kernel
theorem witness_CoreControlRegisters : userMode (coreOf (core5 id) 5) = false ∧ crUser 0x000 = true ∧ crUser 0x001 = false ∧
    (crWrite (core5 id) (coreOf (core5 id) 5) 0x001 0x1F).isSome = true ∧ swf 0 (coreOf (core5 id) 5).captured = true ∧
    swf Cell.reset (core5 id).cells = true := by decide +kernel
theorem witness_CoreControlRegisters_listed : crListed 0 = true ∧ crListed 0x02A = false ∧ crListed 0xFFF = false ∧
    userMode (coreOf (core5 asUser) 5) = true ∧ crListed 0x001 = true ∧ exl (coreOf (core5 asUser) 5) = false := by decide +kernel
theorem witness_CoreTraps : (cellOf (core5 id) 5).dbg.claimed = false ∧
    (cellOf (at5 (fun x => { x with dbg := { x.dbg with claimed := true } })) 5).dbg.claimed = true := by decide +kernel
theorem witness_CoreRuns_unpark : (let s := core5 (fun k => { k with run := .parked, cycHeld := some 9 })
    (cellOf s 5).k.run = .parked ∧ (cellOf s 5).k.cycHeld = some 9 ∧ cellInReset s 5 = false ∧ barOpen s = true) := by decide +kernel
theorem witness_CoreRuns_timer : (let s := core5 (fun k => { k with tcArmed := true, timecmp := 0 })
    (coreOf s 5).tcArmed = true ∧ (coreOf s 5).timecmp.toNat ≤ s.tb.ns.toNat) := by decide +kernel
theorem witness_CoreRuns_start : (let s := core5 (fun k => { k with run := .halted })
    (List.replicate 4 (0#8)).length ≤ 0x8000 ∧ cellInReset s 5 = false ∧ (coreOf s 5).run = .halted ∧ (cellOf s 5).turnout ≠ 0x200#10) := by
  decide +kernel
/-- The backing image of a reload lies in a reservoir granule of the turnout. -/
def reloadS : State :=
  wr (core5 (fun k => { k with run := .reload 0x7FFC none, imemBack := 0x10000000000 })) (f_TRN_GRAN_OWNER 0) 3
theorem witness_CoreRuns_reload : (coreOf reloadS 5).run = .reload 0x7FFC none ∧ cellInReset reloadS 5 = false ∧
    okRead reloadS (physRead (cellVia 5) (cellOf reloadS 5).turnout.toNat ((coreOf reloadS 5).imemBack.toNat + 64 * (0x7FFC / 64)) 64) = true := by
  decide +kernel
theorem witness_CoreInterrupts : (let s := core5 (fun k => { k with status := 0b00011, ien := 0xF, ipend := 0xC })
    let x := cellOf s 5
    cellInReset s 5 = false ∧ x.k.run = .running ∧ x.dbg.stepping = false ∧ ie x.k = true ∧ exl x.k = false ∧
    (ipendOf x &&& x.k.ien).getLsbD 2 = true ∧ (∀ j : Fin 4, (ipendOf x &&& x.k.ien).getLsbD j = true → j.val = 2 ∨
      ([2, 3, 1, 0] : List Nat).idxOf 2 < ([2, 3, 1, 0] : List Nat).idxOf j.val)) := by decide +kernel
theorem witness_CoreIssue_illegal : kDecode 0#32 = .ill 0 ∧ kDecode 0x83800000#32 = .ill 3 := by decide
theorem witness_CoreIssue_cp : kDecode (kEncode (.cp1 (.vxclr 7))) = .ok (.cp1 (.vxclr 7)) ∧ 0xE0000000 ≤ (kEncode (.cp1 (.vxclr 7))).toNat ∧
    kDecode (kEncode (.cp0 (.tclr 3))) = .ok (.cp0 (.tclr 3)) ∧ (accept0 (cellOf (core5 id) 5).t (.tclr 3)).isSome = true ∧
    0xE0000000 ≤ (kEncode (.cp0 (.tclr 3))).toNat ∧ (cellOf (core5 id) 5).t.halted = false ∧ (cellOf (core5 id) 5).v.halted = false := by decide +kernel
/-- The last word of scratch. -/
theorem witness_CoreLoads : (let s := core5 id
    let x := cellOf s 5
    let a := gReg x.k 1 + (0#16).signExtend 32
    localOf a.toNat = .scratch 0xFFFFC ∧ wpHit x a.toNat 4 false = none ∧ (checkRange s (scratchPA 5 + 0xFFFFC) 4 false).1 = false ∧ 4 ∣ a.toNat ∧
    2 ∣ a.toNat) := by decide +kernel
theorem witness_CoreLoads_user : (let s := core5 asUser
    let x := cellOf s 5
    userMode x.k = true ∧ mpuOk x.k 0x100FFFFC .load = true ∧ mpuOk x.k 0x100FFFFC .store = true) := by decide +kernel
theorem checkRange_same (n : Nat) (h : n = 1 ∨ n = 2 ∨ n = 4) : checkRange (core5 id) (scratchPA 5 + 0xFFFFC) n false = (false, core5 id) := by
  rcases h with rfl | rfl | rfl <;> rfl
theorem witness_CoreStores : (let s := core5 id
    let x := cellOf s 5
    localOf 0x100FFFFC = .scratch 0xFFFFC ∧ wpHit x 0x100FFFFC 4 true = none ∧ mergeBad s (scratchPA 5 + 0xFFFFC) 4 = false ∧
    localOf 0x7FFC = .imem 0x7FFC ∧ userMode x.k = false) := by decide +kernel
theorem witness_CoreAlignment : ¬ 2 ∣ (gReg (coreOf (core5 id) 5) 3 + (0#16).signExtend 32).toNat ∧
    ¬ 4 ∣ (gReg (coreOf (core5 id) 5) 3 + (1#16).signExtend 32).toNat := by decide +kernel
theorem witness_CoreStoreFrame : (core5 id).m.wf = true ∧ swf Cell.reset (core5 id).cells = true ∧
    (∃ t, exec (.sw 5 2 1 0) (core5 id) = .next t) := ⟨by decide +kernel, by decide +kernel, _, rfl⟩
theorem witness_CoreWindows : (let s := core5 id
    let x := cellOf s 5
    localOf 0x40000000 = .rsv 0 ∧ wpHit x 0x40000000 4 false = none ∧ wpHit x 0x40000000 4 true = none ∧ okRead s (localPA 5 0x40000000 false) = true ∧
    okRead s (localPA 5 0x40000000 true) = true ∧ cellInReset (runMM s (localPA 5 0x40000000 true)).2 5 = false ∧
    cellInReset (runMM s (localPA 5 0x40000000 false)).2 5 = false) := by decide +kernel
/-- A window that no entry maps is refused at both ends of its range. -/
theorem witness_CoreWindows_refused : (let s := core5 id
    localOf 0x8FFFFFFC = .trans 0 0xFFFFFFC ∧ wpHit (cellOf s 5) 0x8FFFFFFC 4 false = none ∧
    errIs s (localPA 5 0x8FFFFFFC false) (fun e => match e with | .page _ _ _ => false | _ => true) = true ∧
    errIs s (localPA 5 0x8FFFFFFC true) (fun e => match e with | .page _ _ _ => false | _ => true) = true ∧
    cellInReset (runMM s (localPA 5 0x8FFFFFFC false)).2 5 = false) := by decide +kernel
/-- An access whose response has come back, and whose deadline has passed. -/
def accessS : State :=
  let a : Access95 := ⟨false, .lw, 3, 0x8FFFFFFC, 0, 0x10000000000, 7, 0, none, none⟩
  let s := core5 (fun k => { k with run := .access a })
  { s with fab := { s.fab with net := [⟨endpointOf 5, 0x300, 2, 0, 3, 7, 0, 4, [1, 2, 3, 4], 0, 0, 0⟩] } }
theorem witness_CoreWindows_response : (coreOf accessS 5).run = .access ⟨false, .lw, 3, 0x8FFFFFFC, 0, 0x10000000000, 7, 0, none, none⟩ ∧
    cellInReset accessS 5 = false ∧ localOf 0x8FFFFFFC = .trans 0 0xFFFFFFC ∧ swf Cell.reset accessS.cells = true ∧ (0 : Nat) < { accessS with clk := 1 }.clk ∧
    accessS.clk ≤ 0 ∧ (accessS.fab.net.find? (fun q => (q.ty == 2 || q.ty == 4) && q.dest == endpointOf 5 && q.tag == 7)).any
      (fun p => (arrive accessS p).1) = true := by decide +kernel
/-- The same access at the reservoir window: the block's port makes it. -/
theorem witness_CoreWindows_port : (let a : Access95 := ⟨false, .lw, 3, 0x40000000, 0, 0x10000000000, 7, 5, none, none⟩
    let s := core5 (fun k => { k with run := .access a })
    (coreOf s 5).run = .access a ∧ cellInReset s 5 = false ∧ s.clk ≤ 5 ∧ localOf 0x40000000 = .rsv 0 ∧ cellInReset (doAccess s 5 a).2.2 5 = false) := by
  decide +kernel

/-! ### Coprocessors -/

/-- Cell 5 with one instruction in CP0's queue: rows of 128 bytes from the start of scratch. -/
def cp0 (op : CP0Op) (f : Tensor → Tensor) : State :=
  at5 (fun x => { x with t := f { x.t with q := [⟨op, 0x10000000, 128, false, 0x100⟩] } })
/-- Cell 5 with one instruction in CP1's queue: the last 64 bytes of scratch. -/
def cp1 (op : CP1Op) : State := at5 (fun x => { x with v := { x.v with q := [⟨op, 0x100FFFC0, 0, false, 0x100⟩] } })
/-- Tiles A0 and B0 of FP16 zeros and an exact bank. -/
def twoTiles (t : Tensor) : Tensor :=
  { t with tiles := [(0, ⟨.fp16, 0, List.replicate 1024 0, []⟩), (8, ⟨.fp16, 0, List.replicate 1024 0, []⟩)], banks := [(0, .exact [])] }
/-- An MX tile in A0. -/
def mxTile (t : Tensor) : Tensor := { t with tiles := [(0, ⟨.mxE4m3, 0, List.replicate 1024 0, []⟩)] }

/-- CP0's instructions reach the head of its queue, and their operands lie in scratch. -/
theorem witness_Tensor_read : ([(.tld 0 1 2 0 0, 32, 128, id), (.tldt 0 1 2 8 0, 32, 128, id), (.tlds 1 2 0, 32, 1, mxTile)] :
      List (CP0Op × Nat × Nat × (Tensor → Tensor))).all (fun p =>
    let s := cp0 p.1 p.2.2.2
    let x := cellOf s 5
    decide (cellInReset s 5 = false) && (startable x.t.q false).isSome && decide (cpCheck x false (rowsAt 0x10000000 128 p.2.1 p.2.2.1) true .load = none) &&
    (cpRead s 5 (rowsAt 0x10000000 128 p.2.1 p.2.2.1)).1.isSome &&
    !cellInReset (cpRead s 5 (rowsAt 0x10000000 128 p.2.1 p.2.2.1)).2 5) = true := by decide +kernel
theorem witness_Tensor_tlds : (tileOf (cellOf (cp0 (.tlds 1 2 0) mxTile) 5) 0).isSome = true := by decide +kernel
theorem witness_Tensor_tclr : (startable (cellOf (cp0 (.tclr 3) id) 5).t.q false).isSome = true := by decide +kernel
theorem witness_Tensor_tmma : (let s := cp0 (.tmma 0 0 0 0) twoTiles
    let x := cellOf s 5
    match tileOf x 0, tileOf x 8 with
    | some a, some b => (startable x.t.q true).isSome && tileWhole a && tileWhole b && a.kq == b.kq &&
        (tmmaBank (bankOf x 0) (tmmaOrdered 0 a.fmt b.fmt) a b).isSome
    | _, _ => false) = true := by decide +kernel
theorem witness_Tensor_trnd : (let s := cp0 (.trnd 0 1 2 0 0) twoTiles
    let x := cellOf s 5
    let rows := (List.range 32).map (trndRow x 0 (fmtOf 0) 0)
    let ws := ((rowsAt 0x10000000 128 32 0).zip (rows.map (fun r => r.1))).map (fun p => (p.1.1, p.2))
    (startable x.t.q false).isSome = true ∧ isMX (fmtOf 0) = false ∧ cpCheck x false (ws.map (fun w => (w.1, w.2.length))) true .store = none ∧
    (cpMergeBad s 5 ws = false ∧ cellInReset (cpPut s 5 ws) 5 = false)) := by decide +kernel
/-- One LAX slot: index 1023 of the bank, the record at the start of scratch. -/
def laxS (op : CP0Op) : State :=
  at5 (fun x => { x with t := { (twoTiles x.t) with q := [⟨op, 0x10000000, 0x001F0060, false, 0x100⟩] } })
theorem witness_Tensor_txp : (let s := laxS (.txp 0 1 2)
    let x := cellOf s 5
    laxRange 0x001F0060 = false ∧ (startable x.t.q false).isSome = true ∧
    cpCheck x false (laxSlots 0x10000000 0x001F0060).2 true .store = none ∧
    (let ws := (laxSlots 0x10000000 0x001F0060).2.mapIdx (fun j r =>
      (r.1, padTo 96 (bankAcc (bankOf x 0) (32 * (laxSlots 0x10000000 0x001F0060).1 + j)).toLAX))
    cpMergeBad s 5 ws = false ∧ cellInReset (cpPut s 5 ws) 5 = false)) := by decide +kernel
theorem witness_Tensor_tim : (let s := laxS (.tim 0 1 2)
    let x := cellOf s 5
    bankOf x 0 = .exact [] ∧ cpCheck x false (laxSlots 0x10000000 0x001F0060).2 true .load = none ∧
    (cpRead s 5 (laxSlots 0x10000000 0x001F0060).2).1.isSome = true ∧ cellInReset (cpRead s 5 (laxSlots 0x10000000 0x001F0060).2).2 5 = false ∧ (ofLAX (List.replicate 96 0)).isSome = (ofLAX ((List.replicate 96 0))).isSome) := by
  decide +kernel
theorem witness_Tensor_queue : ([.tmtc 1 1, .tsig 31, .twait 1 31] : List CP0Op).all (fun op =>
    decide (((startable (cellOf (cp0 op id) 5).t.q false).map Prod.fst) = some 0 ∧ (cellOf (cp0 op id) 5).t.wait = none)) = true := by decide +kernel
theorem witness_Tensor_tmfc : t0Listed 1 = true ∧ (cellOf (core5 id) 5).t.q = [] := by decide +kernel

theorem witness_Vector_head : cellInReset (cp1 (.vxclr 7)) 5 = false ∧
    (cellOf (cp1 (.vxclr 7)) 5).v.q = ⟨.vxclr 7, 0x100FFFC0, 0, false, 0x100⟩ :: [] := by decide +kernel
theorem witness_Vector_vcvt : fmtOfCode (0#5).toNat = some .fp32 ∧ (fmtOfCode (0x1#5).toNat).isSome = true := by decide
theorem witness_Vector_vld : (let s := cp1 (.vld 0 1)
    let x := cellOf s 5
    cpCheck x false [(0x100FFFC0, 64)] (0x100FFFC0 % 64 == 0) .load = none ∧ (cpRead s 5 [(0x100FFFC0, 64)]).1 = some [List.replicate 64 0] ∧
    cellInReset (cpRead s 5 [(0x100FFFC0, 64)]).2 5 = false) := by
  decide +kernel
theorem witness_Vector_vst : (let s := cp1 (.vst 0 1 ⟨0, 0, 0⟩)
    let x := cellOf s 5
    let ws := vstPieces x 0x100FFFC0 (vReg x 0) ⟨0, 0, 0⟩
    cpCheck x false (ws.map (fun w => (w.1, w.2.length))) (0x100FFFC0 % 64 == 0) .store = none ∧ (cpMergeBad s 5 ws = false ∧ cellInReset (cpPut s 5 ws) 5 = false)) := by decide +kernel
theorem witness_Vector_vxp : (let s := at5 (fun x => { x with v := { x.v with q := [⟨.vxp 0 1, 0x100FFFA0, 0, false, 0x100⟩] } })
    let x := cellOf s 5
    cpCheck x false [(0x100FFFA0, 96)] (0x100FFFA0 % 32 == 0) .store = none ∧ cpMergeBad s 5 [(0x100FFFA0, padTo 96 (xReg x 0).toLAX)] = false ∧
    cellInReset (cpPut s 5 [(0x100FFFA0, padTo 96 (xReg x 0).toLAX)]) 5 = false) := by
  decide +kernel
/-- A stored LAX record of zero. -/
def laxMem : State :=
  storeBytes (at5 (fun x => { x with v := { x.v with q := [⟨.vxim 0 1, 0x100FFFA0, 0, false, 0x100⟩] } })) (scratchPA 5 + 0xFFFA0)
    (padTo 96 Acc.zero.toLAX) false
theorem witness_Vector_vxim : cpCheck (cellOf laxMem 5) false [(0x100FFFA0, 96)] (0x100FFFA0 % 32 == 0) .load = none ∧
    (match (cpRead laxMem 5 [(0x100FFFA0, 96)]).1 with
    | some [l] => (ofLAX l).isSome
    | _ => false) = true ∧ cellInReset (cpRead laxMem 5 [(0x100FFFA0, 96)]).2 5 = false := by decide +kernel
theorem witness_Vector_control : (cellOf (cp1 (.vwait 1 31)) 5).v.wait = none ∧ v1Listed 1 = true ∧ (cellOf (core5 id) 5).v.q = [] := by decide +kernel

/-! ### Sluices, barriers, inbox -/

theorem witness_SluiceInstructions : s2Listed 0 = true ∧ smtcPriv 0 = smtcPriv (0#7).toNat ∧ userMode (coreOf (core5 asUser) 5) = true ∧
    exl (coreOf (core5 asUser) 5) = false := by decide +kernel
/-- A wait that is satisfied at its threshold, and one whose watchdog has just run out. -/
def wMet : Waiter := ⟨31, 0, 0, 0, false, 0⟩
def wLate : Waiter := ⟨31, 1, 0, 1, false, 0⟩
def lateS : State := { at5 (fun x => { x with k := { x.k with run := .swait wLate } }) with clk := 1000 }
theorem witness_SluiceInstructions_wait : (let s := at5 (fun x => { x with
      k := { x.k with run := .swait wMet }
      t := { x.t with wait := some wMet, q := [⟨.twait 1 31, 0, 0, false, 0⟩] }
      v := { x.v with wait := some wMet, q := [⟨.vwait 1 31, 0, 0, false, 0⟩] }
      dma := { x.dma with wait := some wMet } })
    let x := cellOf s 5
    cellInReset s 5 = false ∧ waitDone x wMet = true ∧ x.k.run = .swait wMet ∧ x.t.wait = some wMet ∧ x.v.wait = some wMet ∧ x.dma.wait = some wMet) := by
  decide +kernel
theorem witness_SluicesAndBarriers_watchdog : waitOf (cellOf lateS 5) 0 = some wLate ∧ cellInReset lateS 5 = false ∧
    waitDone (cellOf lateS 5) wLate = false ∧ wLate.limit ≠ 0 ∧ wLate.fired = false ∧ wLate.at_ + 1000 * wLate.limit ≤ lateS.clk := by
  decide +kernel
/-- Cell 5 with its inbox enabled, a ring of one message, a message in its buffer and one on its way. -/
def inboxS : State :=
  let s := at5 (fun x => { x with sl := { x.sl with icfg := 0x8000001F, ibase := 0x10000000, buf := [⟨0x101, List.replicate 64 7, false⟩] } })
  { s with fab := { s.fab with net := [⟨72, 0x101, 0, 0, 3, 0, 0, 64, List.replicate 64 9, 0, 0, 0⟩] } }
theorem witness_SluicesAndBarriers_inbox : (let x := cellOf inboxS 5
    (inboxS.fab.net.find? (isMsgFor 5)).isSome = true ∧ cellInReset inboxS 5 = false ∧ inboxEn x = true ∧ parked x = false ∧
    (inboxS.fab.net.find? (isMsgFor 5)).any (fun p => (arrive inboxS p).1 && !cellInReset (arrive inboxS p).2 5 && inboxEn (cellOf (arrive inboxS p).2 5)) = true ∧
    mergeBad inboxS (scratchPA 5 + 64) 4 = false ∧ depositReady inboxS 5 = true ∧
    3 = x.turnout.toNat ∧ x.sl.buf.length < 16 ∧ x.sl.buf = ⟨0x101, List.replicate 64 7, false⟩ :: [] ∧
    (x.sl.iprod - x.sl.icons).toNat < 2 ^ bits x.sl.icfg.toNat 19 16) := by decide +kernel
/-- A dump that is armed for the instant 0, into a granule of the manager. -/
def dumpS : State := wr (wr on f_SLU_DUMP_CTL_ARM 1) (f_TRN_GRAN_OWNER 0) 0x201
theorem witness_SluicesAndBarriers_dump : barOpen on = true ∧ rd on f_SLU_DUMP_CTL_ARM = 0 ∧ now on ≤ dumpAt on ∧ rd dumpS f_SLU_DUMP_CTL_ARM = 1 ∧
    dumpAt dumpS ≤ now dumpS ∧ dumpS.sync.image = [] := by decide +kernel
theorem witness_SluicesAndBarriers_dumpDone : (let s := setReg { dumpS with sync := { dumpS.sync with image := [1, 2] } } f_SLU_DUMP_ADDR_ADDR.key 0x10000000000
    rd s f_SLU_DUMP_CTL_ARM = 1 ∧ s.sync.image ≠ [] ∧ okRead s (writeSp (ioFor .firmware) 0x201 (dumpAddr s / 64 * 64) s.sync.image) = true) := by decide +kernel
/-- Barrier 15 is enabled for turnout 3, a root with link 35. -/
def barS : State :=
  let s := wr (wr (core5 id) (f_SLU_BAR_CFG_EN 15) 1) (f_SLU_BAR_CFG_TURNOUT 15) 3
  wr (wr s (f_SLU_BAR_CFG_ROOT 15) 1) (f_SLU_BAR_LINKS_LINKS 15) (2 ^ 35)
theorem witness_SluicesAndBarriers_barrier : rd barS (f_SLU_BAR_CFG_EN 15) = 1 ∧ rd barS (f_SLU_BAR_CFG_TURNOUT 15) = (cellOf barS 5).turnout.toNat ∧
    rd barS (f_SLU_BAR_STAT_GEN 15) = (0#8).toNat ∧ rd barS (f_SLU_BAR_STAT_GEN 15) ≠ (255#8).toNat ∧ rd barS (f_SLU_BAR_CFG_ROOT 15) = 1 ∧
    bit (rd barS (f_SLU_BAR_LINKS_LINKS 15)) 35 = true ∧ bit (barOf barS 15).links 35 = false := by decide +kernel
theorem witness_SluicesAndBarriers_leaf : (let s := wr (wr barS (f_SLU_BAR_CFG_ROOT 15) 0) (f_SLU_BAR_CFG_UPLINK 15) 35
    rd s (f_SLU_BAR_CFG_ROOT 15) = 0 ∧ rd s (f_SLU_BAR_CFG_UPLINK 15) = 35) := by decide +kernel
/-- Barrier 15's link 35 is a native link in use, and a frame that acknowledges nothing new comes in. -/
theorem witness_SluicesAndBarriers_frame : (let s := wr (wr barS (f_LNK_CTL_MODE 35) 1) (f_LNK_STAT_STATE 35) 2
    let s := modLnk s 35 (fun l => { l with mode := 1 })
    let u := ackIn s 35 ⟨4, 0, 0, false, 0xFFF, List.replicate 8 0, []⟩
    lnkNative s 35 = true ∧ lnkState s 35 = 2 ∧ rd u (f_SLU_BAR_CFG_EN 15) = 1 ∧ rd u (f_SLU_BAR_STAT_GEN 15) = 0 ∧ (barOf u 15).due = 0 ∧
    rd u (f_SLU_BAR_CFG_ROOT 15) = 1 ∧ bit (rd u (f_SLU_BAR_LINKS_LINKS 15)) 35 = true ∧ bit (barOf u 15).links 35 = false) := by decide +kernel
theorem witness_SluicesAndBarriers_end : (let s := setBar (wr barS (f_SLU_BAR_STAT_BUSY 15) 1) 15 { barOf barS 15 with due := 1 }
    (barOf s 15).due ≠ 0 ∧ (barOf s 15).due ≤ { s with clk := 1 }.clk ∧ barOpen s = true ∧ rd s (f_SLU_BAR_STAT_BUSY 15) = 1) := by decide +kernel

/-! ### Resets of units, flume, DMA, owners, translation, furrows -/

theorem witness_UnitResets : (4 ≤ rd on f_GEN_STATE_STATE ∧ cellInReset on 255 = false ∧ nin on.fab.blockRst 63 = false ∧
    nin on.fab.regionRst 15 = false ∧ (∀ i < 16, (cellOf on (240 + i)).inReset = false) ∧ barOpen on = true ∧ rd on (f_RGN_UNIT_RST_BUSY 15) = 0) ∧
    rd (wr on (f_RGN_UNIT_RST_BUSY 15) 1) (f_RGN_UNIT_RST_BUSY 15) = 1 := by decide +kernel
theorem witness_UnitResets_takesOver : (let s := setCell on 255 { Cell.reset with inReset := true }
    let r := { on with fab := { on.fab with blockRst := nadd [] 63, regionRst := nadd [] 15 } }
    (∃ i < 4, (cellOf s (4 * 63 + i)).inReset = true) ∧ (∃ i < 16, (cellOf s (16 * 15 + i)).inReset = true) ∧ cellInReset s 255 = true ∧
    nin r.fab.blockRst 63 = true ∧ nin r.fab.regionRst 15 = true) := by decide +kernel
/-- A request of the firmware to the reservoir. -/
def req (ty : Nat) (data : List Byte) : Packet := ⟨0, 72, ty, 0, 0x201, 5, rsv + 56, 8, data, 0, 0, 0⟩
theorem witness_Flume_read : (let p := req 1 []
    let t := { owned on with fab := { on.fab with net := on.fab.net.erase p } }
    bits p.dest 5 3 ≠ 7 ∧ targetInReset t p.addr = false ∧ rangeOk t p.owner p.addr p.len = true ∧ portGone t p.owner p.addr = false ∧
    areaOf p.addr = .rsv 0 ∧ (checkRange t p.addr p.len true).1 = false ∧ (checkRange t p.addr p.len true).2 = t ∧ p.poison = 0 ∧
    (arrive (owned on) p).1 = true ∧ noSuchPort p = false ∧ portStopped t p.dest = none ∧ (flitErr t p ⟨0, 0⟩).2 = p) := by decide +kernel
theorem witness_Flume_write : (let p := req 3 (List.replicate 8 1)
    let t := { owned on with fab := { on.fab with net := on.fab.net.erase p } }
    rangeOk t p.owner p.addr p.data.length = true ∧ portGone t p.owner p.addr = false ∧ mergeBad t p.addr p.data.length = false) := by decide +kernel
theorem witness_Flume_refused : (let p := { req 3 (List.replicate 8 1) with owner := 3 }
    rangeOk on p.owner p.addr p.len = false ∧ rangeOk on p.owner p.addr p.data.length = false ∧ targetInReset on p.addr = false) := by decide +kernel
theorem witness_Flume_message : (let p : Packet := ⟨72, 0x101, 0, 0, 3, 0, 0, 64, List.replicate 64 9, 0, 0, 0⟩
    cellAtEndpoint p.dest = some 5 ∧ overtakes inboxS p = false ∧
    (inboxArrive { inboxS with fab := { inboxS.fab with net := inboxS.fab.net.erase p } } 5 p).isSome = true) := by decide +kernel
theorem witness_Flume_arrives : (let p : Packet := ⟨72, 0x101, 0, 0, 3, 0, 0, 64, List.replicate 64 9, 0, 0, 0⟩
    (arrive inboxS p).1 = true ∧ (flitErr (arrive inboxS p).2 p ⟨0, 0⟩).2 = p ∧ (inboxArrive (arrive inboxS p).2 5 p).isSome = true) := by decide +kernel
/-- A request to a block in reset, and a write that must merge into a word with an uncorrectable mark. -/
theorem witness_Flume_stopped : (let s := { owned on with fab := { on.fab with blockRst := nadd [] 63 } }
    let d := endpointOf 255
    (portStopped s d).isSome = true ∧ noSuchPort { req 1 [] with dest := d } = false) := by decide +kernel
theorem witness_Flume_merges : (let s := storeBytes (owned on) (rsv + 56) (List.replicate 8 1) true
    mergeBad s (rsv + 56) 4 = true ∧ rangeOk s 0x201 (rsv + 56) 4 = true ∧ targetInReset s (rsv + 56) = false ∧
    portGone s 0x201 (rsv + 56) = false ∧ mergeBad s (rsv + 56) 8 = false) := by decide +kernel
/-- A place held at the last of the counters that no packet stands in. -/
theorem witness_Flume_credit : (let k := ((63 * 8 + 7) * 2 + 1) * 3 + 2
    let s := { on with fab := { on.fab with held := [(k, 1)] } }
    standing s k < sget 0 s.fab.held k) := by decide +kernel
theorem witness_Flume_patrol : barOpen on = true ∧ sget 0 on.fab.patrol 15 = 0 ∧ (checkRange on (0x10000000000 + 15 * 0x10000000) 64 true).1 = false ∧
    (checkRange on (0x10000000000 + 15 * 0x10000000) 64 true).2 = on := by decide +kernel
theorem witness_Flume_merge : mergeInReset on 63 = false ∧ sget none on.fab.merge (64 * 63 + 63) = none ∧
    sget none (setSlot on 63 63 (some Acc.zero)).fab.merge (64 * 63 + 63) = some Acc.zero ∧ (ofLAX Acc.zero.toLAX).isSome = true ∧ ofLAX [] = none := by
  decide +kernel
/-- A descriptor: OP, SRC, DST, LEN. -/
def desc (op src dst len : Nat) : List Byte := natLE 4 op ++ natLE 4 src ++ natLE 4 dst ++ natLE 4 len ++ List.replicate 16 0
theorem witness_DmaDescriptors_issue : (let x := cellOf (core5 id) 5
    canIssue (core5 id) 5 = true ∧ fetchCheck (core5 id) 5 = .ok ∧ dmaWaiting x.dma.q < 16 ∧ 32 ∣ (gReg x.k 5).toNat ∧ 64 ∣ (gReg x.k 5).toNat ∧ inScratch (gReg x.k 5).toNat 64 = true ∧
    userMode x.k = false ∧ (checkRange (core5 id) (scrPA 5 (gReg x.k 5).toNat) 64 false).1 = false ∧
    (checkRange (core5 id) (scrPA 5 (gReg x.k 5).toNat) 64 false).2 = core5 id ∧ dmsgRefused 72 = false) := by decide +kernel
theorem witness_DmaDescriptors_stall : 16 ≤ dmaWaiting (cellOf (at5 (fun x => { x with dma := { x.dma with
    q := List.replicate 16 (.desc (desc 0 0x10000000 0x10000100 64) 0x10000000 false .queued) } })) 5).dma.q := by decide +kernel
/-- Cell 5 with one DMA item. -/
def dmaS (i : DmaItem) : State := at5 (fun x => { x with dma := { x.dma with q := [i] } })
theorem witness_DmaDescriptors_copy : (let b := desc 0 0x10000000 0x10000100 64
    let s := dmaS (.desc b 0x10000000 false .queued)
    let x := cellOf s 5
    let g := dmaGo 5 (dFrom b) (dDst b) (dLen b) (dLen b / 2048 + 4) true ⟨dmaPlace x, 0, false, none, none⟩ s
    cellInReset s 5 = false ∧ firstQueued x.dma.q = some 0 ∧ x.dma.q[0]? = some (.desc b 0x10000000 false .queued) ∧ x.dma.wait = none ∧ dWait b = false ∧
    depositReady s 5 = false ∧ descBad b = false ∧ dOp b = 0 ∧ g.1.isNone = true ∧ g.2.1.bad = false) := by decide +kernel
theorem witness_DmaDescriptors_zero : (let b := desc 1 0 0x10000100 64
    let s := dmaS (.desc b 0x10000000 false .queued)
    let g := dmaGo 5 (dFrom b) (dDst b) (dLen b) (dLen b / 2048 + 4) true ⟨dmaPlace (cellOf s 5), 0, false, none, none⟩ s
    descBad b = false ∧ dOp b = 1 ∧ g.1.isNone = true ∧ g.2.1.bad = false) := by decide +kernel
/-- A descriptor whose response does not come, before and after its 100 µs. -/
theorem witness_DmaDescriptors_timeout : (let s := { on with clk := 100001 }
    dmaEnded s (.unanswered 100000 ⟨0, 0, false, none, none⟩) = some 0x10 ∧ dmaEnded { on with clk := 100000 } (.unanswered 100000 ⟨0, 0, false, none, none⟩) = none) := by
  decide +kernel
theorem witness_DmaDescriptors_bad : descBad (desc 0 0x10000001 0x10000100 64) = true ∧ dOp (desc 0 0x10000001 0x10000100 64) = 0 ∧
    descBad (desc 1 0 0x10000100 3) = true ∧ dOp (desc 1 0 0x10000100 3) = 1 := by decide +kernel
theorem witness_DmaDescriptors_complete : (let s := dmaS (.desc (desc 0 0x10000000 0x10000100 64) 0x10000000 false (.ended 0))
    cellInReset s 5 = false ∧ (cellOf s 5).dma.q = .desc (desc 0 0x10000000 0x10000100 64) 0x10000000 false (.ended 0) :: [] ∧
    mergeBad s (scrPA 5 ((0x10000000#32).toNat + 3)) 1 = false) := by decide +kernel
theorem witness_DmaDescriptors_message : (let s := dmaS (.msg (List.replicate 64 1) 72 true)
    let x := cellOf s 5
    firstQueued x.dma.q = some 0 ∧ x.dma.q[0]? = some (.msg (List.replicate 64 1) 72 true) ∧ sget 0 (grantsBefore s (routerOf (blockOf 5)) 1).fab.held (credKey (routerOf (blockOf 5)) 0 0 0) < 8 ∧
    depositReady s 5 = false) := by
  decide +kernel
/-- The device with turnout 3 ACTIVE. -/
def act3 : State := wr on (f_TRN_STATE_STATE 3) 2
theorem witness_MemoryOwners_free : barOpen act3 = true ∧ turnActive act3 3 = true ∧ rd act3 (f_TRN_EXT_SCRUB 1023) = 0 ∧ rd act3 (f_TRN_EXT_OWNER 1023) = 0x200 ∧
    rd act3 (f_TRN_GRAN_SCRUB 4095) = 0 ∧ rd act3 (f_TRN_GRAN_OWNER 4095) = 0x200 := by decide +kernel
theorem witness_MemoryOwners_owned : (let s := wr (wr act3 (f_TRN_EXT_OWNER 1023) 3) (f_TRN_GRAN_OWNER 4095) 3
    rd s (f_TRN_EXT_SCRUB 1023) = 0 ∧ rd s (f_TRN_EXT_OWNER 1023) = 3 ∧ rd s (f_TRN_GRAN_SCRUB 4095) = 0 ∧ rd s (f_TRN_GRAN_OWNER 4095) = 3) := by decide +kernel
theorem witness_MemoryOwners_scrub : (let s := wr (wr act3 (f_TRN_EXT_SCRUB 1023) 1) (f_TRN_GRAN_SCRUB 4095) 1
    rd s (f_TRN_EXT_SCRUB 1023) = 1 ∧ rd s (f_TRN_GRAN_SCRUB 4095) = 1) := by decide +kernel
/-- Turnout 3's table at extent 0: entry 0 of each level leads down, and level 0 maps page 0 to the reservoir; page 1 has V = 0 and PR = 1. -/
def walkS : State :=
  let s := wr (wr (wr act3 (f_TRN_EXT_OWNER 0) 0x201) (f_TRN_ROOT_EN 3) 1) (f_TRN_PARAM_PRQ_TMO 3) 5
  let s := wr s f_TRN_PRQ_FURROW_EN 1
  let s := storeBytes s 0 (natLE 8 0x1001) false
  let s := storeBytes s 0x1000 (natLE 8 0x2001) false
  let s := storeBytes s 0x2000 (natLE 8 0x3001) false
  storeBytes s 0x3000 (natLE 8 (rsv + 0xF) ++ natLE 8 0x20) false
theorem witness_Translation_leaf : valIs walkS (walkRoot 3 (0x123#48).toNat false) (fun l => l.pa == rsv && l.sh == 12 && l.r && l.w) = true := by decide +kernel
theorem witness_Translation_page : errIs walkS (walkRoot 3 (0x1123#48).toNat true) (fun e => decide (e = .page 3 1 true)) = true := by decide +kernel
theorem witness_Translation_invalidate : barOpen on = true ∧ rd on f_TRN_INV_CTL_GO = 0 ∧ (3#4).toNat < 4 ∧
    rd (wr on f_TRN_INV_CTL_GO 1) f_TRN_INV_CTL_GO = 1 ∧ (∀ p ∈ (wr on f_TRN_INV_CTL_GO 1).cells, accessOpen (wr on f_TRN_INV_CTL_GO 1) p.1 = false) ∧
    readOpen (wr on f_TRN_INV_CTL_GO 1) = false := by decide +kernel
/-- Furrow 9 of the firmware, its rings in granule 0, of class `cls`, with the page request furrow's number in its register. -/
def fur9 (cls : Nat) : State :=
  let s := wr (wr (owned act3) f_TRN_PRQ_FURROW_FURROW 9) f_DSP_FSEL_FURROW 9
  setFur s 9 (some ⟨0x201, cls, rsv, rsv + 0x1000, 4, 0, 0, 0, true, false, 0, 0, 0, 0, [], 0, [], []⟩)
/-- An entry of it. -/
def ent (b : List Byte) (ph : EPhase) : Entry := ⟨9, 0, b, 1, 0, 0, ph, [], [], none, none, []⟩
/-- Furrow 9 with PR_DONE's entry for request slot `k`, and one page request in slot 4095. -/
def prqS (k : Nat) : State :=
  let s := fur9 clPrq
  { s with
    infl := [ent (natLE 16 1 ++ natLE 4 k ++ List.replicate 44 0) .running]
    lev := { s.lev with prq := [⟨4095, 0, 3, 1, true, 0, false, [(.core 5, 0)]⟩] } }
theorem witness_Translation_record : (let s := prqS 0
    furOf s (rd s f_TRN_PRQ_FURROW_FURROW) = some ⟨0x201, clPrq, rsv, rsv + 0x1000, 4, 0, 0, 0, true, false, 0, 0, 0, 0, [], 0, [], []⟩ ∧
    s.lev.prq.find? (fun q => !q.sent && q.waiters.any (fun w => inTime s w.2)) = some ⟨4095, 0, 3, 1, true, 0, false, [(.core 5, 0)]⟩ ∧ (0 - 0 : Word).toNat < 2 ^ 4 ∧
    (ringPost s (rd s f_TRN_PRQ_FURROW_FURROW) (prqBytes ⟨4095, 0, 3, 1, true, 0, false, [(.core 5, 0)]⟩) true).2 = .ok) := by decide +kernel
theorem witness_Translation_done : (let s := prqS 4095
    let b := natLE 16 1 ++ natLE 4 4095 ++ List.replicate 44 (0 : Byte)
    s.infl.find? (fun e => e.f == rd s f_TRN_PRQ_FURROW_FURROW && furClass s (rd s f_TRN_PRQ_FURROW_FURROW) == clPrq) = some (ent b .running) ∧
    s.lev.prq.find? (fun q => q.gen * 4096 + q.slot == le b 16 4 && q.waiters.any (fun w => inTime s w.2)) = some ⟨4095, 0, 3, 1, true, 0, false, [(.core 5, 0)]⟩ ∧ prDoneBad b = false) := by decide +kernel
theorem witness_Translation_stale : (prqS 7).lev.prq.find? (fun q => q.gen * 4096 + q.slot == 7 && q.waiters.any (fun w => inTime (prqS 7) w.2)) = none ∧
    ((prqS 7).infl.find? (fun e => e.f == rd (prqS 7) f_TRN_PRQ_FURROW_FURROW && furClass (prqS 7) (rd (prqS 7) f_TRN_PRQ_FURROW_FURROW) == clPrq)).isSome = true := by
  decide +kernel
theorem witness_Translation_deadline : (let q : PageReq := ⟨4095, 0, 3, 1, true, 0, false, [(.core 5, 0)]⟩
    (prqS 0).lev.prq.find? (fun q => q.waiters.any (fun w => decide (w.1 = .core 5) && decide (w.2 < { prqS 0 with clk := 1 }.clk))) = some q ∧
    q.waiters.all (fun w => decide (w.1 = .core 5) && decide (w.2 < { prqS 0 with clk := 1 }.clk)) = true) := by decide +kernel
theorem witness_Doorbells : (let s := fur9 0
    let x : Furrow := ⟨0x201, 0, rsv, rsv + 0x1000, 4, 0, 0, 0, true, false, 0, 0, 0, 0, [], 0, [], []⟩
    dbReaches s (.global 9) none = true ∧ dbFurrow s (.global 9) = some 9 ∧ furOf s 9 = some x ∧
    0 < ((16 : Word) - x.head).toNat ∧ ((16 : Word) - x.head).toNat ≤ x.depth ∧ 0 < ((16 : Word) - x.pi).toNat ∧ ((16 : Word) - x.pi).toNat < 2 ^ 31) := by decide +kernel
theorem witness_Doorbells_dropped : (let s := fur9 0
    let x : Furrow := ⟨0x201, 0, rsv, rsv + 0x1000, 4, 0, 0, 0, true, false, 0, 0, 0, 0, [], 0, [], []⟩
    (x.pi - (0 : Word)).toNat ≤ x.depth ∧ ¬ (0 < ((0 : Word) - x.pi).toNat) ∧ ¬ ((17 : Word) - x.head).toNat ≤ x.depth ∧
    ¬ (x.pi - (17 : Word)).toNat ≤ x.depth ∧ dbFurrow s (.global 10) = none ∧ dbFurrow s .reserved = none ∧
    dbReaches s .reserved none = true ∧ dbReaches s (.global 10) none = true) := by decide +kernel
theorem witness_Doorbells_cqh : (let x : Furrow := ⟨0x201, 0, rsv, rsv + 0x1000, 4, 0, 0, 0, true, false, 0, 0, 16, 0, [], 0, [], []⟩
    0 < ((16 : Word) - x.cqh).toNat ∧ ((16 : Word) - x.cqh).toNat ≤ (x.cqt - x.cqh).toNat) := by decide +kernel
theorem witness_FurrowCommands_unused : barOpen on = true ∧ furOf on (rd on f_DSP_FSEL_FURROW) = none := by decide +kernel
/-- DSP_FCTX holds a mover furrow of the firmware with 16 entries. -/
def createS : State :=
  setReg (setReg (setReg (owned on) 0x900020 (BitVec.ofNat 64 rsv)) 0x900028 (BitVec.ofNat 64 (rsv + 0x1000))) 0x900030
    (BitVec.ofNat 64 (0x201 * 2 ^ 54 + 4 * 2 ^ 45))
theorem witness_FurrowCommands_create : barOpen createS = true ∧ furOf createS (rd createS f_DSP_FSEL_FURROW) = none ∧ createStatus createS = 0 := by decide +kernel
theorem witness_FurrowCommands_used : (let s := modFur (fur9 0) 9 (fun x => { x with enabled := false })
    barOpen s = true ∧ furOf s (rd s f_DSP_FSEL_FURROW) = some ⟨0x201, 0, rsv, rsv + 0x1000, 4, 0, 0, 0, false, false, 0, 0, 0, 0, [], 0, [], []⟩ ∧ furIdle s 9 = true) := by
  decide +kernel
/-- A furrow with one entry to fetch: a mover copy of 64 bytes. -/
def fetchS : State := storeBytes (modFur (fur9 0) 9 (fun x => { x with pi := 1 })) rsv (natLE 4 0x10001 ++ List.replicate 60 0) false
theorem witness_FurrowCommands_fetch : (let x : Furrow := ⟨0x201, 0, rsv, rsv + 0x1000, 4, 0, 0, 0, true, false, 1, 0, 0, 0, [], 0, [], []⟩
    furOf fetchS 9 = some x ∧ x.pi ≠ x.head ∧ (x.head - x.cqh).toNat < x.depth ∧
    fetchS.infl.any (fun e => e.f == 9 && e.i == x.head.toNat % x.depth) = false ∧
    valIs fetchS (readSp (ioFor (.ring 9)) x.owner (x.sq + 64 * (x.head.toNat % x.depth)) 64) (fun b => admits fetchS 9 x b) = true ∧ ringReady x = true ∧ flrStops fetchS x.owner = false ∧ itsTurn fetchS 9 x = true ∧
    nin fetchS.boot.badCls x.cls = false) := by decide +kernel
theorem witness_FurrowCommands_complete : (let s := { fur9 5 with infl := [ent (List.replicate 64 0) (.ended 0 0)] }
    let e := ent (List.replicate 64 0) (.ended 0 0)
    entryOf (drainEnd s) 9 0 = some e ∧ canComplete (drainEnd s) e = true ∧ furClass s 9 ≠ clStorage ∧ furClass s 9 ≠ clMimin ∧ furClass s 9 ≠ clPrq) := by decide +kernel

/-! ### Ports, slots, turnouts, links, time base, reception, scheduler -/

/-- An upstream port out of PERST with its link up. -/
def upLive (vfs : Bool) (n : Nat) : UpPort := { UpPort.reset with perst := false, perstAt := 1, link := true, vfEn := vfs, numVfs := n }
/-- Upstream port 0 up with 256 VFs, of which turnouts 3 and 255 exist; a read of port 33's tag 5 in flight. -/
def upS : State :=
  { act3 with pcie := { act3.pcie with
    ups := [(0, upLive true 256)]
    reqs := [⟨5, 33, 0x40, 8, 3, .core 5, none, 0⟩] } }
theorem witness_Ports_request : upS.pcie.reqs.find? (fun q => q.port == 33 && q.tag == 5) = some ⟨5, 33, 0x40, 8, 3, .core 5, none, 0⟩ ∧
    upS.pcie.reqs.find? (fun q => q.port == 32 && q.tag == 5) = none := by decide +kernel
theorem witness_Ports_timeout : (let s := { upS with clk := 50001 }
    bit (fnOf s (issuer s 33 3)).devCtl2 4 = false ∧ (0 : Nat) + cplTimeout (bits (fnOf s (issuer s 33 3)).devCtl2 3 0) < s.clk) := by decide +kernel
/-- PERST0_N low and held for 1.04 µs at least, in D3cold; a function in D3hot; turnout 3 in DESTROYING. -/
theorem witness_Ports_released : (let s := { on with pcie := { on.pcie with cold := true } }
    (upOf s 0).perst = true ∧ (upOf s 0).perstHold ≤ s.clk ∧ (1040 : Nat) ≤ (1040#32).toNat ∧ (959#32).toNat < 960 ∧ s.pcie.cold = true) := by decide +kernel
theorem witness_Ports_d3 : (let s := modFn (modFn upS 513 (fun f => { f with d3 := true })) 255 (fun f => { f with d3 := true })
    (fnOf s 513).d3 = true ∧ (fnOf s 255).d3 = true ∧ vfExists s 255 = true ∧ (fnOf s (pf0Of s 0)).d3 = false ∧ swf UpPort.reset s.pcie.ups = true ∧
    turnState s 3 ≠ 4) := by decide +kernel
theorem witness_Ports_flr : vfExists upS 255 = true ∧ inFlr upS 255 = false ∧ (upOf upS 0).vfEn = true ∧ 3 < (upOf upS 0).numVfs := by decide +kernel
theorem witness_Ports_cutoff : (let s := { upS with clk := 2000, pcie := { upS.pcie with flr := [(255, some ⟨0, false, 300⟩)] } }
    let u := { s with pcie := { s.pcie with flr := sput none s.pcie.flr 255 (some ⟨0, true, 300⟩) } }
    let v := abortOwner (freezeOwner u 255) 255
    sget none s.pcie.flr 255 = some ⟨0, false, 300⟩ ∧ (0 : Nat) + 2000 ≤ s.clk ∧ (0 : Nat) + 2000 < { s with clk := 2001 }.clk ∧ inFlight v 255 = false ∧
    inFlr s 255 = true ∧ vfExists s 255 = true) := by decide +kernel
theorem witness_Ports_pf0 : pf0Of upS 0 = 512 ∧ pf0Of upS 1 = 513 ∧ sourceLevel upS 4 = 5 ∧ sourceLevel upS 5 = 5 ∧ (upOf upS 0).link = true := by decide +kernel
theorem witness_Ports_off : (let s := modFn { upS with pcie := { upS.pcie with ups := [(0, upLive false 0)] } } 512 (fun f => { f with d3 := true })
    (upOf s 0).link = true ∧ (fnOf s (pf0Of s 0)).d3 = true ∧ (vfsOf s 0).all (fun t => (fnOf s t).d3) = true) := by decide +kernel
theorem witness_Ports_perst : (upOf on 0).perst = true ∧ (upOf on 0).l2 = false := by decide +kernel
theorem witness_Ports_wake : (let q := wakePort upS 5 7 513
    wakeCause upS 5 7 513 = true ∧ upS.pcie.wakes.any (fun w => w.reason == 5 && w.slot == 7 && w.fn == pf0Of upS q) = false ∧ (upOf upS q).perst = false) := by
  decide +kernel
/-- Slot 7 powered and good since 1 ns; its DP assigned to upstream port 0. -/
def slotS : State :=
  wr { on with clk := 100000001, pcie := { on.pcie with slots := [(7, { Slot.reset with pwrEn := true, good := true, goodAt := 1 })] } } f_HEP_TOPO_ASSIGN 0x4000
theorem witness_SlotsAndLinks_scan : (let di : BitVec 66 := 0x0A0A0A0A0A0A0A0A * 4 + 1
    let a := (List.range 8).foldl slotLatch slotS
    di.getLsbD 0 = true ∧ di.getLsbD 1 = false ∧ (3#66).getLsbD 1 = true ∧ rd ((List.range 8).foldl slotShift (emit a (.side 1 0 ((List.range 8).map (slotOut a)))))
      f_HEP_SLC_STAT_FAULT = 0) := by decide +kernel
/-- A frame whose start bit or stop bit is wrong. -/
theorem witness_SlotsAndLinks_bad : (0#66).getLsbD 0 = false ∧ (3#66).getLsbD 1 = true := by decide
theorem witness_SlotsAndLinks_perst : (hpSlot slotS 7).pwrEn = true ∧ (hpSlot slotS 7).good = true ∧ (hpSlot slotS 7).goodAt ≠ 0 ∧
    (hpSlot slotS 7).goodAt + 100000000 ≤ slotS.clk + 1 := by decide +kernel
theorem witness_SlotsAndLinks_up : (dpOf slotS 7).active = false ∧ (dpOf slotS 7).dpcTrig = false ∧ linkExists slotS 7 = true ∧ (hpSlot slotS 7).pwrEn = true := by
  decide +kernel
theorem witness_SlotsAndLinks_down : (let s := modDp slotS 7 (fun d => { d with active := true })
    (dpOf s 7).active = true ∧ (dpOf s 7).dpcTrig = false ∧ (hpSlot s 7).power = true ∧
    (hpSlot (modSlot s 7 (fun x => { x with power := false })) 7).power = false) := by decide +kernel
/-- A turnout command in progress with its block at the start of the reservoir. -/
def cmdS (op : Nat) (b : List Byte) : State :=
  let s := setReg (owned act3) f_TRN_CMD_ADDR_ADDR.key (BitVec.ofNat 64 rsv)
  storeBytes { s with trn := { s.trn with cmd := some ⟨op, 0, 0, 0⟩ } } rsv b false
/-- A computation over the command block. -/
def blockIs (s : State) (p : List Byte → Bool) : Bool := valIs s (physRead (ioFor .firmware) 0x201 (rd s f_TRN_CMD_ADDR_ADDR * 64) 256) p
theorem witness_Turnouts_create : (let s := cmdS 1 []
    s.trn.cmd = some ⟨1, 0, 0, 0⟩ ∧ fwServes s = true ∧ compStopped s (opComp 1) = false ∧ blockIs s (fun b => createCheck s b == 0) = true) := by decide +kernel
theorem witness_Turnouts_late : (let s := { cmdS 1 [] with clk := 10000001 }
    s.trn.cmd = some ⟨1, 0, 0, 0⟩ ∧ fwServes s = true ∧ 0 + 10000000 < s.clk) := by decide +kernel
theorem witness_Turnouts_create_fails : (let s := cmdS 1 (List.replicate 256 0xFF)
    fwServes s = true ∧ blockIs s (fun b => createCheck s b != 0) = true) := by decide +kernel
theorem witness_Turnouts_reset : (let s := cmdS 3 [3, 0]
    let u := abortOwner (abortSave (freezeOwner (setTurn s 3 3) 3) 3) 3
    blockIs s (fun b => blockTurnout b == some 3) = true ∧ turnActive s 3 = true ∧ inFlight u 3 = false ∧ turnActive s 4 = false) := by decide +kernel
theorem witness_Turnouts_destroy : (let s := cmdS 2 [3, 0]
    let u := abortOwner (abortSave (freezeOwner (setTurn s 3 4) 3) 3) 3
    blockIs s (fun b => blockTurnout b == some 3) = true ∧ turnState s 3 ≠ 0 ∧ inFlight u 3 = false ∧ turnState s 4 = 0) := by decide +kernel
theorem witness_Turnouts_load : (let s := cmdS 4 [1, 2, 0xFF, 0x1F, 1, 0, 0, 0]
    blockIs s (fun b => keyLoadCheck s b == 0 && decide (le b 2 2 = 8191)) = true ∧ blockIs (cmdS 4 []) (fun b => keyLoadCheck (cmdS 4 []) b != 0) = true) := by decide +kernel
theorem witness_Turnouts_free : (let s := { cmdS 5 [0, 0, 0xFF, 0x1F] with cip := ⟨[(8191, ⟨1, List.replicate 32 0, 0x201, 0⟩)], 0⟩ }
    blockIs s (fun b => decide (le b 2 2 < 8192) && (keySlotOf s (le b 2 2)).ty == 1 && !keyBound s (le b 2 2)) = true) := by decide +kernel
theorem witness_Turnouts_busy : (let s := { cmdS 5 [] with clk := 10000000 }
    s.trn.cmd = some ⟨5, 0, 0, 0⟩ ∧ fwServes s = true ∧ compStopped s (opComp 5) = false ∧ blockIs s (fun b => b.length == 256) = true ∧ 0 + 10000000 ≤ s.clk) := by decide +kernel
theorem witness_Turnouts_channel : turnActive upS 3 = true ∧ vfBar upS 3 = true ∧ barOpen upS = true ∧ 0 < ((1 : BitVec 16) - rd16 upS (f_TRN_CHAN_UP_PI 3)).toNat ∧
    ((1 : BitVec 16) - rd16 upS (f_TRN_CHAN_UP_CI 3)).toNat ≤ chanDepth upS ∧ 0 < ((1 : BitVec 16) - rd16 upS (f_TRN_CHAN_DN_PI 3)).toNat ∧
    ((1 : BitVec 16) - rd16 upS (f_TRN_CHAN_DN_CI 3)).toNat ≤ chanDepth upS := by decide +kernel
theorem witness_Turnouts_consumed : (let s := wr (wr upS (f_TRN_CHAN_UP_PI 3) 1) (f_TRN_CHAN_DN_PI 3) 1
    0 < ((1 : BitVec 16) - rd16 s (f_TRN_CHAN_UP_CI 3)).toNat ∧ ((1 : BitVec 16) - rd16 s (f_TRN_CHAN_UP_CI 3)).toNat ≤ (rd16 s (f_TRN_CHAN_UP_PI 3) - rd16 s (f_TRN_CHAN_UP_CI 3)).toNat ∧
    0 < ((1 : BitVec 16) - rd16 s (f_TRN_CHAN_DN_CI 3)).toNat ∧ ((1 : BitVec 16) - rd16 s (f_TRN_CHAN_DN_CI 3)).toNat ≤ (rd16 s (f_TRN_CHAN_DN_PI 3) - rd16 s (f_TRN_CHAN_DN_CI 3)).toNat) := by
  decide +kernel
/-- Link 35 in a state and a mode. -/
def lnkS (st mode : Nat) (g : Link → Link) : State :=
  modLnk (wr (wr (wr on (f_LNK_CTL_MODE 35) mode) (f_LNK_STAT_STATE 35) st) (f_LNK_CTL_AUTO 35) 0) 35 g
theorem witness_LinkStates_train : rd (lnkS 0 1 id) (f_LNK_CTL_RETRAIN 35) = 0 ∧ lnkState (lnkS 0 1 id) 35 ≠ 5 ∧ barOpen (lnkS 0 1 id) = true := by decide +kernel
theorem witness_LinkStates_trained : (let s := lnkS 1 1 (fun l => { l with lanes := (List.range 8).map (fun j => (j, ⟨true, 1, 1, 0, []⟩)) })
    lnkState s 35 = 1 ∧ lnkNative s 35 = true ∧ allLocked (lnkOf s 35) = true) := by decide +kernel
/-- The same lanes lie within the deskew. -/
theorem witness_LinkStates_deskewed : (let s := lnkS 1 1 (fun l => { l with lanes := (List.range 8).map (fun j => (j, ⟨true, 8192, 1, 0, []⟩)) })
    allLocked (lnkOf s 35) = true ∧ deskewed (lnkOf s 35) = true) := by decide +kernel
/-- A marker in its place on an ACTIVE link, and one whose lane has already missed too often: the lane's lock is lost. -/
theorem witness_LinkStates_lost : (let s := lnkS 2 1 id
    lnkState s 35 = 2 ∧ lnkNative s 35 = true ∧
    ((List.range 8).any (fun k => (laneStep 7 ⟨true, 100, 1, k, []⟩ 100 []).2) = true)) := by decide +kernel
theorem witness_LinkStates_pcs : (let s := lnkS 2 5 id
    lnkState s 35 = 2 ∧ lnkNative s 35 = false ∧ rd (lnkLeave s 35 0) (f_LNK_CTL_AUTO 35) = 0) := by decide +kernel
theorem witness_LinkStates_marker : (let s := lnkS 1 1 id
    lnkNative s 35 = true ∧ lnkState s 35 = 1 ∧ (laneStep 7 (sget Lane.search (lnkOf s 35).lanes 7) (0#64).toNat []).2 = false) := by decide +kernel
/-- A native link in use. -/
def natS : State := lnkS 2 1 id
/-- A frame of 8 bytes. -/
def fr (ty vc seq : Nat) (d : Byte) : List Byte := frameBytes ty vc seq false 0xFFF [] (d :: List.replicate 7 0)
theorem witness_LinkFrames_data : (let f := frameBytes 1 0 0 false 0xFFF (List.replicate 8 0) [1, 2, 3, 4]
    lnkNative natS 35 = true ∧ lnkState natS 35 = 2 ∧ (match parseFrame f with
      | some h => h.ty == 1 && (h.seq == 0 && h.vc == 0 && lnkState (ackIn natS 35 h) 35 == 2 && (lnkOf (ackIn natS 35 h) 35).exp == 0)
      | none => false) = true) := by decide +kernel
theorem witness_LinkFrames_again : (let f := frameBytes 1 0 4095 false 0xFFF (List.replicate 8 0) [1, 2, 3, 4]
    (match parseFrame f with
      | some h => h.ty == 1 && decide (2048 ≤ (h.seq + 4096 - (lnkOf (ackIn natS 35 h) 35).exp) % 4096) && lnkState (ackIn natS 35 h) 35 == 2
      | none => false) = true) := by decide +kernel
theorem witness_LinkFrames_ctrl : (match parseFrame (frameBytes 2 0 0 false 0xFFF (List.replicate 8 0) []) with
      | some h => h.ty == 2
      | none => false) = true ∧ parseFrame [] = none := by decide +kernel
theorem witness_LinkFrames_sleep : (let f (k : Byte) := frameBytes 5 0 0 false 0xFFF (List.replicate 8 0) [k]
    (match parseFrame (f 3) with
      | some h => h.ty == 5 && le h.data 0 1 == 3 && !peerSwitch (ackIn (lnkS 3 1 id) 35 h) 35 && lnkState (ackIn (lnkS 3 1 id) 35 h) 35 == 3
      | none => false) = true ∧ (match parseFrame (f 2) with
      | some h => h.ty == 5 && le h.data 0 1 == 2 && lnkState (ackIn (lnkS 2 1 (fun l => { l with sleepReq := true })) 35 h) 35 == 2 &&
          (lnkOf (ackIn (lnkS 2 1 (fun l => { l with sleepReq := true })) 35 h) 35).sleepReq
      | none => false) = true) := by decide +kernel
theorem witness_LinkFrames_timers : (let s := { lnkS 2 1 (fun l => { l with replay := [⟨0, 0, [1]⟩] }) with clk := 8001 }
    (lnkOf s 35).replay ≠ [] ∧ (lnkOf s 35).ackAt + (lnkOf s 35).rtt + 2000 < s.clk ∧ (lnkOf s 35).txAt + 1000 ≤ s.clk ∧ (lnkOf s 35).rxAt + 8000 < s.clk) := by decide +kernel
theorem witness_LinkFrames_idle : (let s := { wr natS (f_LNK_CTL_SLEEP_IDLE 35) 1 with clk := 1000 }
    lnkState s 35 = 2 ∧ rd s (f_LNK_CTL_SLEEP_IDLE 35) ≠ 0 ∧ (lnkOf s 35).replay = [] ∧ (lnkOf s 35).dataAt + 1000 * rd s (f_LNK_CTL_SLEEP_IDLE 35) ≤ s.clk ∧
    (lnkOf s 35).sleepReq = false ∧ peerSwitch s 35 = false ∧ dataWaits s 35 = false ∧ lef [0x0F] 0 1 7 4 = 0) := by decide +kernel
theorem witness_LinkFrames_time : (let s := wr (lnkS 2 1 (fun l => { l with t1 := some 10, t234 := some (20, 30, 40) })) (f_LNK_CTL_TS_EN 35) 1
    lnkState s 35 = 2 ∧ rd s (f_LNK_CTL_TS_EN 35) = 1 ∧ (lnkOf s 35).t1 = some 10 ∧ (lnkOf s 35).t234 = some (20, 30, 40)) := by decide +kernel
/-- A frame ahead of its turn, and a request to sleep that can be granted. -/
theorem witness_LinkFrames_ahead : (match parseFrame (frameBytes 1 0 1 false 0xFFF (List.replicate 8 0) [1, 2, 3, 4]) with
      | some h => h.ty == 1 && decide (0 < (h.seq + 4096 - (lnkOf (ackIn natS 35 h) 35).exp) % 4096) &&
          decide ((h.seq + 4096 - (lnkOf (ackIn natS 35 h) 35).exp) % 4096 < 2048) && lnkState (ackIn natS 35 h) 35 == 2
      | none => false) = true := by decide +kernel
theorem witness_LinkFrames_asks : (match parseFrame (frameBytes 5 0 0 false 0xFFF (List.replicate 8 0) [1]) with
      | some h => h.ty == 5 && le h.data 0 1 == 1 && lnkState (ackIn natS 35 h) 35 == 2 && !dataWaits (ackIn natS 35 h) 35 &&
          (lnkOf (ackIn natS 35 h) 35).replay.isEmpty && !peerSwitch (ackIn natS 35 h) 35
      | none => false) = true := by decide +kernel
theorem witness_LinkFrames_wake : (let s := lnkS 3 1 id
    lnkState { s with sch := { s.sch with queues := [(16 * 8 * 35, [⟨[1], 0, none, 0, 0⟩])] } } 35 = 3 ∧
    dataWaits { s with sch := { s.sch with queues := [(16 * 8 * 35, [⟨[1], 0, none, 0, 0⟩])] } } 35 = true) := by decide +kernel
theorem witness_TimeBase_roles : barOpen on = true ∧ rd on f_TMB_CTL_ROLE = 0 ∧ rd (wr on f_TMB_CTL_ROLE 3) f_TMB_CTL_ROLE = 3 ∧ rd (wr on f_TMB_CTL_ROLE 1) f_TMB_CTL_ROLE = 1 ∧
    rd (wr on f_TMB_CTL_ROLE 2) f_TMB_CTL_ROLE = 2 := by decide +kernel
theorem witness_TimeBase_lost : lossHeld on = false ∧ lossHeld { on with flt := { Faults.reset with cond := [(0x19A, 0x0C * 2 ^ 24)] } } = true := by decide +kernel
theorem witness_TimeBase_edge : (let s := { wr on f_TMB_CTL_ROLE 1 with tb := { Tb.reset with edge := 1 } }
    rd s f_TMB_CTL_ROLE = 1 ∧ s.tb.tod = false ∧ s.tb.edge ≠ 0) := by decide +kernel
theorem witness_TimeBase_control : (let w : Word := 0xA3000000
    let s := wr (wr natS f_TMB_CTL_PPS_W (bits w.toNat 15 8)) f_TMB_CTL_SYNC_TOL (bits w.toNat 7 0)
    bits w.toNat 29 24 ≤ 35 ∧ sourceFits s (bits w.toNat 31 30) (bits w.toNat 29 24) (bits w.toNat 23 21) = true ∧ bits w.toNat 31 30 ≠ rd s f_TMB_CTL_ROLE) := by decide +kernel
theorem witness_TimeBase_pps : (let s := { wr on f_TMB_CTL_ROLE 1 with tb := { Tb.reset with ns := 1000000000, tod := true } }
    s.tb.sec < s.tb.ns.toNat / 1000000000 ∧ rd s f_TMB_CTL_ROLE = 1 ∧ s.tb.tod = true ∧ rd s f_TMB_STAT_HOLDOVER = 0) := by decide +kernel
/-- Ethernet link 35 in use, eight ports; `l` in its receive buffer. -/
def ethS (l : List RxFrame) : State := setRxBuf (lnkS 2 5 (fun l => { l with pfc := 0xFF })) 35 l
/-- An Ethernet frame of zeros with its FCS. -/
def frE (n : Nat) : List Byte := List.replicate n 0 ++ natLE 4 (crc32 (List.replicate n 0))
theorem witness_Reception_frame : lnkState (ethS []) (287 / 8) = 2 ∧ lnkNative (ethS []) (287 / 8) = false ∧ portAssigned (ethS []) 287 = true ∧ 64 ≤ (frE 60).length ∧
    (frE 60).length ≤ 9216 ∧ (frE 60).drop ((frE 60).length - 4) = natLE 4 (crc32 ((frE 60).take ((frE 60).length - 4))) ∧
    (List.replicate 64 (0 : Byte)).drop 60 ≠ natLE 4 (crc32 ((List.replicate 64 (0 : Byte)).take 60)) ∧ (rxBuf (ethS []) (287 / 8)).foldl (fun a r => a + r.data.length) 0 + 60 ≤ 1048576 ∧ pfcOn (ethS []) 287 = true ∧
    pfcOn (ethS []) 280 = true := by
  decide +kernel
theorem witness_Reception_full : (let r : RxFrame := ⟨287, 0, 0, 0, List.replicate 9000 0, none, 0⟩
    1048576 < (rxBuf (ethS (List.replicate 117 r)) (287 / 8)).foldl (fun a r => a + r.data.length) 0 + 60) := by decide +kernel
/-- Link 35's buffer holds one parsed frame of 60 bytes. -/
def relS (p : Parsed) : State := ethS [⟨287, 0, 0, 0, List.replicate 60 0, some p, 0⟩]
/-- Meter 16383 passes nothing: its buckets are empty, and it drops yellow and red frames. -/
def meterS (p : Parsed) (cbs : Nat) : State :=
  { relS p with par := { (relS p).par with meters := [(16383, ⟨true, 2 ^ 62 + 2 ^ 58 + 2 ^ 59, cbs, 0, 8000 * cbs, 0, 0, [0, 0, 0]⟩)] } }
theorem witness_Reception_release : ([.drop none true 63, .drop (some 16383) false 0, .lateral [], .deliver 9 false 0 none false 0,
      .deliver 9 true 1 (some 16383) false 0] : List Parsed).all (fun p =>
    decide (rxBuf (relS p) 35 = [⟨287, 0, 0, 0, List.replicate 60 0, some p, 0⟩])) = true := by decide +kernel
theorem witness_Reception_metered : (let p : Parsed := .deliver 9 true 1 (some 16383) false 0
    let r : RxFrame := ⟨287, 0, 0, 0, List.replicate 60 0, some p, 0⟩
    meterWaits (relS p) 16383 r = false ∧ meterWaits (relS p) 16383 { r with at_ := 1 } = true ∧
    (meterFrame (meterS p 0) 16383 r false 0).2.1 = true ∧ (meterFrame (meterS p 1000000) 16383 r false 0).2.1 = false) := by decide +kernel
theorem witness_Reception_parse : (let s := ethS [⟨287, 0, 0, 0, List.replicate 60 0, some (.drop none false 0), 0⟩, ⟨287, 0, 1, 0, List.replicate 60 0, none, 0⟩]
    (rxBuf s 35).findIdx? (fun r => r.res.isNone) = some 1 ∧ (rxBuf s 35)[1]? = some ⟨287, 0, 1, 0, List.replicate 60 0, none, 0⟩) := by decide +kernel
theorem witness_Reception_post : (let s := { fur9 clRx with infl := [ent (1 :: List.replicate 63 0) .fetched] }
    entryOf s 9 0 = some (ent (1 :: List.replicate 63 0) .fetched) ∧ (ent (1 :: List.replicate 63 0) .fetched).op = 1 ∧ furClass s 9 = clRx) := by decide +kernel
theorem witness_Reception_rules : barOpen on = true ∧ ruleOk (stg on 12) = true ∧ meterOk (stg on 12) = true ∧ exactFind on (stgWide on 0) = none ∧
    ruleOk (stg (setStg on 12 3) 12) = false ∧ exactFind { on with par := { on.par with exact_ := [(4 * (exactBuckets 0).1, some (0, 0))] } } 0 = some (4 * (exactBuckets 0).1) := by
  decide +kernel
theorem witness_Reception_ruleErrors : (let j := 4 * (exactBuckets 0).1
    let s := { wr on (f_FLT_REACT_UE 0x192) 0 with par := { on.par with exact_ := [(j, some (0, 5))] } }
    exactFind s (stgWide s 0) = some j ∧ sget none s.par.exact_ j = some (0, 5) ∧ sget none (tableErr s 1 j true).par.exact_ j = none) := by decide +kernel
/-- A corrected error of a table entry is counted under source 192h (R304). -/
theorem test_tableErr : rd (tableErr on 0 7 false) (f_FLT_STAT_CE_COUNT 0x192) = 1 := by decide +kernel
/-- A fetched SEND of 60 bytes for port 287. -/
def sendE : Entry := ent (natLE 16 1 ++ natLE 2 60 ++ natLE 2 287 ++ List.replicate 28 0 ++ natLE 8 rsv ++ List.replicate 8 0) .fetched
def sendS : State :=
  let s := storeBytes (setFur (lnkS 2 5 id) 9 (some ⟨0x201, clTx, rsv, rsv + 0x1000, 4, 0, 0, 3, true, false, 0, 0, 0, 0, [], 0, [], []⟩)) rsv (List.replicate 64 1) false
  { s with infl := [sendE] }
theorem witness_Scheduler_send : entryOf sendS 9 0 = some sendE ∧ sendE.op = 1 ∧ furClass sendS 9 = clTx ∧
    sendS.infl.any (fun x => x.f == sendE.f && decide (x.seq < sendE.seq) && (decide (x.ph = .fetched) || decide (x.ph = .paging))) = false ∧
    valIs sendS (readSp (ioOf sendE) (furOwner sendS 9) (le sendE.b 48 8) (txLen sendE.b)) (fun d => d.length == 60) = true := by decide +kernel
theorem witness_Scheduler_sendPort : portAssigned sendS (txPort sendE.b) = true ∧ portNative sendS (txPort sendE.b) = false := by decide +kernel
/-- Class 15 of the weighted group alone holds a frame. -/
theorem witness_Scheduler_group : (let s := enqueue { wr (wr (lnkS 2 5 id) (f_SCH_SVC_SERVICE 287) 0) (f_SCH_CLS_QUANTUM 287 15) 9000 with sch := { Sched.reset with svc := [(287, 0)] } } 287 15 ⟨List.replicate 60 1, 0, none, 0, 0⟩
    let t := takeService (accrue (staleDrop (gateSync s 287) 287) 287) 287
    let ready (c : Nat) : Bool := (eligible t 287 c).isSome
    let grp := (List.range 12).map (fun c => c + 4)
    let r := dwrr t 287 (grp.any (fun c => ready c && quantum t 287 c != 0)) 120000 (sget 4 t.sch.ptr 287) t.sch.deficit
    (List.range 4).any ready = false ∧ grp.any ready = true ∧ r.1 = some 15 ∧
    (eligible { t with sch := { t.sch with deficit := r.2 } } 287 15).isSome = true) := by decide +kernel
/-- A port that MODE has unassigned: mode 4 of an Ethernet link has fewer ports. -/
theorem witness_Scheduler_unassigned : (let s := lnkS 2 4 id
    portAssigned s 287 = false ∧ lnkState s 35 = 2 ∧ sget 0 s.sch.busy 287 ≤ 1000 * s.clk) := by decide +kernel
theorem witness_Scheduler_select : (let s := enqueue { wr (lnkS 2 5 id) (f_SCH_SVC_SERVICE 287) 0 with sch := { Sched.reset with svc := [(287, 0)] } } 287 3 ⟨List.replicate 60 1, 0, none, 0, 0⟩
    let t := takeService (accrue (staleDrop (gateSync s 287) 287) 287) 287
    sget 0 s.sch.busy 287 ≤ 1000 * s.clk ∧ portAssigned s 287 = true ∧ lnkState s (287 / 8) = 2 ∧
    (List.range 4).find? (fun c => (eligible t 287 c).isSome) = some 3 ∧ eligible t 287 3 = some ⟨List.replicate 60 1, 0, none, 0, 0⟩) := by decide +kernel
theorem witness_Scheduler_drop : sget 0 (lnkS 0 5 id).sch.busy 287 ≤ 1000 * (lnkS 0 5 id).clk ∧ portAssigned (lnkS 0 5 id) 287 = true ∧ lnkState (lnkS 0 5 id) (287 / 8) = 0 ∧
    lnkState (lnkS 1 5 id) (287 / 8) = 1 := by decide +kernel
theorem witness_Scheduler_gates : (let s := { wr (lnkS 2 5 id) (f_SCH_GCL_LEN_V 287) 1 with
      sch := { Sched.reset with armed := nadd [] 287, oper := [(287, some ⟨0, 1000, [(0xFFFF, 1000)]⟩)], admin := [(256 * 287, 0xFFFF0000000003E8)] } }
    operOf (accrue s 287) 287 = some ⟨0, 1000, [(0xFFFF, 1000)]⟩ ∧ (lnkOf (accrue s 287) (287 / 8)).hold ≠ 3 ∧
    barOpen s = true ∧ nin s.sch.armed 287 = true ∧ changeInstant s 287 ≤ now s ∧
    (adminOf (accrue s 287) 287).ents ≠ []) := by decide +kernel
theorem witness_Scheduler_histogram : (let s := { wr on (f_SCH_SAMPLE_V 287) 1 with tb := { Tb.reset with ns := 1000 } }
    rd s (f_SCH_SAMPLE_V 287) ≠ 0 ∧ sget 0 s.sch.sampled 287 < now s / (1000 * rd s (f_SCH_SAMPLE_V 287)) ∧ barOpen s = true) := by decide +kernel

/-! ### Lateral transport, storage, cipher -/

/-- The accesses of furrow 9's entry 0. -/
def io9 : Via := ⟨ioWalker, .entry 9 0, false, none⟩
/-- Every drive of a list is ready and has room. -/
def drvsGo (s : State) (ds : List Nat) : Bool := ds.all (drvReady s) && drvsFree s ds
/-- An entry's bytes: zeros with some fields put in. -/
def eb (op : Nat) (l : List (Nat × List Byte)) : List Byte := l.foldl (fun b p => putAt b p.1 p.2) (natLE 64 op)
/-- The furrow 9 of class `cls` with one fetched entry. -/
def runS (cls op : Nat) (l : List (Nat × List Byte)) : State := { fur9 cls with infl := [ent (eb op l) .fetched] }
/-- Its hypotheses: the entry is fetched and of the class and the opcode. -/
def readyB (s : State) (cls op : Nat) : Bool := match entryOf s 9 0 with
  | some e => e.f == 9 && e.i == 0 && decide (e.ph = .fetched) && furClass s 9 == cls && e.op == op
  | none => false
/-- And every entry of its furrow before it has started. -/
def inTurnB (s : State) (cls op : Nat) : Bool :=
  readyB s cls op && (entryOf s 9 0).any (fun e =>
    !s.infl.any (fun x => x.f == e.f && decide (x.seq < e.seq) && decide (x.ph = .fetched) && x.snap.getD 2 0 == 0))
theorem witness_LateralRequester_start : (let s := runS clLateral 1 [(40, natLE 8 rsv), (48, natLE 8 5000)]
    readyB s clLateral 1 = true ∧ readyB (runS clLateral 2 []) clLateral 2 = true ∧ readyB (runS clLateral 3 [(24, [2])]) clLateral 3 = true ∧
    lAop (eb 3 [(24, [2])]) = 2 ∧ valIs s ((pagePieces 3 rsv 5000).forM (fun p => do
        let a ← ownerAddr ioWalker 0x201 p.1 false
        let s ← get
        if !rangeOk s 0x201 a p.2 then throw .denied)) (fun _ => true) = true ∧
    okRead s (writeTargets io9 0x201 (pagePieces 3 rsv 5000)) = true ∧ okRead s (writeTargets io9 0x201 (pagePieces 2 rsv 8)) = true) := by decide +kernel
/-- A message of one packet of 8 bytes over native link 35: not yet sent, or sent at instant 0 with message number 0. -/
def msgS (op t0 : Nat) : State :=
  let s := fur9 clLateral
  let s := wr (wr s (f_LNK_CTL_MODE 35) 1) (f_LNK_STAT_STATE 35) 2
  { s with
    infl := [ent (eb op [(40, natLE 8 rsv), (48, natLE 8 8)]) .running]
    lat := { s.lat with msgs := [⟨9, 0, 0, t0, [⟨false, 0, 0, 0, 0, 0⟩], 0⟩] } }
theorem witness_LateralRequester_first : (msgOf (msgS 1 0) 9 0 = some (ent (eb 1 [(40, natLE 8 rsv), (48, natLE 8 8)]) .running, ⟨9, 0, 0, 0, [⟨false, 0, 0, 0, 0, 0⟩], 0⟩)) ∧
    (let s := msgS 1 0
    let e := ent (eb 1 [(40, natLE 8 rsv), (48, natLE 8 8)]) .running
    (sendPkts e false (txList e) (modMsg { s with lat := { s.lat with msgid := (s.lat.msgid + 1) % 2 ^ 32 } } 9 0
      (fun m => { m with t0 := 1 + now s, id := s.lat.msgid }))).isSome = true ∧
    (sendPkt (msgS 1 1) e 0 true).isSome = true ∧ now (msgS 1 1) < msgEnd ⟨9, 0, 0, 1, [⟨false, 0, 0, 0, 0, 0⟩], 0⟩ ∧
    (txList e).findSome? (fun k => awaited s (reqPacket e ⟨9, 0, 0, 0, [⟨false, 0, 0, 0, 0, 0⟩], 0⟩ k false)) = none ∧
    awaited s (reqPacket e ⟨9, 0, 0, 1, [⟨false, 0, 0, 0, 0, 0⟩], 0⟩ 0 true) = none) := by decide +kernel
theorem witness_LateralRequester_deadline : msgEnd ⟨9, 0, 0, 1, [], 0⟩ < now { msgS 1 1 with tb := { Tb.reset with ns := 1500001 } } ∧
    msgEnd ⟨9, 0, 0, 1, [], 0⟩ = now { msgS 1 1 with tb := { Tb.reset with ns := 1500000 } } := by decide +kernel
/-- A lateral packet of a type, for message 0. -/
def lp (ty : Nat) (l : List (Nat × List Byte)) : List Byte := eb ty l
theorem witness_LateralRequester_answers : (let s (op : Nat) (l : List Byte) : State := { msgS op 1 with lat := { (msgS op 1).lat with rx := [l] } }
    let find (l : List Byte) (ty : Nat) : Option Nat := [l].findIdx? (fun l => lpType l == ty)
    find (lp 6 []) 6 = some 0 ∧ lpStatus (lp 6 []) = 0 ∧ (msgById { s 1 [] with lat := { (s 1 []).lat with rx := [] } } (lpId (lp 6 []))).isSome = true ∧
    find (lp 3 []) 3 = some 0 ∧ lpPidx (lp 3 []) < 1 ∧ lpDlen (lp 3 [(26, natLE 2 8)]) = pktLen (eb 2 [(48, natLE 8 8)]) 0 ∧
    (msgById { s 2 [] with lat := { (s 2 []).lat with rx := [] } } 0).isSome = true ∧ find (lp 5 []) 5 = some 0 ∧
    (msgById { s 3 [] with lat := { (s 3 []).lat with rx := [] } } 0).isSome = true) := by decide +kernel
/-- Turnout 3's furrow with a WIN_REG, one window allowed. -/
def winS (op : Nat) : State :=
  let s := modFur (runS clLateral op [(28, natLE 4 7)]) 9 (fun x => { x with owner := 3 })
  { s with trn := { s.trn with q := [(3, { Quota.none with windows := 1 })] } }
theorem witness_LateralResponder_windows : readyB (winS 8) clLateral 8 = true ∧ winOf (winS 8) 3 7 = none ∧ winCount (winS 8) 3 < (quotaOf (winS 8) 3).windows ∧
    (winS 8).lat.wins.length < 1048576 ∧ (winOf { winS 8 with lat := { (winS 8).lat with wins := [⟨3, 7, 0, 8, 7⟩] } } 3 7).isSome = true ∧
    readyB (winS 9) clLateral 9 = true ∧ (winS 9).lat.grps = [] := by decide +kernel
theorem witness_LateralResponder_packets : (let find (l : List Byte) (ty : Nat) : Option Nat := [l].findIdx? (fun l => lpType l == ty)
    find (lp 1 []) 1 = some 0 ∧ lpClose (lp 1 []) = false ∧ find (lp 2 []) 2 = some 0 ∧ find (lp 4 []) 4 = some 0 ∧
    lpT0 (lp 1 []) + 1900000 < now { on with tb := { Tb.reset with ns := 1900001 } }) := by decide +kernel
/-- Filter and group entries from time 0, the group with a held closing write. -/
def filtS (ns : Nat) : State := { on with
  tb := { Tb.reset with ns := BitVec.ofNat 64 ns }
  lat := { Lat.reset with
    filt := [⟨7, 9, 0, 1, 1, none, true, 0, lp 1 []⟩]
    grps := [⟨7, 3, 511, 5, 1, some (lp 1 [(22, natLE 2 1)]), rsv, 0⟩] } }
theorem witness_LateralResponder_closing : (let l := lp 1 [(22, natLE 2 1)]
    lpClose l = lpClose l ∧ (grpOf (latPurge on) l).bind Grp.held = none ∧ (owned on).lat.grps = [] ∧
    okRead (owned on) (writeSp (ioFor .remote) 0x201 rsv (lpData l)) = true) := by decide +kernel
theorem witness_LateralResponder_filter : filtOf (filtS 2000000) (7#24).toNat (9#32).toNat = some ⟨7, 9, 0, 1, 1, none, true, 0, lp 1 []⟩ ∧ 0 + 2000000 < now (filtS 2000001) := by
  decide +kernel
theorem witness_LateralResponder_group : (let l := lp 1 [(22, natLE 2 1)]
    grpBy (filtS 0) (7#24).toNat 3 511 (5#16).toNat = some ⟨7, 3, 511, 5, 1, some l, rsv, 0⟩ ∧ now (filtS 1900000) ≤ lpT0 l + 1900000 ∧ lpGcount l ≤ 1 ∧
    lpT0 l + 1900000 < now (filtS 1900001) ∧ 0 + 100000000 < now (filtS 100000001)) := by decide +kernel
/-- Drive 15 ready with 100 slabs, namespace 1 of the firmware over it; `l` the entry's fields. -/
def stoS (op : Nat) (l : List (Nat × List Byte)) (x : Ns) : State :=
  let s := runS clStorage op ([(16, natLE 4 1)] ++ l)
  let s := wr (wr (wr (wr s (f_CQS_DRV_PRESENT 15) 1) (f_CQS_DRV_READY 15) 1) (f_CQS_DRV_SLABS 15) 100) (f_CQS_DRV_FREE 15) 99
  let s := wr (wr s f_CQS_PS_CUR 0) f_CQS_PS_BUSY 0
  setNs s 1 (some x)
/-- A namespace with unit 0 on drive 15. -/
def ns1 : Ns := ⟨0x201, false, 16384, false, [(0, some (15 * 2 ^ 24 + 1))], [], 1, 0, true, [], false⟩
/-- Its empty and read-only forms. -/
def ns0 : Ns := { ns1 with units := [] }
/-- One block at address `rsv`. -/
def blk : List (Nat × List Byte) := [(32, natLE 4 1), (48, natLE 8 rsv)]
theorem witness_StorageCommands_read : (let s := stoS 1 blk ns1
    let e := ent (eb 1 ([(16, natLE 4 1)] ++ blk)) .fetched
    stoCanStart s e = true ∧ stoBefore s e = [] ∧ stoStarted { e with snap := [2] } = true ∧ nsOf s (eNs e.b) = some ns1 ∧ readyB s clStorage 1 = true ∧ slabPieces ns1 0 4096 ≠ [] ∧
    drvsGo s ((slabPieces ns1 0 4096).map (fun p => p.1)) = true ∧ eCount e.b = 1 ∧
    okRead s (writeTargets io9 (furOwner s 9) (pagePieces 3 (eAddr e.b) 4096)) = true) := by decide +kernel
/-- A drive that is not ready, and namespaces without room. -/
theorem witness_StorageCommands_faults : (let s := wr (stoS 1 blk ns1) (f_CQS_DRV_READY 15) 0
    (slabPieces ns1 0 4096).find? (fun p => !drvReady s p.1) = some (15, 0, 4096) ∧
    giveSlabs 1 1 0 (wr (stoS 2 blk ns0) (f_CQS_DRV_FREE 15) 0) = none ∧
    ctxRoom (wr (stoS 6 [] { ns0 with ctx := true }) (f_CQS_DRV_FREE 15) 0) 1 128 = none) := by decide +kernel
theorem witness_StorageCommands_write : (let s := stoS 2 blk { ns0 with owner := 3 }
    let s := { s with trn := { s.trn with q := [(3, { Quota.none with blocks := 16384 })] } }
    readyB s clStorage 2 = true ∧ okRead s (readSp io9 (furOwner s 9) rsv 4096) = true ∧
    (match giveSlabs 1 1 0 s with
      | some v => (match nsOf v 1 with
        | some y => slabPieces y 0 4096 != [] && drvsGo v ((slabPieces y 0 4096).map (fun p => p.1))
        | none => false)
      | none => false) = true ∧ unitRange 0 4096 = (0, 1)) := by decide +kernel
theorem witness_StorageCommands_ro : ({ ns1 with ro := true } : Ns).ro = true ∧ nsOf (stoS 4 blk { ns1 with ro := true }) 1 = some { ns1 with ro := true } ∧
    readyB (stoS 4 blk { ns1 with ro := true }) clStorage 4 = true ∧ readyB (stoS 5 blk ns1) clStorage 5 = true ∧ readyB (stoS 3 [] ns0) clStorage 3 = true ∧
    nsDrives ns0 = [] ∧ nsDrives ns1 ≠ [] ∧ drvsGo (stoS 3 [] ns1) (nsDrives ns1) = true := by decide +kernel
theorem witness_StorageCommands_lock : (let l : RLock := ⟨9, 0, 0, 1, 0, 1, true⟩
    let s := { stoS 1 blk ns1 with sto := { (stoS 1 blk ns1).sto with locks := [l] } }
    s.sto.locks.find? (fun l => l.f == 9 && l.i == 0) = some l ∧ lockBlocked s l = false) := by decide +kernel
/-- A command in flight on drive 15 for a running entry. -/
def nvS (ab : Bool) (clk : Nat) : State :=
  let s := stoS 2 blk ns1
  { s with
    clk := clk
    infl := [ent (eb 2 ([(16, natLE 4 1)] ++ blk)) .running]
    sto := { s.sto with cmds := [⟨15, 16383, 9, 0, .flush, 1, 0, 0, [], none, 0, ab⟩] } }
theorem witness_StorageDrives_completion : (let c : Nvme := ⟨15, 16383, 9, 0, .flush, 1, 0, 0, [], none, 0, false⟩
    let e := ent (eb 2 ([(16, natLE 4 1)] ++ blk)) .running
    (nvS false 0).sto.cmds.find? (fun c => c.drive == 15 && c.id == 16383) = some c ∧ entryOf (nvS false 0) 9 0 = some e ∧ nvStatus 0 = 0 ∧
    nvLate (nvS false 0) c = false ∧ nvStatus 1 ≠ 0 ∧ (entryOf (stoFail (nvFail (nvDrop (nvS false 0) c) c) c 1 (nvStatus 1)) 9 0).isSome = true ∧
    entryOf (nvCommit (nvDrop (nvS false 0) c) c e.seq) 9 0 = some e) := by decide +kernel
theorem witness_StorageDrives_timeout : (let s := nvS false (stoTmo (nvS false 0) + 1)
    let c : Nvme := ⟨15, 16383, 9, 0, .flush, 1, 0, 0, [], none, 0, false⟩
    let t := { s with sto := { s.sto with cmds := s.sto.cmds.map (fun q => if q.drive == 15 && q.id == 16383 then { q with aborted := true } else q) } }
    let u := stoFail (incF (event t (0x182 + 15) 1 0x0B 1) f_CQS_CNT_TMO_V 1) c 0 0x10
    rd s (f_CQS_DRV_ACTIVATING 15) = 0 ∧ 0 + stoTmo s < s.clk ∧ (entryOf u 9 0).any (fun e => decide (e.ph = .running)) = true) := by decide +kernel
theorem witness_StorageDrives_reset : (let s := nvS true (2 * stoTmo (nvS true 0) + 1)
    s.sto.cmds.any (fun c => c.drive == 15 && c.aborted && decide (c.at_ + 2 * stoTmo s < s.clk)) = true) := by decide +kernel
theorem witness_StorageDrives_states : (let s := wr (wr (nvS false 0) (f_CQS_DRV_ACTIVATING 15) 1) f_CQS_PS_BUSY 1
    rd s (f_CQS_DRV_PRESENT 15) = 1 ∧ rd s (f_CQS_DRV_READY 15) = 1 ∧ rd s (f_CQS_DRV_ACTIVATING 15) = 1 ∧ barOpen s = true ∧ rd s f_CQS_PS_BUSY = 1) := by decide +kernel
theorem witness_StorageContexts_admin : (let s := stoS 0x82 [(32, natLE 4 48), (48, natLE 8 rsv)] ns1
    let n := stoS 0x80 [] ns1
    readyB s clStorage 0x82 = true ∧ okRead s (writeSp io9 0x201 rsv []) = true ∧ readyB n clStorage 0x80 = true ∧
    (quotaOf n (furOwner n 9)).namespaces ≤ nsCount n (furOwner n 9) ∧ readyB (stoS 0x81 [] ns1) clStorage 0x81 = true ∧
    (stoS 0x81 [] ns1).infl.any (fun x => furClass (stoS 0x81 [] ns1) x.f == clStorage && decide (x.seq < 0) && namesNs 1 x) = false) := by decide +kernel
theorem witness_StorageContexts_create : (let s := modFur (runS clStorage 0x80 []) 9 (fun x => { x with owner := 3 })
    let s := { wr (wr s f_CQS_PS_CUR 0) f_CQS_PS_BUSY 0 with trn := { s.trn with q := [(3, { Quota.none with namespaces := 1 })] } }
    readyB s clStorage 0x80 = true ∧ stoCanStart s (ent (eb 0x80 []) .fetched) = true ∧ nsCount s 3 < (quotaOf s 3).namespaces ∧
    findBelow (fun k => decide (0 < k) && (nsOf s k).isNone) 8193 = some 1) := by decide +kernel
/-- Turnout 3's admin furrow 9 and its frozen STORAGE furrow 10 at doorbell slot 1, one entry in it. -/
def restartS (mode : Nat) : State :=
  let s := modFur (runS clStorage 0x83 [(40, natLE 2 1), (42, [BitVec.ofNat 8 mode])]) 9 (fun x => { x with owner := 3 })
  setFur s 10 (some ⟨3, clStorage, 0, 0, 4, 0, 1, 0, false, false, 0, 0, 0, 0, [], 0, [], []⟩)
theorem witness_StorageContexts_restart : readyB (restartS 0) clStorage 0x83 = true ∧ stoCanStart (restartS 0) (ent (eb 0x83 [(40, natLE 2 1)]) .fetched) = true ∧
    restartTarget (restartS 0) 3 2 = none ∧ lef (eb 0x83 [(40, natLE 2 1), (42, [1])]) 42 1 0 0 = 1 ∧ restartTarget (restartS 0) 3 1 = some 10 ∧ restartTarget (restartS 1) 3 1 = some 10 ∧ (furOf (restartS 1) 10).isSome = true := by decide +kernel
/-- A discard that has come to its end, that waits for room in the completion ring, and that meets a ring it cannot read. -/
theorem witness_StorageContexts_discard : (let full := modFur (restartS 1) 10 (fun x => { x with head := 16, pi := 17 })
    let bad := modFur (restartS 1) 10 (fun x => { x with pi := 1, sq := 0x7FFFFFFFFFF000 })
    (match discardEntries 10 0 (restartS 1) with | (_, 0, .all) => true | _ => false) = true ∧
    (match discardEntries 10 1 full with | (_, 0, .waits) => true | _ => false) = true ∧
    (match discardEntries 10 1 bad with | (_, _, .fault) => true | _ => false) = true) := by decide +kernel
/-- A context record of 64 bytes. -/
def rec0 : CtxRec := ⟨0x201, 5, 2, 1, 0, 64, false, 0⟩
/-- A CONTEXT namespace on drive 15 with one record at offset 0. -/
def nsC : Ns := { ns1 with ctx := true, head := 128, index := [rec0] }
theorem witness_StorageContexts_put : (let s := stoS 6 [(32, natLE 4 64), (36, natLE 4 5), (48, natLE 8 rsv)] nsC
    let ro := stoS 6 [] { nsC with ro := true }
    readyB s clStorage 6 = true ∧ readyB ro clStorage 6 = true ∧ okRead s (readSp io9 0x201 rsv 64) = true ∧ (ctxRoom s 1 (64 + alignUp 64 64)).any (fun p => p.2 == 128) = true ∧
    (nsC.index.filter (fun r => r.t == 0x201 && r.ctx == 5)).getLast? = some rec0 ∧ sget none nsC.units (128 / unitBytes) = some (15 * 2 ^ 24 + 1) ∧
    drvsGo s [(15 * 2 ^ 24 + 1) / 2 ^ 24] = true) := by decide +kernel
theorem witness_StorageContexts_get : (let s := stoS 7 [(24, natLE 8 2), (32, natLE 4 64), (36, natLE 4 5), (48, natLE 8 rsv)] nsC
    readyB s clStorage 7 = true ∧ ctxFind nsC 0x201 5 2 = some rec0 ∧ ctxFind nsC 0x201 5 3 = none ∧ rec0.tomb = false ∧ rec0.len ≤ 64 ∧
    drvsGo s ((slabPieces nsC rec0.off (64 + rec0.len)).map (fun p => p.1)) = true ∧
    okRead s (writeSp io9 0x201 rsv (nsBytes s nsC (rec0.off + 64) rec0.len)) = true) := by decide +kernel
theorem witness_StorageContexts_recover : (let s := stoS 0x84 [(32, natLE 4 16), (48, natLE 8 rsv)] { ns0 with ctx := true }
    readyB s clStorage 0x84 = true ∧ drvsGo s (nsDrives ({ ns0 with ctx := true } : Ns)) = true ∧
    okRead s (writeSp io9 0x201 rsv (natLE 8 0 ++ natLE 8 0)) = true) := by decide +kernel
theorem witness_StorageContexts_compact : (let x : Ns := { nsC with units := [(0, some 1), (1, some 2)], index := [] }
    let s := stoS 6 [] x
    x.ro = false ∧ x.gone = false ∧ rd s f_CQS_PS_CUR = 0 ∧ (nsDrives x).all (drvReady (wr (wr s (f_CQS_DRV_PRESENT 0) 1) (f_CQS_DRV_READY 0) 1)) = true ∧ drvsFree s (nsDrives x) = true ∧
    nsOf s 1 = some x ∧ x.ctx = true ∧ x.indexed = true ∧ (sget none x.units 1).isSome = true ∧ x.head / unitBytes ≠ 1 ∧ liveIn x 1 = [] ∧
    s.sto.cmds.any (fun c => c.ns == 1 && c.off / unitBytes == 1) = false) := by decide +kernel
/-- A cipher entry over 64 bytes at `rsv`, output 4 KiB on, tag or record at 8 KiB, with a key bound. -/
def cipB (op : Nat) : List Byte := eb op [(20, natLE 4 64), (24, [3]), (40, natLE 8 rsv), (48, natLE 8 (rsv + 0x1000)), (56, natLE 8 (rsv + 0x2000))]
def cipS (op : Nat) : State := { fur9 clCipher with infl := [{ ent (cipB op) .fetched with data := List.replicate 64 1 }] }
theorem witness_Ciphers_gcm : (let s := cipS 1
    inTurnB s clCipher 1 = true ∧ okRead s (do
        ready io9 0x201 (cDst (cipB 1)) (cLen (cipB 1))
        ready io9 0x201 (cAux (cipB 1)) 16
        let d ← readSp io9 0x201 (cSrc (cipB 1)) (cLen (cipB 1))
        writeSp io9 0x201 (cDst (cipB 1)) d) = true) := by decide +kernel
theorem witness_Ciphers_dec : inTurnB (cipS 2) clCipher 2 = true ∧ okRead (cipS 2) (readSp io9 0x201 (cSrc (cipB 2)) (cLen (cipB 2))) = true ∧
    okRead (cipS 2) (readSp io9 0x201 (cAux (cipB 2)) 16) = true := by decide +kernel
theorem witness_Ciphers_verdict : (let e : Entry := { ent (cipB 2) .running with snap := [1, 1, 1], data := List.replicate 96 0 }
    let bad : Entry := { e with data := List.replicate 80 0 ++ List.replicate 16 1 }
    let s := { cipS 2 with infl := [e] }
    entryOf s 9 0 = some e ∧ furClass s 9 = clCipher ∧ e.op = 2 ∧ (e.data.drop (cLen e.b)).take 16 = e.data.drop (cLen e.b + 16) ∧
    okRead s (writeSp io9 0x201 (cDst e.b) (e.data.take (cLen e.b))) = true ∧ (bad.data.drop (cLen bad.b)).take 16 ≠ bad.data.drop (cLen bad.b + 16)) := by decide +kernel
theorem witness_Ciphers_others : inTurnB (cipS 3) clCipher 3 = true ∧ inTurnB (cipS 4) clCipher 4 = true ∧ inTurnB (cipS 5) clCipher 5 = true ∧ inTurnB (cipS 6) clCipher 6 = true ∧
    okRead (cipS 5) (do
      ready io9 0x201 (cAux (cipB 5)) 80
      ready io9 0x201 (cDst (cipB 5)) (cOut (cipB 5))
      writeSp io9 0x201 (cDst (cipB 5)) (List.replicate (cOut (cipB 5)) 0)) = true := by decide +kernel
theorem witness_Ciphers_sha : (shaStep 5 true true [] (List.replicate 64 0)).isSome = true ∧ (shaStep 6 true true [] (List.replicate 64 0)).isSome = true := by decide +kernel

/-! ### Siphon, Mimin -/

/-- A siphon entry with its buffers in the reservoir: descriptor, manifest entry and auxiliary buffer 4 KiB apart. -/
def sipL : List (Nat × List Byte) := [(40, natLE 8 rsv), (48, natLE 8 (rsv + 0x1000)), (56, natLE 8 (rsv + 0x2000))]
/-- A shard descriptor or manifest entry: one dimension of 16 elements of code 4, class 0; the local address of a descriptor. -/
def shd (at_ : Nat) (l : List (Nat × List Byte)) : List Byte :=
  ([(8, [1, 4, 4, 0]), (at_, natLE 8 16 ++ natLE 8 1 ++ natLE 8 1 ++ natLE 8 1)] ++ l).foldl (fun b p => putAt b p.1 p.2) (List.replicate 192 (0 : Byte))
/-- Extents of 16. -/
def ext16 : List Byte := natLE 8 16 ++ natLE 8 1 ++ natLE 8 1 ++ natLE 8 1
/-- The furrow 9 of class SIPHON with an entry at stage `st`, `l` staged. -/
def sipS (op : Nat) (st : Nat) (l : List Byte) (m : List (Nat × List Byte)) : State :=
  { fur9 clSiphon with infl := [{ ent (eb op (sipL ++ m)) .fetched with snap := [st, 0], data := l }] }
/-- A SAVE's descriptor, LOAD's descriptor, and the manifest entry of a shard with those dimensions; `dg` its digest. -/
def saveD : List Byte := (shd 16 [(80, ext16), (112, natLE 8 (rsv + 0x3000))]).take 128
def loadD : List Byte := (shd 16 [(10, [0]), (80, ext16), (112, natLE 8 (rsv + 0x3000))]).take 128
def manE (n : Nat) (dg : List Byte) : List Byte := shd 32 [(96, ext16), (24, natLE 8 n), (128, dg)]
theorem witness_SiphonShards_save : (let s := storeBytes (sipS 1 0 [] []) rsv saveD false
    inTurnB s clSiphon 1 = true ∧ valIs s (readSp io9 0x201 rsv 128) (fun d => (saveDesc d).isSome && le d 11 1 == 0) = true ∧
    (saveDesc saveD).any (fun p => valIs s (readSp io9 0x201 (le saveD 112 8) (Slice.bytes p.1)) (fun _ => true)) = true) := by decide +kernel
theorem witness_SiphonShards_saved : (let s := sipS 1 1 (manE 16 (List.replicate 32 0)) []
    inTurnB s clSiphon 1 = true ∧ (s.infl.map Entry.stage) = [1] ∧ okRead s (writeSp io9 0x201 (rsv + 0x1000) ((manE 16 (List.replicate 32 0)).take 192)) = true) := by decide +kernel
theorem witness_SiphonShards_load : (let m := manE 16 (List.replicate 32 0)
    let s := storeBytes (storeBytes (sipS 2 0 [] []) rsv loadD false) (rsv + 0x1000) m false
    inTurnB s clSiphon 2 = true ∧ (s.infl.map Entry.stage) = [0] ∧ okRead s (readSp io9 0x201 rsv 128) = true ∧ okRead s (readSp io9 0x201 (rsv + 0x1000) 192) = true ∧
    (loadDesc loadD).isSome = true ∧ (entrySlice m).isSome = true ∧
    (match loadDesc loadD, entrySlice m with
      | some x, some y => loadFits loadD m x y.1
      | _, _ => false) = true) := by decide +kernel
theorem witness_SiphonShards_refused : (let m := manE 16 (List.replicate 32 0)
    let s := sipS 2 1 (loadD ++ m ++ List.replicate 64 0) []
    inTurnB s clSiphon 2 = true ∧ (s.infl.map Entry.stage) = [1] ∧ openShard [] m (List.replicate 64 0) = none ∧ (entrySlice m).isSome = true ∧
    okRead s (writeSp io9 0x201 (rsv + 0x2000) (List.replicate 64 0)) = true) := by decide +kernel
/-- A manifest with one entry. -/
def man1 : List Byte := putAt (putAt (List.replicate 128 0) 0 [0x53, 0x4B, 0x4D, 0x46, 1]) 24 [1] ++ manE 16 (List.replicate 32 0)
theorem witness_SiphonShards_manifest : (let s := storeBytes (sipS 3 0 [] []) rsv man1 false
    inTurnB s clSiphon 3 = true ∧ valIs s (readSp io9 0x201 rsv 128) (fun h => manHeaderOk h && nshards h == 1) = true ∧
    valIs s (readSp io9 0x201 rsv (manLen 1)) (fun l => manEntriesOk l && !l.isEmpty) = true ∧
    inTurnB (sipS 3 1 (List.replicate 32 7) []) clSiphon 3 = true ∧ okRead s (writeSp io9 0x201 (rsv + 0x1000) (List.replicate 32 7)) = true) := by decide +kernel
theorem witness_SiphonShards_read : (let s := storeBytes (sipS 4 2 man1 [(20, natLE 4 4096)]) (rsv + 0x1000) (sha256 (man1.take (manLen 1))) false
    inTurnB s clSiphon 4 = true ∧ manTag man1 = true ∧ manLen (nshards man1) ≤ 4096 ∧ okRead s (writeSp io9 0x201 (rsv + 0x2000) man1) = true ∧
    valIs s (readSp io9 0x201 (rsv + 0x1000) 32) (fun t => sha256 (man1.take (manLen (nshards man1))) == t) = true ∧
    okRead s (writeSp io9 0x201 rsv man1) = true ∧ sha256 (man1.take (manLen (nshards man1))) ≠ List.replicate 32 0) := by decide +kernel
/-- Target 15's entry: connected with one queue; Ethernet link 35 is up. -/
def tgtS : State :=
  let s := wr (wr (wr (lnkS 2 5 id) f_SIP_CFG_EN 1) f_SIP_TGTTAB_COUNT 16) (f_TRN_EXT_OWNER 0) 0x201
  let s := wr s f_SIP_LINKS_V (2 ^ 35)
  let s := storeBytes s (256 * 15) (natLE 256 0x0101) false
  setConn { s with sip := { s.sip with cmds := [⟨15, 65535, 9, 0, false, 0, 1, [], 0⟩] } } 15 (some ⟨0, 4420, 1, 0⟩)
theorem witness_SiphonTargets_open : barOpen tgtS = true ∧ rd tgtS f_SIP_CFG_EN = 1 ∧ targetEntry tgtS 15 = some (natLE 256 0x0101) ∧
    targetBad tgtS (natLE 256 0x0101) = false ∧ (pinsOf (if (pinsOf tgtS 15).all (fun p => (sipPorts tgtS).contains p) && !(pinsOf tgtS 15).isEmpty then tgtS else
      pinQueues tgtS 15 (lef (natLE 256 0x0101) 1 1 3 0)) 15).isEmpty = false ∧ lef (natLE 256 0x0101) 1 1 3 0 ≤ 8 ∧ 0 < lef (natLE 256 0x0101) 1 1 3 0 ∧
    connOf tgtS 15 = some ⟨0, 4420, 1, 0⟩ := by decide +kernel
/-- The same with a MAN_READ of the firmware waiting for its command. -/
def cmdSip : State :=
  let s := setFur { tgtS with infl := [ent (eb 4 [(18, [15]), (20, natLE 4 4096)]) .running], clk := 1000000 * rd tgtS f_SIP_CFG_TMO } 9
    (some ⟨0x201, clSiphon, rsv, rsv + 0x1000, 4, 0, 0, 0, true, false, 0, 0, 0, 0, [], 0, [], []⟩)
  s
theorem witness_SiphonTargets_command : (let c : StoreCmd := ⟨15, 65535, 9, 0, false, 0, 1, [], 0⟩
    let e := ent (eb 4 [(18, [15]), (20, natLE 4 4096)]) .running
    let t := { cmdSip with sip := { cmdSip.sip with cmds := cmdSip.sip.cmds.erase c } }
    let v := sipStage t 9 0 1 .fetched (man1.take 128)
    cmdSip.sip.cmds.find? (fun c => c.target == 15 && c.id == (65535#16).toNat) = some c ∧ 0 + 1000000 * rd cmdSip f_SIP_CFG_TMO < { cmdSip with clk := cmdSip.clk + 1 }.clk ∧
    cmdSip.clk ≤ 0 + 1000000 * rd cmdSip f_SIP_CFG_TMO ∧
    entryOf cmdSip 9 0 = some e ∧ e.ended = false ∧ entryOf t 9 0 = some e ∧ e.op = 4 ∧ e.stage = 0 ∧ inTurnB v clSiphon 4 = true ∧
    (entryOf v 9 0).any (fun e => e.stage == 1 && e.staged == man1.take 128) = true ∧ manTag (man1.take 128) = true) := by decide +kernel
/-- A TRN_SAVE of turnout 3 into the reservoir, in a phase. -/
def saveS (ph : Nat) (eph : EPhase) : State :=
  let s := wr { fur9 clSiphon with infl := [ent (eb 8 [(20, natLE 4 3), (40, natLE 8 rsv)]) eph] } f_SIP_TSTAT_PHASE ph
  if ph = 0 then s else { s with sip := { s.sip with op := some ⟨9, 0, 3, 0, []⟩ } }
theorem witness_SiphonTurnouts_start : readyB (saveS 0 .fetched) clSiphon 8 = true ∧ (saveS 0 .fetched).sip.op = none ∧ turnActive (saveS 0 .fetched) 3 = true ∧
    hasTier (saveS 0 .fetched) 3 2 = false := by decide +kernel
theorem witness_SiphonTurnouts_drain : (let s := saveS 1 .running
    let u := saveS 2 .running
    (entryOf s 9 0).any (fun e => e.op == 8 && !e.ended) = true ∧ s.sip.op = some ⟨9, 0, 3, 0, []⟩ ∧ sipPhase s = 1 ∧ sipPhase u = 2 ∧ inFlight u 3 = false ∧
    0 + 50000000 < { u with clk := 50000001 }.clk) := by decide +kernel
theorem witness_SiphonTurnouts_save : (let s := saveS 3 .running
    let u := (cellsOf s 3).foldl (fun s c => modCell s c saveCell) s
    s.sip.op = some ⟨9, 0, 3, 0, []⟩ ∧ (freshBelow u (2 ^ 20)).2 = { u with free := u.free + 1 } ∧ (moveAll (freshBelow u (2 ^ 20)).2 3).isSome = true ∧
    2 < sipPhase s ∧ (cellsOf u 3).all (fun c => cellSaved (cellOf u c)) = true ∧ (moveAll u 3).isSome = true) := by decide +kernel
theorem witness_SiphonTurnouts_restore : (let s := { fur9 clSiphon with infl := [ent (eb 9 [(20, natLE 4 3), (40, natLE 8 rsv)]) .fetched] }
    let c : TurnImage := ⟨3, 0, 1, true, [], [], [], [], []⟩
    inTurnB s clSiphon 9 = true ∧ okRead s (readSp io9 0x201 rsv (4096 * c.units)) = true ∧ s.sip.images = [] ∧ turnActive s 3 = true ∧ c.fwif ≤ fwif s ∧ c.digest = true ∧
    fursOf s 3 = [] ∧ ctxsOf s 3 = [] ∧ winCount s 3 = 0) := by decide +kernel
theorem witness_SiphonTurnouts_go : (let s := wr { on with sip := { on.sip with halted := some 3 } } f_SIP_TSTAT_PHASE 5
    barOpen s = true ∧ sipPhase s = 5 ∧ s.sip.halted = some 3 ∧ sipPhase on ≠ 5) := by decide +kernel
/-- A context of one layer, one group, one head, D = 4, with one page of tokens in the reservoir. -/
def pg : Page := { frame := List.replicate 1024 0, kmax := List.replicate 8 0, kmin := List.replicate 8 0, tier := 0, pin := false, read := 0 }
def ctx0 : Context := {
  t := 0x201, id := 0, layers := 1, groups := 1, heads := 1, d := 4, pfmt := .bf16, policy := 0, recent := 0, sumrsv := false, nsid := 0, first := 0,
  lgs := [(0, ⟨64, [(0, some pg)]⟩)], cuts := 0 }
/-- The furrow 9 of class MIMIN with an entry that has bound the context; cell 5 is an attention cell of its owner. -/
def mimS (op : Nat) (l : List (Nat × List Byte)) (ph : EPhase) : State :=
  let s := { fur9 clMimin with infl := [{ ent (eb op ([(48, natLE 8 rsv), (56, natLE 8 (rsv + 0x1000))] ++ l)) ph with ctx := some ctx0 }] }
  setCtx { s with trn := { s.trn with q := [(0x201, { Quota.none with attn := nadd [] 5, contexts := 1 })] } } 0x201 0 (some ctx0)
/-- Its entry. -/
def mimE (s : State) : Entry := (entryOf s 9 0).getD (ent [] .running)
/-- The bytes of its entry. -/
def mimB (s : State) : List Byte := ((entryOf s 9 0).map Entry.b).getD []
theorem witness_MiminCalls_attend : (let s := mimS 1 [(41, [1])] .fetched
    let b := mimB s
    readyB s clMimin 1 = true ∧ (attnOf s 0x201).all (inRun s) = false ∧ mTwin b = false ∧
    valIs s (mimRead io9 0x201 (le b 48 8) (attendBuf ctx0 b)) (fun buf => (attend ctx0 b buf).isSome) = true) := by decide +kernel
theorem witness_MiminCalls_pages : pageErr 0 [pg] = none ∧ pageErr 1 [pg] = some 0x0F ∧ listOk ctx0.first (sget ⟨0, []⟩ ctx0.lgs 0).pageCount [0] = true := by decide +kernel
theorem witness_MiminCalls_scan : (let s := mimS 3 [(28, [1]), (36, [1])] .fetched
    readyB s clMimin 3 = true ∧ valIs s (mimRead io9 0x201 rsv (rowLen .fp32 4)) (fun buf => buf.all (fun x => x == 0)) = true ∧
    vSpecial (valOf .fp32 0) = false) := by decide +kernel
theorem witness_MiminCalls_gather : (let s := mimS 6 [(28, [1]), (48, natLE 8 0)] .fetched
    readyB s clMimin 6 = true ∧ valIs s (gatherList 0x201 (mimE s)) (fun ps => ps == [0]) = true) := by decide +kernel
theorem witness_MiminCalls_append : (let s := mimS 2 [(28, [1]), (32, [64])] .fetched
    readyB s clMimin 2 = true ∧ ctxOf s 0x201 0 = some ctx0 ∧ mimRanges ctx0 (mimB s) = true ∧ okRead s (mimRead io9 0x201 rsv 64) = true ∧
    (liveCtx s (mimE s) 0x201 0).any (fun y => mimRanges y (mimB s)) = true ∧ (appendGroups ctx0 0 (le (mimB s) 32 5) [] s).isSome = true) := by decide +kernel
theorem witness_MiminCalls_merge : (let s := mimS 4 [(16, [1]), (20, [1]), (48, natLE 8 (rsv + 0x2000))] .fetched
    let s := storeBytes s (rsv + 0x2000) (natLE 8 (rsv + 0x3000)) false
    readyB s clMimin 4 = true ∧ mTwin (mimB s) = false ∧ valIs s (mergeRead 0x201 (mimE s)) (fun ins => (mergeSlots ins 1).isSome) = true ∧
    lef (mimB s) 24 1 4 3 = 0 ∧ lef (putAt (mimB s) 24 [8]) 24 1 4 3 = 1 ∧ lef (putAt (mimB s) 24 [16]) 24 1 4 3 = 2) := by decide +kernel
theorem witness_MiminCalls_sample : (let s := mimS 5 [(20, [2])] .fetched
    readyB s clMimin 5 = true ∧ okRead s (mimRead io9 0x201 (rsv + 0x1000) 8) = true) := by decide +kernel
theorem witness_MiminCalls_twin : (let s := mimS 5 [(20, [2]), (24, [64])] .running
    (entryOf s 9 0).any (fun e => decide (e.ph = .running) && mTwin e.b && e.op == 5) = true ∧ furClass s 9 = clMimin) := by decide +kernel
theorem witness_MiminContexts_create : (let s := mimS 8 [(16, [1])] .fetched
    let t := { s with trn := { s.trn with q := [(0x201, { Quota.none with contexts := 2 })] } }
    readyB s clMimin 8 = true ∧ ctxOf s 0x201 (le (mimB s) 16 4) = none ∧ (quotaOf s 0x201).contexts ≤ ctxCount s 0x201 ∧
    ctxCount t 0x201 < (quotaOf t 0x201).contexts ∧ t.mim.ctxs.length < 262144) := by decide +kernel
theorem witness_MiminContexts_rest : (let s := mimS 0xA [(32, [1])] .fetched
    readyB (mimS 9 [] .fetched) clMimin 9 = true ∧ readyB s clMimin 0xA = true ∧ mimRanges ctx0 (mimB s) = true ∧ pinList (mimB s) = [0] ∧
    (pinGo 0x201 0 0 0 [0] s).isSome = true ∧ pinGo 0x202 0 0 0 [0] s = none ∧ readyB (mimS 0xB [(32, [1])] .fetched) clMimin 0xB = true ∧
    mimRanges ctx0 (mimB (mimS 0xB [(32, [1])] .fetched)) = true ∧ readyB (mimS 0xC [] .fetched) clMimin 0xC = true) := by decide +kernel
/-- A RUN on cell 5, whose core runs supervisor code, with a limit of 1 µs. -/
def runM : State :=
  let s := mimS 7 [(16, [1]), (32, natLE 8 (rsv + 0x2000)), (56, natLE 4 64)] .fetched
  let s := storeBytes s (rsv + 0x2000) [32] false
  setCell s 5 { cell with turnout := 0x201 }
theorem witness_MiminContexts_run : readyB runM clMimin 7 = true ∧ runM.mim.runs = [] ∧ valIs runM (eachMM [mimRead io9 0x201 (le (mimB runM) 32 8) 32, mimRead io9 0x201 (le (mimB runM) 48 8) (le (mimB runM) 56 4)])
      (fun l => maskCells (l.headD []) == [5]) = true ∧
    fwServes runM = true ∧ compStopped runM 1 = false ∧ runOf runM 9 0 = none ∧ attnOf runM 0x201 = [5] ∧ runtimeUp runM 5 = true ∧ inRun runM 5 = false ∧
    maskCells (List.replicate 32 0) = [] := by decide +kernel
theorem witness_MiminContexts_timeout : (let r : RunRec := ⟨9, 0, [5], [], 0, 1, [], []⟩
    let s := { runM with mim := { runM.mim with runs := [r] } }
    runOf s 9 0 = some r ∧ r.due ≠ 0 ∧ r.due ≤ { s with clk := 1 }.clk) := by decide +kernel
/-- A twin call on a turnout with two attention cells, and a call on one without any; copies that end with success. -/
theorem witness_MiminCalls_copies : (let s := mimS 5 [(20, [2]), (24, [64])] .fetched
    let two := { s with trn := { s.trn with q := [(0x201, { Quota.none with attn := nadd (nadd [] 5) 6, contexts := 1 })] } }
    let no := { s with trn := { s.trn with q := [(0x201, { Quota.none with contexts := 1 })] } }
    readyB two clMimin 5 = true ∧ mTwin (mimB two) = true ∧ (attnOf two 0x201).length ≠ 1 ∧ (attnOf two 0x201).all (inRun two) = false ∧
    attnOf no 0x201 = [] ∧ readyB no clMimin 5 = true) := by decide +kernel
/-- A copy's status once both have ended. -/
def twinSt (s : State) (perr : Nat) : Nat :=
  match (entryOf (twinBody perr (mimE s) s) 9 0).map Entry.ph with
  | some (.ended st _) => st
  | _ => 0xFF
theorem witness_MiminCalls_ended : twinSt (mimS 5 [(20, [2]), (24, [64])] .running) (twinErr 0 0) = 0 := by decide +kernel
theorem witness_MiminCalls_failed : twinSt (mimS 5 [(20, [2]), (24, [64]), (56, natLE 8 (2 ^ 50))] .running) (twinErr 0 0) = 7 := by decide +kernel
/-- A corrected word is no failure. -/
theorem witness_MiminCalls_corrected : pageErr 4 [pg] = none ∧ pageErr 4 [] = none ∧ pageErr 1 [] = none := by decide +kernel
/-- A later TRUNCATE has cut the context, a later DESTROY taken it, and neither. -/
theorem witness_MiminContexts_live : (let s := mimS 0xA [(32, [1])] .fetched
    let cut := setCtx s 0x201 0 (some { ctx0 with cuts := 1 })
    let gone := setCtx s 0x201 0 none
    cutSince (mimE s) (liveCtx cut (mimE s) 0x201 0) = true ∧ liveCtx gone (mimE s) 0x201 0 = none ∧ liveCtx s (mimE s) 0x201 0 = some ctx0 ∧
    cutSince (mimE s) (some ctx0) = false) := by decide +kernel
/-- A range that the context no longer holds. -/
theorem witness_MiminContexts_range : mimRanges ctx0 (mimB (mimS 0xA [(20, [1]), (32, [1])] .fetched)) = false := by decide +kernel
/-- A RUN that waits for its cell, within its limit. -/
theorem witness_MiminContexts_waits : (let r : RunRec := ⟨9, 0, [5], [], 0, 0, [], [0]⟩
    let s := { runM with mim := { runM.mim with runs := [r] } }
    runOf s 9 0 = some r ∧ r.due = 0 ∧ r.wait ≠ [] ∧ compStopped s 1 = false ∧ fwServes s = true ∧ furClass s 9 = clMimin ∧ (entryOf s 9 0).any (fun e => e.op == 7) = true ∧
    okRead s (mimRead io9 0x201 (le (mimB s) 48 8) (le (mimB s) 56 4)) = true) := by decide +kernel
/-- A RUN that names a cell of another turnout. -/
theorem witness_MiminContexts_denied : ¬ (∀ c ∈ maskCells ([33] ++ List.replicate 31 0), c ∈ attnOf runM 0x201) := by decide +kernel

/-! ### Start-up, firmware -/

/-- A reset that may release, of source `i`. -/
def rstS (i : Nat) : State := { on with clk := 2000000, boot := { on.boot with inRst := true, rstSrc := i } }
theorem witness_Boot_release : mayRelease (rstS 0) = true ∧ (rstS 0).boot.rstSrc = 0 ∧ (rstS 0).boot.goodAt + 2000000 ≤ (rstS 0).clk ∧ mayRelease (rstS 9) = true ∧
    (rstS 9).boot.rstSrc ≠ 0 ∧ (rstS 9).boot.rstUntil ≤ (rstS 9).clk := by decide +kernel
theorem witness_Boot_sources : sourceLevel (setReg on f_RST_REACH_LEVEL.key 0x60) 1 = 6 ∧ sourceLevel on 9 = 6 ∧ sourceLevel on 10 = 6 ∧ sourceLevel on 13 = 7 ∧ on.boot.powered = true ∧ sget 0 on.pwr.quiet 8 ≤ on.clk := by
  decide +kernel
/-- The device between start-up steps. -/
def stageS (st : Stage) (o : List Byte) : State := { State.reset with boot := { State.reset.boot with stage := st, opt := o } }
/-- Two copies of the option bytes that differ in SEQ; an image of its header alone, IMG_MAX 64. -/
def optA : List Byte := [(0, [0x53, 0x4B, 0x4F, 0x42, 1]), (8, [1]), (13, [25]), (24, [64]), (252, natLE 4 0xf01c1b0)].foldl (fun b p => putAt b p.1 p.2) (List.replicate 256 0)
def optB : List Byte := putAt (putAt optA 8 [2]) 252 (natLE 4 0x67710df4)
def imgA : List Byte := [(0, [0x53, 0x4B, 0x43, 0x49, 1]), (8, [64])].foldl (fun b p => putAt b p.1 p.2) (List.replicate 64 0)
theorem witness_Boot_stages : (stageS .fuse []).boot.inRst = false ∧ (stageS .fuse []).boot.stage = .fuse ∧ (stageS .option []).boot.stage = .option ∧
    optValid optA = true ∧ optValid optB = true ∧ optUsesB optA optB = true ∧ optUsesB optB optA = false := by decide +kernel
theorem witness_Boot_image : (stageS .image optA).boot.stage = .image ∧ imgMax (stageS .image optA) = 64 ∧ imgMax (stageS .image []) = 0 ∧ imgOk 64 imgA = some [] ∧
    imgOk 64 [] = none ∧ (stageS .test []).boot.stage = .test := by decide +kernel
/-- A management port that is up, GEN_STATE READY for a load, and an image of LEN bytes at address 0 of its bus. -/
def fwS (st : Nat) (b : List Byte) : State :=
  let s := wr (wr on f_GEN_STATE_STATE st) f_GEN_FW_LEN_LEN 512
  { s with
    m := { s.m with ext := b.zipIdx.map (fun p => (p.2, some p.1)) }
    boot := { s.boot with keys := [(0, ⟨sha384 ((b.drop 20).take 97), false⟩)], fw := some ⟨0x10000, 1, [], []⟩ }
    pcie := { s.pcie with ups := [(0, upLive false 0)] } }
theorem fwS_ext (st : Nat) (b : List Byte) : (fwS st b).m.ext = b.zipIdx.map (fun p => (p.2, some p.1)) := rfl
/-- A firmware image of 512 bytes, signed outside the model with ECDSA P-384 (FIPS 186) for the private key 2 and the nonce 3. -/
def fwImg : List Byte :=
  [(0, [0x53, 0x4B, 0x46, 0x57, 1]), (8, natLE 4 512), (12, natLE 4 0x10000), (16, [7]), (20, [4]),
    (21, natBE 48 0x8d999057ba3d2d969260045c55b97f089025959a6f434d651d207d19fb96e9e4fe0e86ebe0e64f85b96a9c75295df61), (69, natBE 48 0x8e80f1fa5b1b3cedb7bfe8dffd6dba74b275d875bc6cc43e904e505f256ab4255ffd43e94d39e22d61501e700a940e80), (128, natBE 48 0x77a41d4606ffa1464793c7e5fdc7d98cb9d3910202dcd06bea4f240d3566da6b408bbae5026580d02d7e5c70500c831), (176, natBE 48 0x1525f4c16c8aa4b55cfaa9be73dff2d276ca88134b04e76be509a0d0a63cacbc87cb9d7acf4ba099f7ca86b58362637f)].foldl (fun b p => putAt b p.1 p.2) (List.replicate 512 0)
theorem witness_BootFirmware_state : (let t := wr (fwS 3 []) f_GEN_FW_CTL_OP 0
    rd t f_GEN_STATE_STATE = 3 ∧ fwBusy t = false ∧ afterBoot (fwS 5 []) = true ∧ (fwS 5 []).boot.fw = some ⟨0x10000, 1, [], []⟩ ∧
    rd (wr (fwS 4 []) f_GEN_FW_CTL_GO 1) f_GEN_STATE_STATE = 4 ∧ (fwS 4 []).clk ≤ (fwS 4 []).boot.goAt + 2000000000 ∧ rd (fwS 5 []) f_GEN_STATE_STATE ≠ 3) := by decide +kernel
/-- Reading an enumerated list of cells. -/
theorem sget_enum (l : List Byte) : ∀ j k, j ≤ k → sget none ((l.zipIdx j).map (fun p => (p.2, some p.1))) k = l[k - j]? := by
  induction l with
  | nil => intros; rfl
  | cons b r ih =>
    intro j k h
    rcases Nat.lt_or_eq_of_le h with h | rfl
    · rw [List.zipIdx_cons, List.map_cons, sget, if_neg (by omega), ih (j + 1) k h]
      obtain ⟨d, rfl⟩ := Nat.exists_eq_add_of_lt h
      rw [show j + d + 1 - (j + 1) = d by omega, show j + d + 1 - j = d + 1 by omega]
      rfl
    · simp [List.zipIdx_cons, sget]
theorem mgrBytes_enum (l : List Byte) (s : State) (hs : s.m.ext = l.zipIdx.map (fun p => (p.2, some p.1))) (hp : rd s f_HEP_TOPO_MGR_UP = 0)
    (hl : l.length < 2 ^ 64) : ∀ n a, a + n ≤ l.length → mgrBytes s a n = (l.drop a).take n := by
  intro n
  induction n with
  | zero => intros; rfl
  | succ n ih =>
    intro a h
    have e : mgrBusKey s a = a := by rw [mgrBusKey, hp, Nat.mod_eq_of_lt (by omega)]; omega
    rw [mgrBytes, ih (a + 1) (by omega), e, hs, sget_enum l 0 a (by omega), Nat.sub_zero, List.getElem?_eq_getElem (by omega),
      List.drop_eq_getElem_cons (show a < l.length by omega), List.take_succ_cons]
    rfl
theorem witness_BootFirmware_bytes : mgrBytes (fwS 3 fwImg) 0 512 = fwImg ∧ rd (fwS 3 fwImg) f_GEN_FW_ADDR_ADDR = 0 ∧ rd (fwS 3 fwImg) f_GEN_FW_LEN_LEN = 512 ∧
    (upOf (fwS 3 fwImg) (rd (fwS 3 fwImg) f_HEP_TOPO_MGR_UP)).link = true ∧ le fwImg 14 2 = 0x10000 / 2 ^ 16 := by
  have h : fwImg.length = 512 := by decide +kernel
  refine ⟨?_, by decide +kernel, by decide +kernel, by decide +kernel, by decide +kernel⟩
  rw [mgrBytes_enum fwImg (fwS 3 fwImg) (fwS_ext 3 fwImg) (by decide +kernel) (by omega) 512 0 (by omega), List.drop_zero, List.take_of_length_le (by omega)]
theorem witness_BootFirmware_signed : ecdsaVerify (sha384 (fwImg.take 128)) ((fwImg.drop 21).take 96) ((fwImg.drop 128).take 96) = true := by decide +kernel
theorem witness_BootFirmware_bad : (fwFetch on false).2 = 7 := by decide +kernel
theorem witness_BootFirmware_comps : (let s := { fwS 5 [] with boot := { (fwS 5 []).boot with next := some ⟨0x10001, 2, [], []⟩, comps := [(7, ⟨[0, 0, 0], false⟩)] } }
    s.boot.next = some ⟨0x10001, 2, [], []⟩ ∧ (compOf s 7).stopped = false ∧ ((compOf s 7).crashes.take 3).length = 3 ∧
    s.clk ≤ ((compOf s 7).crashes.take 3).getD 2 0 + 60000000000 ∧ (sideDrops (compDrops s 7) 7).clk = s.clk ∧ (compOf s 6).crashes.length ≠ 3 ∧
    (fwS 4 []).boot.goAt + 2000000000 ≤ { fwS 4 [] with clk := 2000000000 }.clk) := by decide +kernel

/-! ### Faults, debug, power, sideband, accesses -/

theorem witness_FaultsAndTelemetry : (let s := { wr (wr (wr on (f_FLT_STAT_ACTIVE 511) 1) (f_FLT_STAT_PRESENT 511) 1) (f_FLT_STAT_LASTING 511) 1 with
      clk := 10000000000, flt := { Faults.reset with win := [(511, 1)], rep := [(511, 10000000000)] } }
    sget 0 s.flt.win 511 ≠ 0 ∧ windowOver s 511 = true ∧ barOpen s = true ∧ rd s (f_FLT_STAT_ACTIVE 511) = 1 ∧
    rd s (f_FLT_STAT_PRESENT 511) ≠ 0 ∧ sget 0 s.flt.rep 511 ≠ 0 ∧ s.clk < sget 0 s.flt.rep 511 - 1 + 10000000 ∧ rd s (f_FLT_STAT_LASTING 511) = 1 ∧
    rd (wr s (f_FLT_STAT_PRESENT 511) 0) (f_FLT_STAT_PRESENT 511) = 0 ∧ sget 0 on.flt.rep 511 = 0) := by decide +kernel
theorem witness_FaultsAndTelemetry_rest : rd (wr on f_FLT_PIN_RECOVERY 1) f_FLT_PIN_RECOVERY = 1 ∧ rstPending on = false ∧ rd (wr on f_FLT_INJ_AVAIL 0) f_FLT_INJ_AVAIL = 0 ∧
    rd (wr on f_FLT_INJ_AVAIL 1) f_FLT_INJ_AVAIL = 1 ∧ (0x19F#9).toNat ≤ 0x19F ∧ srcInReset on 0x19F = false ∧ rd on f_TEL_SNAP_CTL_ARM = 0 ∧
    (regv on f_TEL_SNAP_AT_V.key).toNat ≤ now on ∧ (regv on f_TEL_SNAP_AT_V.key).toNat < now { on with tb := { Tb.reset with ns := 1 } } ∧
    rd (wr on f_TEL_SNAP_CTL_ARM 1) f_TEL_SNAP_CTL_ARM = 1 ∧ on.boot.fw.isSome = true ∧ compStopped on 7 = false ∧ pollDue on = true ∧ barOpen on = true := by decide +kernel
/-- A response for a nonce and a scope of zeros, for 1 s: the key (x, y) is made so that the digest, as r and as s, verifies. -/
def dbgR : List Byte :=
  [(4, [1]), (8, [4]), (9, natBE 48 0x9a2c3fc33a3b9cf4ef01c4fe3367eb63db9b876ba8c39764312acce3f5d1ae03772623165691ebd8fb0bca18efa9a7b7), (57, natBE 48 0x77b25d7f832e7d235352cc404f198c3e367adc18709efbe58d8536e6f2456400ae1a305a9f71cac9d46733af7baea18b), (112, natBE 48 0xeaed94218289bbd1c9b93da6d31c2598a94d09d25e74b2bc23feec39bb6f5b85825feaf71f3f9bdf611f87da43449c59), (160, natBE 48 0xeaed94218289bbd1c9b93da6d31c2598a94d09d25e74b2bc23feec39bb6f5b85825feaf71f3f9bdf611f87da43449c59)].foldl (fun b p => putAt b p.1 p.2) (List.replicate 256 0)
/-- A nonce is outstanding; the response lies in DBG_RESP. -/
def dbgS : State :=
  let s := (List.range 64).foldl (fun s k => wr s (f_DBG_RESP_V k) (le dbgR (4 * k) 4)) on
  { s with
    boot := { s.boot with keys := [(0, ⟨sha384 ((dbgR.drop 8).take 97), false⟩)] }
    dbg := { s.dbg with nonceAt := 1 } }
theorem witness_Debug_verify : barOpen dbgS = true ∧ dbgS.boot.fw.isSome = true ∧ dbgCheck dbgS (regBytes dbgS f_DBG_RESP_V 64) = 1 := by decide +kernel
theorem witness_Debug_refused : dbgCheck dbgS (List.replicate 256 0) = 2 ∧ dbgCheck dbgS (putAt dbgR 0 [1]) = 3 ∧ dbgCheck dbgS (putAt dbgR 112 (List.replicate 48 0)) = 4 := by decide +kernel
/-- The port is unlocked for turnout 3 and cell 5, which is claimed and halted. -/
def unlS : State :=
  let s := wr (wr (at5 (fun x => { x with k := { x.k with run := .debug }, dbg := { x.dbg with claimed := true } })) f_DBG_CTL_STATE 2) (f_DBG_SCOPE_V 0) 8
  setReg { s with dbg := { s.dbg with sel := 5, until_ := 10 } } f_RST_REACH_LEVEL.key (2 ^ 61)
theorem witness_Debug_commands : (let t := tapIr unlS 0x11
    dbgOpen t = true ∧ cellInScope t 5 = true ∧ (cellOf t 5).dbg.claimed = true ∧ (cellOf t 5).k.run = .debug ∧ sourceLevel t 15 = 2 ∧
    rdReg t 5 (cellOf t 5) 0x20 = some 0x100 ∧ rdReg t 5 (cellOf t 5) 0xFFF = none ∧ (wrReg t (cellOf t 5) 0x1F 7).isSome = true ∧ wrReg t (cellOf t 5) 0x21 7 = none ∧
    (0x100FFFF8#32).toNat % 8 = 0 ∧ (match (dbgLoad t 5 0x100FFFF8).1 with | .ok _ => true | .error _ => false) = true ∧
    (match (dbgLoad t 5 0xFFFFFFF8).1 with | .error .denied => true | _ => false) = true ∧ (dbgStore t 5 0xFFFFFFF8 (natLE 8 7)).1 = false ∧
    dbgBusy t = false ∧ dbgBusy { t with dbg := { t.dbg with status := 1 } } = true ∧ (dbgStore t 5 0x100FFFF8 (natLE 8 7)).1 = true ∧ (cellOf on 5).dbg.claimed = false) := by
  decide +kernel
/-- The other levels of the debug source, for a turnout that owns the whole unit; a cell that runs. -/
theorem witness_Debug_levels : (let t (l : Nat) : State := setReg (List.range 16 |>.foldl (fun s i => setCell s i (cellOf unlS 5)) unlS) f_RST_REACH_LEVEL.key (BitVec.ofNat 64 (l * 2 ^ 60))
    sourceLevel (t 3) 15 = 3 ∧ sourceLevel (t 4) 15 = 4 ∧ sourceLevel (t 6) 15 = 6 ∧
    (List.range 4).all (fun i => cellInScope (t 3) (5 / 4 * 4 + i)) = true ∧ (List.range 16).all (fun i => cellInScope (t 4) (5 / 16 * 16 + i)) = true ∧
    (liveTurns (t 6)).all (turnInScope (t 6)) = true ∧ (cellOf (modCell unlS 5 (fun x => { x with k := { x.k with run := .running } })) 5).k.run ≠ .debug) := by
  decide +kernel
theorem witness_Debug_times : rd unlS f_DBG_CTL_STATE = 2 ∧ unlS.dbg.until_ ≤ { unlS with clk := 10 }.clk ∧ rd (wr on f_DBG_CTL_STATE 1) f_DBG_CTL_STATE = 1 ∧
    dbgS.dbg.nonceAt ≠ 0 ∧ dbgS.dbg.nonceAt - 1 + 60000000000 < { dbgS with clk := 60000000001 }.clk ∧ dbgCheck { dbgS with clk := 60000000001 } [] = 5 ∧ rd on f_DBG_CTL_STATE ≠ 2 ∧
    [0x00, 0x01, 0x10, 0x11, 0x12].contains (0xFF#8).toNat = false := by decide +kernel
theorem witness_Debug_breakpoint : (let s := at5 (fun x => { x with dbg := { x.dbg with claimed := true, bp := [(3, 0x101)] } })
    canIssue s 5 = true ∧ fetchCheck s 5 = .bp 3) := by decide +kernel
theorem witness_PowerManagement_pins : clocksRun on = true ∧ clocksRun { on with boot := { on.boot with inRst := true } } = false ∧ on.pwr.hotSrc = 0 ∧
    rd { wr on f_PWR_STAT_PROCHOT 1 with pwr := { on.pwr with hotSrc := 24 } } f_PWR_STAT_PROCHOT = 1 ∧
    ([120, 0, 119] : List Byte).foldl (fun a b => max a b.toNat) 0 = 120 ∧ ([119] : List Byte).foldl (fun a b => max a b.toNat) 0 < 120 ∧ on.boot.powered = true := by decide +kernel
theorem witness_PowerManagement : on.pwr.silent = [] ∧ rd on f_PWR_STAT_PROCHOT = 0 ∧ rd (wr on f_PWR_STAT_PROCHOT 1) f_PWR_STAT_PROCHOT = 1 ∧ on.pwr.hot = false ∧
    rd (wr on (f_RGN_CLK_STAT_STRETCHED 15) 1) (f_RGN_CLK_STAT_STRETCHED 15) = 1 ∧ rd on (f_RGN_CLK_STAT_STRETCHED 15) ≠ 1 ∧ sget 0 on.pwr.droop 15 + 1000 ≤ { on with clk := 1000 }.clk := by
  decide +kernel
theorem witness_PowerManagement_limit : powerLimit on < 100000 ∧ (0 : Nat) ≤ powerLimit on := by
  have h : powerLimit on = envelope := by
    show (if rd on f_PWR_CAP_WATTS = 0 ∨ envelope < rd on f_PWR_CAP_WATTS then envelope else rd on f_PWR_CAP_WATTS) = envelope
    exact if_pos (Or.inl (by decide +kernel))
  rw [h]
  unfold envelope
  split <;> decide
theorem witness_Sidebands : on.boot.inRst = false ∧ on.boot.powered = true ∧ rd on f_GEN_STATE_STATE ≠ 0 ∧ afterBoot on = true ∧ afterBoot State.reset = false ∧
    compStopped on 6 = false ∧ compStopped { on with boot := { on.boot with comps := [(6, ⟨[], true⟩)] } } 6 = true ∧ on.boot.activating = false ∧ on.side.queue.length < 16 ∧
    16 ≤ (List.replicate 16 SideReq.pldmEvent).length ∧ fwServes on = true ∧ on.side.i2cFails = 0 ∧ sget 0 on.side.clear 1 = 0 ∧ healthy on = true ∧
    healthy { on with boot := { on.boot with powered := false } } = false ∧ on.side.healthAt = 0 ∧ clocksRun on = true ∧ drivenPin 29 = true ∧
    { on.side with i2cFails := 1, i2cRetry := 1000000 }.i2cRetry ≤ { on with clk := 1000000 }.clk ∧ pullBus 23 = some 2 ∧ drivenPin 46 = true := by decide +kernel
theorem witness_OutsideAccesses_bar : (fnOf on fnPF0).d3 = false ∧ fwLoaded on = true ∧ fwLoaded State.reset = false ∧ (0x1FFFF#64).toNat % 2 ^ 16 ≠ 0 ∧ (0x10000#64).toNat % 2 ^ 16 = 0 ∧
    (1#26).toNat % 4 ≠ 0 ∧ (0 : Nat) < 2 ^ bar4Bits on ∧ (fnOf (modFn on 512 (fun f => { f with d3 := true })) fnPF0).d3 = true ∧
    (hbmAccess (wr on (f_TRN_EXT_OWNER 0) 0x201) (bar4Addr on 0) (.write [1, 2])).1.isSome = true := by decide +kernel
theorem witness_OutsideAccesses_p2p : (let s := modDp (modDp (wr upS f_HEP_TOPO_ASSIGN 0x4001) 7 (fun d => { d with active := true })) 0 (fun d => { d with active := true })
    dpUp s 7 = some 0 ∧ dpUp s 0 = some 0 ∧ (dpOf s 7).active = true ∧ (dpOf s 0).active = true ∧ dpUp s 1 ≠ some 0 ∧ (upOf s 0).link = true) := by decide +kernel
/-- Downstream port 7's ACS Control: Source Validation with no bus below it, and P2P Request Redirect. -/
theorem witness_OutsideAccesses_acs : (let s (v : Nat) := modFn (wr upS f_HEP_TOPO_ASSIGN 0x4001) 1039 (fun f => { f with acs := v, bus := 0x050500 })
    acsViolation (s 1) 7 0x600 0 = true ∧ acsViolation (s 1) 7 0x500 0 = false ∧ acsViolation (s 2) 7 0x500 1 = true ∧ acsRedirect (s 4) 7 0 = true ∧
    acsRedirect (s 0x44) 7 2 = false ∧ acsRedirect (s 0) 7 0 = false ∧ srcAnswers (s 0) .pf0 = true ∧ portOfSrc (s 0) .pf0 = 0 ∧ srcAnswers (s 0) .firmware = false ∧
    rd (s 0) f_HEP_TOPO_MGR_UP = 0) := by decide +kernel
/-- Bus numbers 1 to 5 lie below upstream port 0, whose secondary bus is 1, 2 to 4 below the internal port, and 5 below downstream
port 0, which is active. -/
def busS : State :=
  let s := modDp (modFn (modFn (wr { upS with pcie := { upS.pcie with slots := [(0, { Slot.reset with pwrEn := true, good := true, goodAt := 1 })] } } f_HEP_TOPO_ASSIGN 1)
    1024 (fun f => { f with bus := 0x050100 })) (intFn 0) (fun f => { f with bus := 0x040201 })) 0 (fun d => { d with active := true })
  modFn s 1032 (fun f => { f with bus := 0x050501 })
theorem witness_OutsideAccesses_config : (upOf busS 0).link = true ∧ cfgTarget busS 0 ⟨true, 0, 0⟩ = some .upSwitch ∧ cfgTarget busS 0 ⟨true, 0, 8⟩ = none ∧
    cfgTarget busS 0 ⟨false, 6, 0⟩ = none ∧ cfgTarget busS 0 ⟨false, 1, 0x40⟩ = some .intPort ∧ cfgTarget busS 0 ⟨false, 2, 0⟩ = some (.fn 512) ∧
    cfgTarget busS 0 ⟨false, 5, 0⟩ = some (.below 0) ∧ (dpOf busS 0).active = true ∧ cfgRetry busS 0 .upSwitch = false ∧ cfgRetry busS 0 (.fn 512) = false ∧
    cfgRetry { busS with pcie := { busS.pcie with ups := [(0, { upLive true 256 with readyAt := 5 })] } } 0 (.fn 512) = true := by decide +kernel

/-! ### The smoke of well-formedness: an ill-formed term for each check, and a well-formed one -/

theorem test_wf_refuses_accesses :
    (Instr.registerWrite .pf0 2 false 0).wf = false ∧ (Instr.registerWrite .pf0 4 true 0).wf = false ∧ (Instr.registerWrite (.vf 3) 0x10000 false 0).wf = false ∧
    (Instr.bar4Access 0 (.read 0)).wf = false ∧ (Instr.p2pRequest 0 ⟨.up, 0, 0⟩ (.write [])).wf = false ∧ (Instr.pcieCompletion 0 0 0 false (List.replicate 4097 0)).wf = false ∧
    (Instr.registerWrite .pf0 0x3FFFFF8 true 0).wf = true := by decide +kernel
theorem test_wf_refuses_packets : (let p : Packet := ⟨0, 0, 3, 0, 0, 0, 0, 8, List.replicate 8 0, 0, 0, 0⟩
    (Instr.flumeMsg p ⟨0, 0⟩).wf = false ∧ (Instr.flumeRdReq p ⟨0, 0⟩).wf = false ∧ (Instr.flumeWr { p with dest := 4096 } ⟨0, 0⟩).wf = false ∧ (Instr.flumeRdRsp p ⟨0, 0⟩).wf = false ∧
    (Instr.flumeWrAck (p, ⟨0, 0⟩)).wf = false ∧ (Instr.mergeAdd 0 0 []).wf = false ∧ (Instr.flumeWr p ⟨0, 0⟩).wf = true) := by decide +kernel
theorem test_wf_refuses_units : (Instr.cellStart 0 (List.replicate 0x8001 0)).wf = false ∧ (Instr.translationWalk 0 0 0 false .remote 0).wf = false ∧
    (Instr.trnRestore 0 0 ⟨512, 0, 0, false, [], [], [], [], []⟩).wf = false ∧ (Instr.storeTargetCompletion 0 0 0 [0]).wf = false ∧
    (Instr.cellStart 0 [0]).wf = true := by decide +kernel
theorem test_wf_refuses_links : (Instr.trainingComplete 0 ⟨0, 0⟩ false false 0 [] 0 0).wf = false ∧ (Instr.alignmentMarker 0 0 0 []).wf = false ∧ (Instr.dataFrame ⟨0, 0⟩ [0]).wf = false ∧
    (Instr.ctrlFrame 0 []).wf = false ∧ (Instr.sleepFrame 0 [0]).wf = false ∧ (Instr.idleSlot 0 []).wf = false ∧ (Instr.ethFrameArrival 0 []).wf = false ∧
    (Instr.ethFrameArrival 0 (List.replicate 63 0)).wf = false ∧ (Instr.timeFrame ⟨0, false, 0, []⟩ none 0).wf = false ∧
    (Instr.barrierArriveFrame ⟨0, false, 0, []⟩ 0 0).wf = false ∧ (Instr.barrierReleaseFrame ⟨0, false, 0, []⟩ 0 0 0).wf = false ∧
    (Instr.pfcFrame 0 0 []).wf = false ∧ (Instr.idleSlot 0 (List.replicate 64 0)).wf = true := by decide +kernel
theorem test_wf_refuses_startup : (Instr.fuseSenseDone 0 ⟨[], false⟩ FuseKey.none FuseKey.none FuseKey.none 0 false [0, 0, 0, 0, 0] []).wf = false ∧
    (Instr.optionFetchDone true [] []).wf = false ∧ (Instr.bypass 0x10).wf = false ∧ (Instr.powerMeasurement [(0, 1), (0, 2)]).wf = false ∧ (Instr.thermalSensorRead []).wf = false ∧
    (Instr.bypass 0xFF).wf = true := by decide +kernel

/-! ### Single commands and operations, against results worked out from the rules -/

/-- A register of cell 5 after a command on `core5 f`. -/
def gAfter (f : KCore → KCore) (i : Instr) (r : BitVec 5) : Nat := (gReg (coreOf (nextOf (exec i (core5 f))) 5) r).toNat
/-- FLAGS of cell 5 after it. -/
def flagsAfter (f : KCore → KCore) (i : Instr) : BitVec 4 := (coreOf (nextOf (exec i (core5 f))) 5).flags
/-- Cell 5 with g1 and g2. -/
def two (a b : Word) (k : KCore) : KCore := { k with g := [(1, a), (2, b)] }

-- R103: FFFFFFFFh + 1 wraps to 0 with Z and C; 7FFFFFFFh + 1 sets N and V; NZCV is [3:0]
theorem test_add_wraps : gAfter (two 0xFFFFFFFF 1) (.add 5 3 1 2) 3 = 0 ∧ flagsAfter (two 0xFFFFFFFF 1) (.add 5 3 1 2) = 0b0110#4 := by decide +kernel
theorem test_add_overflows : flagsAfter (two 0x7FFFFFFF 1) (.add 5 3 1 2) = 0b1001#4 ∧ gAfter (two 5 6) (.add 5 0 1 2) 0 = 0 := by decide +kernel
-- R103: 1 − 2 borrows, so C = 0
theorem test_sub_borrows : gAfter (two 1 2) (.sub 5 1 1 2) 1 = 0xFFFFFFFF ∧ flagsAfter (two 1 2) (.sub 5 1 1 2) = 0b1000#4 := by decide +kernel
-- R100: −1 × −1 is 1, whose signed high half is 0; unsigned it is FFFFFFFEh
theorem test_mulh_signs : gAfter (two 0xFFFFFFFF 0xFFFFFFFF) (.mulh 5 3 1 2) 3 = 0 ∧ gAfter (two 0xFFFFFFFF 0xFFFFFFFF) (.mulhu 5 3 1 2) 3 = 0xFFFFFFFE := by decide +kernel
-- R105: a shift amount is rs2[4:0]; an arithmetic shift copies the sign
theorem test_shifts : gAfter (two 0x80000000 33) (.sra 5 3 1 2) 3 = 0xC0000000 ∧ gAfter (two 1 33) (.sll 5 3 1 2) 3 = 2 ∧ gAfter (two 1 33) (.ror 5 3 1 2) 3 = 0x80000000 := by
  decide +kernel
-- R105: division by zero gives FFFFFFFFh; 80000000h / −1 gives 80000000h, with remainder 0
theorem test_division_corners : divS 7 0 = 0xFFFFFFFF#32 ∧ divS 0x80000000 0xFFFFFFFF = 0x80000000#32 ∧ remS 0x80000000 0xFFFFFFFF = 0#32 ∧
    remS 0xFFFFFFF9 2 = 0xFFFFFFFF#32 ∧ remU 7 0 = 7#32 := by decide +kernel
-- R97, R121: SYSCALL saves the address after it, with cause 0 in CAUSE and the vector in pc
theorem test_syscall : (coreOf (nextOf (exec (.syscall 5 9) (core5 id))) 5).pc = 0x40 ∧ (coreOf (nextOf (exec (.syscall 5 9) (core5 id))) 5).status.getLsbD 0 = true := by
  decide +kernel
-- R65: scratch is little-endian; LB extends the sign
theorem test_load_sign : (let s := storeBytes (core5 id) (scrPA 5 0x10000000) [0x80, 1, 2, 3] false
    gReg (coreOf (nextOf (exec (.lb 5 8 5 0) s)) 5) 8 = 0xFFFFFF80#32 ∧ gReg (coreOf (nextOf (exec (.lw 5 8 5 0) s)) 5) 8 = 0x03020180#32) := by decide +kernel
-- R9: CQS_CFG.TMO takes its field, the reserved value 0 is ignored
theorem test_register_write : rd (nextOf (exec (.registerWrite .pf0 0xE00000 false 0x1234) on)) f_CQS_CFG_TMO = 0x1234 ∧
    rd (nextOf (exec (.registerWrite .pf0 0xE00000 false 0) on)) f_CQS_CFG_TMO = rd on f_CQS_CFG_TMO := by decide +kernel
-- R28's worked example: 5.0 lies midway between 4 and 6 in FP4-E2M1, and rounds to 4, code 6h, inexact
theorem test_fp4_tie : (convert .e2m1 .rne (valOf .fp32 0x40A00000)).1 = 6 ∧ (convert .e2m1 .rne (valOf .fp32 0x40A00000)).2 ≠ 0 := by decide +kernel
-- R32's worked example: 0.3 gives 1Ch in LP8
theorem test_lp8 : (convert .lp8 .rne (valOf .fp32 0x3E99999A)).1 = 0x1C := by decide +kernel
/-- 2^30 + 1 and −2^30 + 1 of the worked example of R45. -/
def accA : Acc := (Acc.zero.addVal (valOf .bf16 0x4E80)).addVal (valOf .bf16 0x3F80)
def accB : Acc := (Acc.zero.addVal (valOf .bf16 0xCE80)).addVal (valOf .bf16 0x3F80)
-- the worked example of R45: the records of the two partial sums, and their sum 2 rounded to BF16
theorem test_lax_record : accA.toLAX = [0, 4, 2, 0, 0, 0, 0, 0] ++ natLE 8 0x0000100000000000 ++ natLE 8 0x400 ∧
    accB.toLAX = [0, 4, 2, 0, 0, 0, 0, 0] ++ natLE 8 0x0000100000000000 ++ natLE 8 0xFFFFFFFFFFFFFC00 := by decide +kernel
theorem test_lax_merge : (accA.merge accB).toLAX = [0, 4, 1, 0, 0, 0, 0, 0] ++ natLE 8 0x0000200000000000 ∧ ((accA.merge accB).round .bf16 .rne).1 = 0x4000 ∧
    ((accA.merge accB).round .bf16 .rne).2 = 0 := by decide +kernel
-- the encodings that R138 and R194 work out
theorem test_kiben_words : kDecode 0xE36C0003#32 = .ok (.cp0 (.tmma 3 3 3 0)) ∧ kDecode 0xE8070051#32 = .ok (.cp2 (.swait 7 5)) := by decide +kernel
-- the check values of the two CRCs over "123456789"
theorem test_crcs : (let l : List Byte := [0x31, 0x32, 0x33, 0x34, 0x35, 0x36, 0x37, 0x38, 0x39]
    crc32 l = 0xCBF43926 ∧ crc32c l = 0xE3069283) := by decide +kernel
-- FIPS 197, appendix C.3, and FIPS 180's digest of "abc"
theorem test_aes : aesEnc ((List.range 32).map (BitVec.ofNat 8)) (natBE 16 0x00112233445566778899aabbccddeeff) = natBE 16 0x8ea2b7ca516745bfeafc49904b496089 := by decide +kernel
theorem test_sha256 : sha256 [0x61, 0x62, 0x63] = natBE 32 0xba7816bf8f01cfea414140de5dae2223b00361a396177a9cb410ff61f20015ad := by decide +kernel

end Sys2Proof.Tests
end

section
/-! What a step does with the queue (O1). -/

namespace Sys2Proof.Machine

/-- A command that waits is taken before time passes. -/
theorem step_of_pending_cons {s : State} {c : Instr} {q : List Instr} (h : s.pending = c :: q) :
    step s = exec c { s with pending := q } := by simp only [step, h]

/-- With no command waiting, time passes and the queue stays. -/
theorem step_of_pending_nil {s : State} (h : s.pending = []) : step s = .next (withQueue s (tick s)) := by
  simp only [step, h, keepQueue_of_next]

/-- Where no clock runs, nothing but time moves. -/
theorem tick_of_clocks_stopped {s : State} (h : clocksRun s = false) : tick s = { s with clk := s.clk + 1 } := by
  have h' : clocksRun { s with clk := s.clk + 1 } = false := h
  simp [tick, h']

/-- Settles O1: the two branches of `step`, with the tick of a machine whose clocks stand. -/
theorem queueFront : Obligations.QueueFront := by
  unfold Obligations.QueueFront
  refine ⟨fun s c q h => step_of_pending_cons h, fun s hq hc => ?_⟩
  rw [step_of_pending_nil hq, tick_of_clocks_stopped hc]
  rfl

end Sys2Proof.Machine
end

section
/-! The service of a turnout command and of the management channel (O36). -/

namespace Sys2Proof.Machine

/-- A field written leaves the queue. -/
theorem withQueue_wr (s : State) (f : Fld) (v : Nat) : withQueue s (wr s f v) = wr s f v := rfl

/-! ### The commands (R385–R390) -/

/-- What it takes to come late: a row that may end with BUSY, not started, and its 10 ms over (R385, R12). -/
theorem cmdLate10_iff {s : State} {c : TCmd} :
    cmdLate10 s c = true ↔ (c.op = 1 ∨ c.op = 4 ∨ c.op = 5) ∧ c.step = 0 ∧ c.at_ + 10_000_000 < s.clk := by
  simp [cmdLate10, overdue, or_assoc, and_assoc]

/-- A command that comes too late while the firmware serves ends with BUSY. -/
theorem exec_turnoutCommandBusy_late {s : State} {c : TCmd} (hc : s.trn.cmd = some c) (hf : fwServes s = true)
    (hl : cmdLate10 s c = true) : exec .turnoutCommandBusy s = .next (withQueue s (cmdDone s stBusy)) := by
  change execTurnoutCommandBusy s = _
  simp [execTurnoutCommandBusy, hc, hl, hf]

/-- A block that can be read is given to the command; the answers that its reading needed are used up. -/
theorem withBlock_of_read {s s1 : State} {b : List Byte}
    (h : runMM s (physRead (ioFor .firmware) 0x201 (rd s f_TRN_CMD_ADDR_ADDR * 64) 256) = (.ok b, s1)) (k : List Byte → State → State) :
    withBlock s k = k b (dropAsks s1 (fun w => decide (w = .firmware))) := by simp only [withBlock, h]

/-- The command `c` in progress is served: the firmware and its component run, `c` is in time, and its block reads as `b`, on which
it acts in the state `u`. -/
structure CmdServed (s u : State) (b : List Byte) (c : TCmd) : Prop where
  cmd : s.trn.cmd = some c
  serves : fwServes s = true
  inTime : cmdLate10 s c = false
  compRuns : compStopped s (opComp c.op) = false
  block : ∀ k, withBlock s k = k b u

section
variable {s u : State} {b : List Byte} {c : TCmd} (h : CmdServed s u b c)
include h

/-- A row of the command's OP runs its body. -/
theorem CmdServed.serve_eq {op : Nat} (hop : c.op = op) (k : TCmd → State) : serve s op k = .next (k c) := by
  subst hop
  simp [serve, h.cmd, h.serves, h.inTime, h.compRuns]

/-- CREATE ends with the status of its checks, and takes effect where that is SUCCESS. -/
theorem CmdServed.exec_create (hop : c.op = 1) : exec .turnoutCreate s = .next (withQueue s
    (if createCheck u b = 0 then cmdDone (createTurnout u b) 0
      else cmdDone u (createCheck u b))) := by
  change execTurnoutCreate s = _
  rw [execTurnoutCreate, h.serve_eq hop, h.block, keepQueue_of_next]
  rfl

/-- RESET of a turnout that the block names: INVALID_FIELD unless it is ACTIVE. -/
theorem CmdServed.exec_reset (hop : c.op = 3) (hstep : c.step ≠ 1) {t : Nat} (ht : blockTurnout b = some t) :
    exec .turnoutReset s = .next (withQueue s (if turnActive u t = true then
      resetRest (abortOwner (abortSave (freezeOwner (setTurn u t 3) t) t) t) t else cmdDone u 1)) := by
  change execTurnoutReset s = _
  rw [execTurnoutReset, h.serve_eq hop, if_neg hstep, h.block, keepQueue_of_next]
  cases ha : turnActive u t <;> simp [ht, ha, stField]

/-- DESTROY of a turnout that the block names: INVALID_FIELD where it is FREE. -/
theorem CmdServed.exec_destroy (hop : c.op = 2) (hstep : c.step ≠ 1) {t : Nat} (ht : blockTurnout b = some t) :
    exec .turnoutDestroy s = .next (withQueue s (if turnState u t = 0 then cmdDone u 1 else
      destroyRest (abortOwner (abortSave (freezeOwner (setTurn u t 4) t) t) t) t)) := by
  change execTurnoutDestroy s = _
  rw [execTurnoutDestroy, h.serve_eq hop, if_neg hstep, h.block, keepQueue_of_next]
  simp only [ht, stField]

/-- KEY_LOAD ends with the status of its checks, its key zeroed either way; the slot is written where that is SUCCESS. -/
theorem CmdServed.exec_keyLoad (hop : c.op = 4) : exec .keyLoad s = .next (withQueue s (cmdDone (zeroKey
    (if keyLoadCheck u b = 0 then
      writeSlot u (le b 2 2) (le b 4 1) (le b 0 2) ((b.drop 8).take (keyLen (le b 4 1)))
      else u)) (keyLoadCheck u b))) := by
  change execKeyLoad s = _
  rw [execKeyLoad, h.serve_eq hop, h.block, keepQueue_of_next]
  rfl

/-- KEY_FREE of a valid slot that no fetched request has bound releases it. -/
theorem CmdServed.exec_keyFree (hop : c.op = 5) (hslot : le b 2 2 < 8192) (hty : (keySlotOf u (le b 2 2)).ty ≠ 0)
    (hfree : keyBound u (le b 2 2) = false) :
    exec .keyFree s = .next (withQueue s (cmdDone (releaseSlot u (le b 2 2)) 0)) := by
  change execKeyFree s = _
  rw [execKeyFree, h.serve_eq hop, h.block, keepQueue_of_next]
  have hbad : ¬ (8192 ≤ le b 2 2 ∨ (keySlotOf u (le b 2 2)).ty = 0) := by
    rintro (h1 | h1)
    · omega
    · exact hty h1
  simp only [if_neg hbad, hfree, Bool.false_eq_true, if_false, stOk]

end

/-- A RESET whose turnout has no entry left resets and starts its cells and ends with SUCCESS (R389). -/
theorem resetRest_idle {u : State} {t : Nat} (h : inFlight u t = false) :
    resetRest u t = cmdDone (setTurn ((cellsOf u t).foldl (fun s c => startCell (claimCell s c t) c) u) t 2) 0 := by
  simp [resetRest, h, stOk]

/-- A DESTROY whose turnout has no entry left takes steps 3–8 and ends with SUCCESS (R390). -/
theorem destroyRest_idle {u : State} {t : Nat} (h : inFlight u t = false) :
    destroyRest u t = cmdDone (destroyEnd (destroyScrubs (destroyUnits (destroyThings u t) t) t) t) 0 := by
  simp [destroyRest, h, stOk]

/-! ### The management channel (R393) -/

theorem piOk_iff {s : State} {pi ci v : BitVec 16} :
    piOk s pi ci v = true ↔ 0 < (v - pi).toNat ∧ (v - ci).toNat ≤ chanDepth s := by
  simp only [piOk, Bool.and_eq_true, decide_eq_true_eq]

theorem ciOk_iff {pi ci v : BitVec 16} :
    ciOk pi ci v = true ↔ 0 < (v - ci).toNat ∧ (v - ci).toNat ≤ (pi - ci).toNat := by
  simp only [ciOk, Bool.and_eq_true, decide_eq_true_eq]

section
variable {s : State} {t : Fin 512} (v : BitVec 16) (ha : turnActive s t = true)
include ha

/-- The tenant's up PI: a value that is accepted sets the pending bit and signals the manager. -/
theorem exec_channelUpPi (hv : vfBar s t = true) : exec (.channelUpPi t v) s =
    if piOk s (rd16 s (f_TRN_CHAN_UP_PI t)) (rd16 s (f_TRN_CHAN_UP_CI t)) v = true then
      let a := wr s (f_TRN_CHAN_UP_PI t) v.toNat
      let b := wr a (f_TRN_CHAN_PEND_V (t / 32)) (rd a (f_TRN_CHAN_PEND_V (t / 32)) ||| 2 ^ (t.val % 32))
      .next (withQueue s (msix b fnPF0 (rd b f_TRN_CFG_VEC)))
    else .next s := by
  change execChannelUpPi t v s = _
  cases hp : piOk s (rd16 s (f_TRN_CHAN_UP_PI t)) (rd16 s (f_TRN_CHAN_UP_CI t)) v <;> simp [execChannelUpPi, hv, ha, hp]

/-- The tenant's down CI. -/
theorem exec_channelDnCi (hv : vfBar s t = true) : exec (.channelDnCi t v) s =
    if ciOk (rd16 s (f_TRN_CHAN_DN_PI t)) (rd16 s (f_TRN_CHAN_DN_CI t)) v = true then .next (wr s (f_TRN_CHAN_DN_CI t) v.toNat)
    else .next s := by
  change execChannelDnCi t v s = _
  cases hp : ciOk (rd16 s (f_TRN_CHAN_DN_PI t)) (rd16 s (f_TRN_CHAN_DN_CI t)) v <;>
    simp [execChannelDnCi, hv, ha, hp, withQueue_wr]

/-- The manager's up CI. -/
theorem exec_channelUpCi (hb : barOpen s = true) : exec (.channelUpCi t v) s =
    if ciOk (rd16 s (f_TRN_CHAN_UP_PI t)) (rd16 s (f_TRN_CHAN_UP_CI t)) v = true then .next (wr s (f_TRN_CHAN_UP_CI t) v.toNat)
    else .next s := by
  change execChannelUpCi t v s = _
  cases hp : ciOk (rd16 s (f_TRN_CHAN_UP_PI t)) (rd16 s (f_TRN_CHAN_UP_CI t)) v <;>
    simp [execChannelUpCi, hb, ha, hp, withQueue_wr]

/-- The manager's down PI: a value that is accepted signals the tenant. -/
theorem exec_channelDnPi (hb : barOpen s = true) : exec (.channelDnPi t v) s =
    if piOk s (rd16 s (f_TRN_CHAN_DN_PI t)) (rd16 s (f_TRN_CHAN_DN_CI t)) v = true then
      .next (withQueue s (msix (wr s (f_TRN_CHAN_DN_PI t) v.toNat) t 0))
    else .next s := by
  change execChannelDnPi t v s = _
  cases hp : piOk s (rd16 s (f_TRN_CHAN_DN_PI t)) (rd16 s (f_TRN_CHAN_DN_CI t)) v <;> simp [execChannelDnPi, hb, ha, hp]

end

/-- Settles O36: a command that is served acts on its block as its row says, and a channel index is taken exactly where it moves
forward within its ring. -/
theorem turnouts : Obligations.Turnouts := by
  unfold Obligations.Turnouts
  refine ⟨fun s s1 b c hc hf => ⟨fun hl => exec_turnoutCommandBusy_late hc hf (cmdLate10_iff.2 hl), fun hl hs hb => ?commands⟩,
    fun s t v ha => ⟨fun hv => ?tenant, fun hb => ?manager⟩⟩
  case commands =>
    have h : CmdServed s (dropAsks s1 (fun w => decide (w = .firmware))) b c :=
      ⟨hc, hf, Bool.eq_false_iff.2 (mt cmdLate10_iff.1 hl), hs, withBlock_of_read hb⟩
    dsimp only
    refine ⟨fun hop => ?create, fun hop hstep t ht => ?reset, fun hop hstep t ht => ?destroy, fun hop => ?keyLoad, h.exec_keyFree⟩
    case create =>
      rw [h.exec_create hop]
      exact ⟨fun hk => by rw [if_pos hk], fun hk => by rw [if_neg hk]⟩
    case reset =>
      rw [h.exec_reset hop hstep ht]
      exact ⟨fun ha => by rw [if_neg (Bool.eq_false_iff.1 ha)], fun ha hi => by rw [if_pos ha, resetRest_idle hi]⟩
    case destroy =>
      rw [h.exec_destroy hop hstep ht]
      exact ⟨fun ha => by rw [if_pos ha], fun ha hi => by rw [if_neg ha, destroyRest_idle hi]⟩
    case keyLoad =>
      rw [h.exec_keyLoad hop]
      exact ⟨fun hk => by rw [if_pos hk, hk], fun hk => by rw [if_neg hk]⟩
  case tenant =>
    rw [exec_channelUpPi v ha hv, exec_channelDnCi v ha hv]
    exact ⟨⟨fun ok => if_pos (piOk_iff.2 ok), fun no => if_neg (mt piOk_iff.1 no)⟩,
      fun ok => if_pos (ciOk_iff.2 ok), fun no => if_neg (mt ciOk_iff.1 no)⟩
  case manager =>
    rw [exec_channelUpCi v ha hb, exec_channelDnPi v ha hb]
    exact ⟨⟨fun ok => if_pos (ciOk_iff.2 ok), fun no => if_neg (mt ciOk_iff.1 no)⟩,
      fun ok => if_pos (piOk_iff.2 ok), fun no => if_neg (mt piOk_iff.1 no)⟩

end Sys2Proof.Machine
end

section
/-! Register writes, requests in BAR4, peer-to-peer and configuration requests (O60). -/

namespace Sys2Proof.Machine

/-- A message sent leaves the queue. -/
theorem withQueue_emit (s : State) (o : Out) : withQueue s (emit s o) = emit s o := rfl

/-! ### Register writes (R8, R9, R465) -/

theorem exec_registerWrite (src : RegSrc) (off : BitVec 26) (wide : Bool) (v : DWord) (s : State) :
    exec (.registerWrite src off wide v) s = .next (withQueue s (barWrite s src off.toNat wide v)) := rfl

/-- A write that is not at a multiple of 4 changes nothing in any BAR0. -/
theorem barWrite_unaligned {s : State} {off : Nat} (h : off % 4 ≠ 0) (src : RegSrc) (wide : Bool) (v : DWord) :
    barWrite s src off wide v = s := by
  cases src <;> simp [barWrite, bar0Write, vfBar0Write, compWrite, h]

/-- A write of 4 bytes at a multiple of 4 is one of a dword. -/
theorem bar0Write_dword {s : State} {off : Nat} (h : off % 4 = 0) (fw : Bool) (v : DWord) :
    bar0Write s fw off false v = bar0Word s fw off 4 (v &&& 0xFFFFFFFF#64) := by
  simp [bar0Write, h]

/-- The row of CQS_CFG.TMO in the register table. -/
def cqsTmoRow : FieldRow := ⟨15, 0, .rw, 0x1F40, .chip, some (1, 65535)⟩

/-- The row of CQS_CFG. -/
def cqsCfgRow : RegRow := ⟨"CQS_CFG", 0xE00000, [], 4, [cqsTmoRow]⟩

theorem regAt_cqsCfg : regAt 0xE00000 = some cqsCfgRow := by decide +kernel

/-- The low bits that a write replaces in a register are those of the value written. -/
theorem bits_setBits_low (r v : Nat) {n m : Nat} (h : n ≤ m) : bits (setBits r m 0 v) n 0 = v % 2 ^ (n + 1) := by
  have hd : 2 ^ (n + 1) ∣ 2 ^ (m + 1) := Nat.pow_dvd_pow 2 (by omega)
  have hr : r - r % 2 ^ (m + 1) = 2 ^ (m + 1) * (r / 2 ^ (m + 1)) := by
    have := Nat.mod_add_div r (2 ^ (m + 1))
    omega
  simp only [bits, setBits, Nat.shiftRight_zero, Nat.shiftLeft_zero, Nat.sub_zero, hr]
  rw [Nat.add_mod, Nat.mod_eq_zero_of_dvd (Nat.dvd_trans hd (Nat.dvd_mul_right _ _)), Nat.zero_add, Nat.mod_mod, Nat.mod_mod_of_dvd _ hd]

/-- TMO takes its field's bits; the reserved value 0 is ignored and noted (R9). -/
theorem writeField_cqsTmo (s : State) (raw : Nat) : writeField cqsCfgRow 0xE00000 raw s cqsTmoRow =
    if bits raw 15 0 = 0 then writeIgnored s else wr s f_CQS_CFG_TMO (bits raw 15 0) := by
  have hrow : fieldHasRow cqsCfgRow cqsTmoRow = false := by decide
  have hlt : bits raw 15 0 < 65536 := Nat.mod_lt _ (by decide)
  have hres : fieldReserved cqsTmoRow (bits raw 15 0) = decide (bits raw 15 0 = 0) := by
    simp only [fieldReserved, cqsTmoRow, ← Bool.decide_or, decide_eq_decide]
    omega
  simp only [writeField, hrow, Bool.false_eq_true, if_false]
  simp only [cqsTmoRow] at hres ⊢
  simp only [hres, decide_eq_true_eq, f_CQS_CFG_TMO]

/-- A dword written to CQS_CFG is a write of TMO alone: the offset belongs to no barrier, gate list, command or other register with
a rule of its own, so that nothing blocks the write and nothing follows it. -/
theorem regWrite_cqsCfg_eq_writeField (s : State) (fw : Bool) (v : Nat) : regWrite s fw cqsCfgRow 0xE00000 0 31 v =
    writeField cqsCfgRow 0xE00000 (setBits (regv s 0xE00000).toNat 31 0 v) s cqsTmoRow := rfl

theorem regWrite_cqsCfg (s : State) (fw : Bool) (v : Nat) : regWrite s fw cqsCfgRow 0xE00000 0 31 v =
    if v % 2 ^ 16 = 0 then writeIgnored s else wr s f_CQS_CFG_TMO (v % 2 ^ 16) := by
  rw [regWrite_cqsCfg_eq_writeField, writeField_cqsTmo, bits_setBits_low _ v (by omega)]

/-- A dword of PF0's BAR0 at CQS_CFG: nothing before the firmware is loaded, else the register's write. -/
theorem barWrite_cqsCfg {s : State} (h3 : (fnOf s fnPF0).d3 = false) (v : DWord) : barWrite s .pf0 0xE00000 false v =
    if fwLoaded s = false then s
    else if v.toNat % 2 ^ 16 = 0 then writeIgnored s else wr s f_CQS_CFG_TMO (v.toNat % 2 ^ 16) := by
  have hw : bar0Word s false 0xE00000 4 (v &&& 0xFFFFFFFF#64) =
      if fwLoaded s = false then s else regWrite s false cqsCfgRow 0xE00000 0 31 (v &&& 0xFFFFFFFF#64).toNat := by
    cases hl : fwLoaded s <;> simp [bar0Word, hl, earlyBlock, regAt_cqsCfg]
  have hv : (v &&& 0xFFFFFFFF#64).toNat % 2 ^ 16 = v.toNat % 2 ^ 16 := by
    have hm : (v &&& 0xFFFFFFFF#64).toNat = v.toNat % 2 ^ 32 := Nat.and_two_pow_sub_one_eq_mod v.toNat 32
    omega
  simp only [barWrite, h3, Bool.false_eq_true, if_false]
  rw [bar0Write_dword rfl, hw, regWrite_cqsCfg, hv]

theorem exec_registerWrite_cqsCfg {s : State} (h3 : (fnOf s fnPF0).d3 = false) (v : DWord) :
    exec (.registerWrite .pf0 0xE00000 false v) s = .next (withQueue s (if fwLoaded s = false then s
      else if v.toNat % 2 ^ 16 = 0 then writeIgnored s else wr s f_CQS_CFG_TMO (v.toNat % 2 ^ 16))) := by
  rw [exec_registerWrite, show (0xE00000 : BitVec 26).toNat = 0xE00000 from rfl, barWrite_cqsCfg h3]

/-! ### The HBM window of BAR4 (R248) -/

section
variable {s : State} {off : BitVec 38} {q : MemReq}

/-- In D3hot or beyond the BAR a request is unsupported. -/
theorem exec_bar4Access_unsupported (h : (fnOf s fnPF0).d3 = true ∨ 2 ^ bar4Bits s ≤ off.toNat) :
    exec (.bar4Access off q) s = .next (emit s (.rdata 3 [])) := by
  change execBar4Access off q s = _
  have hu : ((fnOf s fnPF0).d3 || decide (2 ^ bar4Bits s ≤ off.toNat)) = true := by simpa using h
  rw [execBar4Access, bar4Do, if_pos hu, keepQueue_of_next]
  rfl

/-- Within the BAR a request is an access of HBM; what it finds decides its answer. -/
theorem exec_bar4Access_within (h3 : (fnOf s fnPF0).d3 = false) (hb : off.toNat < 2 ^ bar4Bits s) {t : State} {r : Option (List Byte)}
    (h : hbmAccess s (bar4Addr s off.toNat) q = (r, t)) : exec (.bar4Access off q) s = .next (withQueue s (match r, q with
      | none, _ => emit t (.rdata 3 [])
      | some l, .read _ => emit t (.rdata 1 l)
      | some _, .write _ => t)) := by
  change execBar4Access off q s = _
  have hu : ¬ ((fnOf s fnPF0).d3 || decide (2 ^ bar4Bits s ≤ off.toNat)) = true := by simp [h3, hb]
  rw [execBar4Access, bar4Do, if_neg hu, h, keepQueue_of_next]
  cases r <;> cases q <;> rfl

end

/-! ### Peer-to-peer requests (R250, R251) -/

section
variable {s : State} {k : Fin 16} {p : Nat} {h : P2PHead} (q : MemReq) (hp : dpUp s (k.val % 8) = some p)
  (ha : (dpOf s k).active = true)
include hp ha

/-- A request that ACS turns away is noted and unsupported. -/
theorem exec_p2pRequest_violation (hv : acsViolation s k h.rid.toNat h.at_ = true) :
    exec (.p2pRequest k h q) s = .next (withQueue s (emit (aerLog s (1032 + k) 21) (.rdata 3 []))) := by
  change execP2pRequest k h q s = _
  simp [execP2pRequest, hp, ha, hv, answerReq]

variable (hv : acsViolation s k h.rid.toNat h.at_ = false)
include hv

/-- A request for a BAR0 reaches it at its own upstream port. -/
theorem exec_p2pRequest_bar0 {src : RegSrc} {off : BitVec 26} (hd : h.dst = .bar0 src off) :
    exec (.p2pRequest k h q) s = .next (withQueue s
      (if portOfSrc s src = p ∧ srcAnswers s src = true then bar0Do s src off.toNat q else emit s (.rdata 3 []))) := by
  change execP2pRequest k h q s = _
  simp only [execP2pRequest, hp, ha, hv, hd, Bool.not_true, Bool.false_eq_true, if_false, answerReq, keepQueue_of_next]

/-- A request for BAR4 at the manager's port is one of BAR4. -/
theorem exec_p2pRequest_bar4 {off : BitVec 38} (hd : h.dst = .bar4 off) (hm : rd s f_HEP_TOPO_MGR_UP = p) :
    exec (.p2pRequest k h q) s = exec (.bar4Access off q) s := by
  change execP2pRequest k h q s = execBar4Access off q s
  simp [execP2pRequest, execBar4Access, hp, ha, hv, hd, hm]

/-- A request for a downstream port. -/
theorem exec_p2pRequest_port {j : Fin 16} (hd : h.dst = .port j) :
    exec (.p2pRequest k h q) s = .next (withQueue s (peerDo s k p j h.at_ q)) := by
  change execP2pRequest k h q s = _
  simp [execP2pRequest, hp, ha, hv, hd]

/-- A request for an address that no port below claims. -/
theorem exec_p2pRequest_up (hd : h.dst = .up) : exec (.p2pRequest k h q) s = .next (withQueue s (sendUp s p q)) := by
  change execP2pRequest k h q s = _
  simp [execP2pRequest, hp, ha, hv, hd]

end

/-- Over a link that is up a request goes on upstream. -/
theorem sendUp_linked {s : State} {p : Nat} (h : (upOf s p).link = true) (q : MemReq) :
    sendUp s p q = emit s (.tlp p 5 (reqData q)) := by simp [sendUp, h]

section
variable {s : State} {k p j at_ : Nat} (q : MemReq)

/-- A peer of another hierarchy is not reached. -/
theorem peerDo_elsewhere (hj : dpUp s (j % 8) ≠ some p) : peerDo s k p j at_ q = emit s (.rdata 3 []) := by
  simp [peerDo, hj, answerReq]

variable (hj : dpUp s (j % 8) = some p) (hk : j ≠ k)
include hj hk

/-- P2P Request Redirect sends a peer request upstream. -/
theorem peerDo_redirected (hr : acsRedirect s k at_ = true) : peerDo s k p j at_ q = sendUp s p q := by
  simp [peerDo, hj, hk, hr]

/-- A peer request that is not redirected goes direct to a link that is up. -/
theorem peerDo_direct (hr : acsRedirect s k at_ = false) (ha : (dpOf s j).active = true) :
    peerDo s k p j at_ q = emit s (.tlp (2 + j) 5 (reqData q)) := by
  simp [peerDo, hj, hk, hr, ha]

/-- A peer request to a link that is down is answered as DPC Completion Control says. -/
theorem peerDo_down (hr : acsRedirect s k at_ = false) (ha : (dpOf s j).active = false) :
    peerDo s k p j at_ q = linkDownAnswer s j := by
  simp [peerDo, hj, hk, hr, ha]

end

/-! ### Configuration requests (R242–R250, R258) -/

section
variable {s : State} {p : Fin 2} {d : CfgDst} (r : CfgReg) (hl : (upOf s p).link = true)
include hl

/-- A request that finds no target is unsupported. -/
theorem exec_configRequest_none (ht : cfgTarget s p d = none) (w : Option Word) :
    exec (.configRequest p d r w) s = .next (emit s (.rdata 3 [])) := by
  change execConfigRequest p d r w s = _
  simp [execConfigRequest, hl, ht, answerReq, withQueue_emit]

/-- A request for a device below an active link goes on to it. -/
theorem exec_configRequest_below {k : Nat} (ht : cfgTarget s p d = some (.below k)) (ha : (dpOf s k).active = true)
    (w : Option Word) : exec (.configRequest p d r w) s = .next (emit s (.tlp (2 + k) 6 (w.elim [] (fun v => natLE 4 v.toNat)))) := by
  change execConfigRequest p d r w s = _
  cases w <;> simp [execConfigRequest, hl, ht, ha, withQueue_emit]

variable {x : CfgRole} (ht : cfgTarget s p d = some x) (hx : ∀ k, x ≠ .below k)
include ht hx

/-- A function that is not ready asks for a retry. -/
theorem exec_configRequest_retry (hr : cfgRetry s p x = true) (w : Option Word) :
    exec (.configRequest p d r w) s = .next (emit s (.rdata 2 [])) := by
  change execConfigRequest p d r w s = _
  simp [execConfigRequest, hl, ht, hr, answerReq, withQueue_emit]

/-- A read answers the register's value. -/
theorem exec_configRequest_read (hr : cfgRetry s p x = false) :
    exec (.configRequest p d r none) s = .next (emit s (.rdata 1 (natLE 4 (cfgRead s p x r)))) := by
  change execConfigRequest p d r none s = _
  simp [execConfigRequest, hl, ht, hr, answerReq, withQueue_emit]

/-- A write takes effect and is acknowledged. -/
theorem exec_configRequest_write (hr : cfgRetry s p x = false) (v : Word) :
    exec (.configRequest p d r (some v)) s = .next (withQueue s (emit (cfgWrite s p x r v.toNat) (.rdata 1 []))) := by
  change execConfigRequest p d r (some v) s = _
  simp [execConfigRequest, hl, ht, hr, answerReq]

end

/-! ### The statement -/

/-- Settles O60: the rule of each kind of access, case by case. -/
theorem outsideAccesses : Obligations.OutsideAccesses := by
  unfold Obligations.OutsideAccesses
  refine ⟨fun s src off wide v => ?registerWrite, fun s v h3 => ?cqsCfg, fun s off q => ?bar4, fun s k p h q hp ha => ?peer,
    fun s p d r hl => ?config⟩
  case registerWrite =>
    refine ⟨exec_registerWrite src off wide v s, fun ho => ?_⟩
    rw [exec_registerWrite, barWrite_unaligned ho, withQueue_self]
  case cqsCfg =>
    rw [exec_registerWrite_cqsCfg h3]
    refine ⟨fun hl => ?_, fun hl hv => ?_, fun hl hv => ?_⟩
    · rw [if_pos hl, withQueue_self]
    · rw [if_neg (by simp [hl]), if_neg hv, withQueue_wr]
    · rw [if_neg (by simp [hl]), if_pos hv]
  case bar4 =>
    refine ⟨exec_bar4Access_unsupported, fun h3 hb => ⟨fun t ht => exec_bar4Access_within h3 hb ht, ?_, ?_⟩⟩
    · rintro n l t rfl ht
      exact exec_bar4Access_within h3 hb ht
    · rintro d l t rfl ht
      exact exec_bar4Access_within h3 hb ht
  case peer =>
    refine ⟨exec_p2pRequest_violation q hp ha, fun hv => ⟨fun src off hd => ?_,
      fun off hd hm => exec_p2pRequest_bar4 q hp ha hv hd hm, fun j hd => ?_, fun hd hu => ?_⟩⟩
    · rw [exec_p2pRequest_bar0 q hp ha hv hd]
      refine ⟨fun hm hs => by rw [if_pos ⟨hm, hs⟩], fun hn => ?_⟩
      have hn' : ¬ (portOfSrc s src = p ∧ srcAnswers s src = true) := by
        rintro ⟨hm, hs⟩
        rcases hn with hn | hn
        · exact hn hm
        · simp [hs] at hn
      rw [if_neg hn', withQueue_emit]
    · rw [exec_p2pRequest_port q hp ha hv hd]
      refine ⟨fun hj => ?_, fun hj hk => ?_⟩
      · rw [peerDo_elsewhere q hj, withQueue_emit]
      · have hk' : j.val ≠ k.val := Fin.val_ne_of_ne hk
        refine ⟨fun hr hu => ?_, fun hr hj' => ?_, fun hr hj' => ?_⟩
        · rw [peerDo_redirected q hj hk' hr, sendUp_linked hu, withQueue_emit]
        · rw [peerDo_direct q hj hk' hr hj', withQueue_emit]
        · rw [peerDo_down q hj hk' hr hj', linkDownAnswer, answerReq, withQueue_emit]
    · rw [exec_p2pRequest_up q hp ha hv hd, sendUp_linked hu, withQueue_emit]
  case config =>
    refine ⟨fun ht w => exec_configRequest_none r hl ht w, fun k ht ha => ?_, fun x ht hx => ?_⟩
    · exact ⟨exec_configRequest_below r hl ht ha none, fun v => exec_configRequest_below r hl ht ha (some v)⟩
    · exact ⟨fun hr w => exec_configRequest_retry r hl ht hx hr w, fun hr =>
        ⟨exec_configRequest_read r hl ht hx hr, exec_configRequest_write r hl ht hx hr⟩⟩

end Sys2Proof.Machine
end

section
/-! The vector coprocessor at the head of its queue (O24). -/

namespace Sys2Proof.Machine

/-! ### Scratch accesses of a coprocessor (R129–R136) -/

/-- A read of scratch that leaves its cell out of reset goes on with what it found. -/
theorem cpLoad_of_read {s t : State} {c : Nat} {rs : List (Nat × Nat)} {r : Option (List (List Byte))} (h : cpRead s c rs = (r, t))
    (hr : cellInReset t c = false) (k : Option (List (List Byte)) → State → State) : cpLoad s c rs k = k r t := by
  simp [cpLoad, h, hr]

/-- A write of scratch that merges into no uncorrectable word and leaves its cell out of reset is performed. -/
theorem cpStore_of_put {s t : State} {c : Nat} {ws : List (Nat × List Byte)} (hm : cpMergeBad s c ws = false) (h : cpPut s c ws = t)
    (hr : cellInReset t c = false) (k : Bool → State → State) : cpStore s c ws k = k true t := by
  simp [cpStore, hm, h, hr]

/-! ### The sum over the enabled lanes -/

/-- The enabled lanes of a register, each with its number. -/
def enabledLanes (x : Cell) (v : BitVec 5) (m : VMask) : List (Nat × Nat) :=
  (lanesOf (vReg x v) (fmtBits (tFmt m.t)) (laneCount (tFmt m.t))).zipIdx.filter (fun p => laneOn x m p.2)

/-- The lanes of a register with their numbers, number by number. -/
theorem zipIdx_lanesOf (v : BitVec 512) (w n : Nat) :
    (lanesOf v w n).zipIdx = (List.range n).map (fun i => ((lanesOf v w n).getD i 0, i)) := by
  apply List.ext_getElem
  · simp [lanesOf]
  · intro i _ hi
    have hn : i < n := by simpa using hi
    simp [lanesOf, hn]

/-- Going over the enabled lanes is going over all lane numbers and skipping those of disabled lanes. -/
theorem foldl_enabledLanes {β : Type} (f : β → Nat × Nat → β) (x : Cell) (v : BitVec 5) (m : VMask) (z : β) :
    (enabledLanes x v m).foldl f z = (List.range (laneCount (tFmt m.t))).foldl (fun z i =>
      if laneOn x m i then f z ((lanesOf (vReg x v) (fmtBits (tFmt m.t)) (laneCount (tFmt m.t))).getD i 0, i) else z) z := by
  rw [enabledLanes, zipIdx_lanesOf, List.foldl_filter, List.foldl_map]

/-! ### The head of the queue (R131) -/

/-- The entry `e` is at the head of CP1's queue, in a cell that is not in reset. -/
structure Cp1Head (s : State) (c : Nat) (e : CopEntry CP1Op) : Prop where
  notInReset : cellInReset s c = false
  head : ∃ q, (cellOf s c).v.q = e :: q

section
variable {s t u : State} {c : Fin 256} {e : CopEntry CP1Op} {i : Instr} (h : Cp1Head s c e)
include h

/-- A row whose body answers a state for the entry at the head answers that state. -/
theorem Cp1Head.exec_eq {run : CopEntry CP1Op → Option State} {op : CP1Op} (he : e.op = op)
    (hi : exec i s = keepQueue s (start1 s c run)) (hu : run { e with op := op } = some u) : exec i s = .next (withQueue s u) := by
  subst he
  obtain ⟨q, hq⟩ := h.head
  rw [hi, start1, h.notInReset, hq]
  simp [hu]

/-- A VFN row whose function code is the entry's. -/
theorem Cp1Head.exec_vfn {vd va : BitVec 5} {k code : BitVec 3} {rt : BitVec 2} {m : VMask} {fn : VFn} (he : e.op = .vfn vd va k rt m)
    (hi : exec i s = keepQueue s (vfnRow s c code fn)) (hk : k = code) :
    exec i s = .next (withQueue s (pop1 (modCell s c (fun x => vfnOp x fn vd va rt m)) c)) :=
  h.exec_eq he hi (by simp [hk, run1])

/-- VCVT between two defined formats (R150). -/
theorem Cp1Head.exec_vcvt {vd vs dst src : BitVec 5} {f g : Fmt} (he : e.op = .vcvt vd vs dst src) (hf : fmtOfCode dst.toNat = some f)
    (hg : fmtOfCode src.toNat = some g) :
    exec (.vcvt c) s = .next (withQueue s (pop1 (modCell s c (fun x => vcvtOp x vd vs f g)) c)) :=
  h.exec_eq he rfl (by simp [hf, hg, run1])

/-- VLD of 64 readable bytes (R152). -/
theorem Cp1Head.exec_vld {vd r : BitVec 5} {l : List Byte} (he : e.op = .vld vd r)
    (hc : cpCheck (cellOf s c) e.user [(e.r1.toNat, 64)] (e.r1.toNat % 64 == 0) .load = none)
    (hl : cpRead s c [(e.r1.toNat, 64)] = (some [l], t)) (ht : cellInReset t c = false) :
    exec (.vld c) s = .next (withQueue s (pop1 (modCell t c (fun x => setV x vd (BitVec.ofNat 512 (leNat l)))) c)) :=
  h.exec_eq he rfl (by simp [hc, cpLoad_of_read hl ht])

/-- VST of lanes that can be stored (R148, R152). -/
theorem Cp1Head.exec_vst {vs r : BitVec 5} {m : VMask} {ws : List (Nat × List Byte)} (he : e.op = .vst vs r m)
    (hw : vstPieces (cellOf s c) e.r1.toNat (vReg (cellOf s c) vs) m = ws)
    (hc : cpCheck (cellOf s c) e.user (ws.map (fun w => (w.1, w.2.length))) (e.r1.toNat % 64 == 0) .store = none)
    (hm : cpMergeBad s c ws = false) (hp : cpPut s c ws = t) (ht : cellInReset t c = false) :
    exec (.vst c) s = .next (withQueue s (pop1 t c)) :=
  h.exec_eq he rfl (by simp [hw, hc, cpStore_of_put hm hp ht])

/-- VRED adds the enabled lanes (R152). -/
theorem Cp1Head.exec_vred {k : BitVec 3} {va : BitVec 5} {m : VMask} (he : e.op = .vred k va m) :
    exec (.vred c) s = .next (withQueue s (pop1 (modCell s c (fun x => setX x k ((enabledLanes x va m).foldl
      (fun z p => z.addVal (valOf (tFmt m.t) p.1)) (xReg x k)))) c)) :=
  h.exec_eq he rfl (by simp only [run1, foldl_enabledLanes])

/-- VDOT adds the products of the enabled lanes (R152). -/
theorem Cp1Head.exec_vdot {k : BitVec 3} {va vb : BitVec 5} {m : VMask} (he : e.op = .vdot k va vb m) :
    exec (.vdot c) s = .next (withQueue s (pop1 (modCell s c (fun x => setX x k ((enabledLanes x va m).foldl
      (fun z p => z.addProd (valOf (tFmt m.t) p.1)
        (valOf (tFmt m.t) ((lanesOf (vReg x vb) (fmtBits (tFmt m.t)) (laneCount (tFmt m.t))).getD p.2 0))) (xReg x k)))) c)) :=
  h.exec_eq he rfl (by simp only [run1, foldl_enabledLanes])

/-- VXP of a record that can be stored (R43, R152). -/
theorem Cp1Head.exec_vxp {k : BitVec 3} {r : BitVec 5} {l : List Byte} (he : e.op = .vxp k r)
    (hl : padTo 96 (xReg (cellOf s c) k).toLAX = l)
    (hc : cpCheck (cellOf s c) e.user [(e.r1.toNat, 96)] (e.r1.toNat % 32 == 0) .store = none)
    (hm : cpMergeBad s c [(e.r1.toNat, l)] = false) (hp : cpPut s c [(e.r1.toNat, l)] = t) (ht : cellInReset t c = false) :
    exec (.vxp c) s = .next (withQueue s (pop1 t c)) :=
  h.exec_eq he rfl (by simp [hl, hc, cpStore_of_put hm hp ht])

/-- VXIM of a well-formed record merges it (R45, R152). -/
theorem Cp1Head.exec_vxim {k : BitVec 3} {r : BitVec 5} {l : List Byte} {b : Acc} (he : e.op = .vxim k r)
    (hc : cpCheck (cellOf s c) e.user [(e.r1.toNat, 96)] (e.r1.toNat % 32 == 0) .load = none)
    (hl : cpRead s c [(e.r1.toNat, 96)] = (some [l], t)) (ht : cellInReset t c = false) (hb : ofLAX l = some b) :
    exec (.vxim c) s = .next (withQueue s (pop1 (modCell t c (fun x => setX x k ((xReg x k).merge b))) c)) :=
  h.exec_eq he rfl (by simp [hc, cpLoad_of_read hl ht, hb])

/-- A VWAIT that has not begun ends where its sluice satisfies it, and else waits at the head (R132). -/
theorem Cp1Head.exec_vwait {r sl : BitVec 5} (he : e.op = .vwait r sl) (hw : (cellOf s c).v.wait = none) :
    exec (.vwait c) s = .next (withQueue s (if waitDone (cellOf s c) (newWait s (cellOf s c) sl e.r1) then pop1 s c
      else modCell s c (fun x => { x with v := { x.v with wait := some (newWait s (cellOf s c) sl e.r1) } }))) :=
  h.exec_eq he rfl (by
    simp only [hw, Option.isSome_none, Bool.false_eq_true, if_false]
    exact (apply_ite some _ _ _).symm)

end

/-! ### VMFC (R132) -/

/-- VMFC of a listed register reads it at once on an empty queue or while HALTED. -/
theorem exec_vmfc {s : State} {c : Fin 256} {d : BitVec 5} {n : BitVec 6} (h : Ready s c) (hn : v1Listed n = true)
    (hq : (cellOf s c).v.q = [] ∨ (cellOf s c).v.halted = true) :
    exec (.vmfc c d n) s = .next (seqTo s c (setG (coreOf s c) d (vmfcRead (cellOf s c) n.toNat))) := by
  have hb : vmfcBody d n s (cellOf s c) =
      (s, .seq { cellOf s c with k := setG (coreOf s c) d (vmfcRead (cellOf s c) n.toNat) }) := by
    rcases hq with hq | hq <;> simp [vmfcBody, hn, hq]
  change execVmfc c d n s = _
  rw [execVmfc, issue_ready h, hb, h.notInReset]
  rfl

/-! ### The statement -/

/-- Settles O24: each row acts on the entry at the head of CP1's queue as its operation says. -/
theorem vector : Obligations.Vector := by
  unfold Obligations.Vector
  refine ⟨fun s c e q hr hq => ?lanes, fun s s' c e q hr hq => ?rest, fun s c d n => exec_vmfc⟩
  case lanes =>
    have h : Cp1Head s c e := ⟨hr, q, hq⟩
    intro runs
    refine ⟨?threeRegister, fun vd va k rt m he => ?functions, fun vd vs dst src f g => h.exec_vcvt,
      fun m va vb cond t he => h.exec_eq he rfl rfl, fun vd a t he => h.exec_eq he rfl rfl⟩
    case threeRegister =>
      intro op vd va vb m he
      cases op <;> exact h.exec_eq he rfl rfl
    case functions =>
      exact ⟨h.exec_vfn he rfl, h.exec_vfn he rfl, h.exec_vfn he rfl, h.exec_vfn he rfl, h.exec_vfn he rfl, h.exec_vfn he rfl⟩
  case rest =>
    have h : Cp1Head s c e := ⟨hr, q, hq⟩
    intro x a runs lanes fits
    refine ⟨fun vd r l => h.exec_vld, ?store, fun vd va m he => h.exec_eq he rfl rfl, fun k va m => h.exec_vred,
      fun k va vb m => h.exec_vdot, fun k he => h.exec_eq he rfl rfl, fun vd k lane t he => h.exec_eq he rfl rfl,
      fun vd ka kb lane t he => h.exec_eq he rfl rfl, ?record, fun k r l b => h.exec_vxim, fun r n he => h.exec_eq he rfl rfl,
      fun sl he => h.exec_eq he rfl rfl, fun r sl => h.exec_vwait⟩
    case store =>
      rintro vs r m he ⟨hc, hm, hp, ht⟩
      exact h.exec_vst he rfl hc hm hp ht
    case record =>
      rintro k r he ⟨hc, hm, hp, ht⟩
      exact h.exec_vxp he rfl hc hm hp ht

end Sys2Proof.Machine
end

section
/-! How a core waits, parks, and runs again (O15). -/

namespace Sys2Proof.Machine

/-! ### Traps of a core that is in none (R121) -/

/-- A trap with EXL = 0 saves and jumps as R121 says. -/
theorem trapAt_of_not_exl {s : State} {c : Nat} {k : KCore} (hr : cellInReset s c = false) (hx : exl k = false) (code sub : Nat)
    (tval epc : Word) : trapAt s c { cellOf s c with k := k } code sub tval epc = trapTo s c k code sub tval epc := by
  simp only [trapAt, hr, hx, Bool.false_eq_true, if_false, trapTo, trapRegs, statusTrap, ie, userMode, Bool.not_not, Nat.mul_comm sub]

/-- A trap without an event of its own, with EXL = 0. -/
theorem takeTrap_of_not_exl {s : State} {c code : Nat} (hr : cellInReset s c = false) (hx : exl (coreOf s c) = false)
    (ho : ownEvent code = false) (sub : Nat) (tval epc : Word) :
    takeTrap s c code sub tval epc = trapTo s c (coreOf s c) code sub tval epc := by
  simp only [takeTrap, ho, Bool.false_eq_true, if_false]
  exact trapAt_of_not_exl hr hx code sub tval epc

/-- A privileged instruction of user mode takes PRIV with its word (R117). -/
theorem finish_privileged {s : State} {c : Nat} (h : Ready s c) (hx : exl (coreOf s c) = false) (w : Word) :
    finish s c (.trap 0x02 0 w) = trapTo s c (coreOf s c) 0x02 0 w (coreOf s c).pc :=
  takeTrap_of_not_exl h.notInReset hx rfl 0 w _

/-! ### FENCE and PARK (R102, R213) -/

/-- A cell is not quiet while an instruction waits in CP0, CP1 or CP3. -/
theorem quiet_eq_false_iff {x : Cell} : quiet x = false ↔ x.t.q ≠ [] ∨ x.v.q ≠ [] ∨ x.dma.q ≠ [] := by
  simp only [quiet, Bool.and_eq_false_iff, beq_eq_false_iff_ne, ne_eq, or_assoc]

theorem exec_fence {s : State} {c : Fin 256} (h : Ready s c) (cp i : BitVec 1) : exec (.fence c cp i) s =
    .next (if cp = 1 ∧ quiet (cellOf s c) = false then setCell s c (cellOf s c) else seqTo s c (coreOf s c)) := by
  change execFence c cp i s = _
  simp only [execFence, issueK_ready h, quiet_eq_false_iff]
  split <;> rfl

theorem exec_park {s : State} {c : Fin 256} (h : Ready s c) (hu : userMode (coreOf s c) = false) : exec (.park c) s =
    .next (setCell s c (if quiet (cellOf s c) then parkedCell s c (cellOf s c)
      else { cellOf s c with k := { coreOf s c with run := .parking } })) := by
  change execPark c s = _
  rw [execPark, issueK_ready h, hu]
  rfl

theorem exec_park_user {s : State} {c : Fin 256} (h : Ready s c) (hu : userMode (coreOf s c) = true)
    (hx : exl (coreOf s c) = false) :
    exec (.park c) s = .next (withQueue s (trapTo s c (coreOf s c) 0x02 0 (kEncode .park) (coreOf s c).pc)) := by
  change execPark c s = _
  rw [execPark, issueK_ready h, hu, if_pos rfl, finish_privileged h hx, keepQueue_of_next]

/-- What a trap does to a RUN leaves the queue. -/
@[simp] theorem runTrap_pending (s : State) (c code : Nat) (tval : Word) (user : Bool) :
    (runTrap s c code tval user).pending = s.pending := by
  unfold runTrap
  split
  · rfl
  · dsimp only
    repeat' split
    all_goals rfl

/-- A trap leaves the queue. -/
@[simp] theorem trapTo_pending (s : State) (c : Nat) (k : KCore) (code sub : Nat) (tval epc : Word) :
    (trapTo s c k code sub tval epc).pending = s.pending := by simp [trapTo]

/-- SLU_UNPARK lets a parked cell run on, its cycle count going on from the value held. -/
theorem exec_sluUnpark {s : State} {c : Fin 256} {n : DWord} (hp : (coreOf s c).run = .parked) (hn : (coreOf s c).cycHeld = some n)
    (hr : cellInReset s c = false) (hb : barOpen s = true) : exec (.sluUnpark c) s =
    .next (setCell s c { cellOf s c with k := { coreOf s c with
      run := .running, cycHeld := none, cycBase := regionCycles s (regionOf c) - n } }) := by
  change execSluUnpark c s = _
  simp only [execSluUnpark, hb, hn, hr, hp, Bool.not_true, Bool.false_eq_true, if_false, if_true]
  rfl

/-! ### The timer, the reload and the start (R61, R116, R127) -/

theorem exec_timerCompareMatch {s : State} {c : Fin 256} (ha : (coreOf s c).tcArmed = true)
    (ht : (coreOf s c).timecmp.toNat ≤ s.tb.ns.toNat) :
    exec (.timerCompareMatch c) s = .next (setCell s c { cellOf s c with k := setTimerBit (coreOf s c) true }) := by
  change execTimerCompareMatch c s = _
  simp only [execTimerCompareMatch, ha, now, ht, decide_true, Bool.and_self, if_true]
  rfl

/-- A reload whose line can be read writes it with good parity, records the correction and lets the core run. -/
theorem exec_imemParityReload {s s' : State} {c : Fin 256} {off : Nat} {load : Option Word} {l : List Byte}
    (hrun : (coreOf s c).run = .reload off load) (hr : cellInReset s c = false)
    (hl : runMM s (physRead (cellVia c) (cellOf s c).turnout.toNat ((coreOf s c).imemBack.toNat + 64 * (off / 64)) 64) = (.ok l, s')) :
    exec (.imemParityReload c) s = .next (withQueue s (modCell
      (event (storeBytes (dropAsks s' (fun w => decide (w = .core c.val))) (imemPA c + 64 * (off / 64)) l false) c 0 0x03 (off / 4)) c
      (fun x => { x with k := { x.k with run := .running } }))) := by
  change execImemParityReload c s = _
  simp only [execImemParityReload, hrun, hr, Bool.false_eq_true, if_false, Nat.mul_comm _ 64, hl, keepQueue_of_next]

/-- The start of a halted cell of a turnout: its image is loaded whole, and it runs from address 0. -/
theorem exec_cellStart {s : State} {c : Fin 256} {image : List Byte} (hi : image.length ≤ 0x8000) (hr : cellInReset s c = false)
    (hrun : (coreOf s c).run = .halted) (ht : (cellOf s c).turnout ≠ 0x200#10) : exec (.cellStart c image) s =
    .next (withQueue s (modCell (storeBytes s (imemPA c) image false) c
      (fun x => { x with k := { x.k with pc := 0, run := .running } }))) := by
  change execCellStart c image s = _
  simp [execCellStart, hr, hrun, ht, List.take_of_length_le hi]

/-- A byte written leaves the queue. -/
@[simp] theorem setMemByte_pending (s : State) (a : Nat) (b : Byte) : (setMemByte s a b).pending = s.pending := by
  unfold setMemByte
  split <;> rfl

@[simp] theorem setMemBytes_pending (s : State) (a : Nat) (l : List Byte) : (setMemBytes s a l).pending = s.pending := by
  induction l generalizing s a with
  | nil => rfl
  | cons b r ih => rw [setMemBytes, ih, setMemByte_pending]

/-- A store of good bytes leaves the queue. -/
@[simp] theorem storeBytes_pending (s : State) (a : Nat) (l : List Byte) : (storeBytes s a l false).pending = s.pending := by
  simp [storeBytes]

/-! ### The statement -/

/-- Settles O15: each way in which a core stops for a while, or runs again, by the rule of its row. -/
theorem coreRuns : Obligations.CoreRuns := by
  unfold Obligations.CoreRuns
  refine ⟨fun s c cp i => ⟨fun h => ⟨exec_fence h cp i, exec_park h, fun hu hx => ?userPark⟩, fun n => exec_sluUnpark⟩,
    fun s c => ⟨?timer, fun off load l s' => exec_imemParityReload, fun image hi hr hrun ht => ?start⟩⟩
  case userPark => rw [exec_park_user h hu hx, withQueue_same (trapTo_pending ..)]
  case timer =>
    rintro _ rfl ha ht
    exact exec_timerCompareMatch ha ht
  case start => rw [exec_cellStart hi hr hrun ht, withQueue_same (by simp)]

end Sys2Proof.Machine
end

section
/-! The resets of cells, blocks and regions (O27). -/

namespace Sys2Proof.Machine

/-! ### Requests for a reset (R62, R65, R67, R85, R408) -/

/-- Unit resets are absorbed until BOOT is reached. -/
theorem beforeBoot_iff {s : State} : beforeBoot s = true ↔ rd s f_GEN_STATE_STATE < 4 := by
  simp only [beforeBoot, decide_eq_true_eq]

theorem beforeBoot_eq_false {s : State} (h : 4 ≤ rd s f_GEN_STATE_STATE) : beforeBoot s = false :=
  Bool.eq_false_iff.2 (mt beforeBoot_iff.1 (by omega))

/-- Is a block held in reset, by its own reset or by its region's. -/
def blockInReset (s : State) (k : Nat) : Bool := nin s.fab.blockRst k || nin s.fab.regionRst (k / 4)

/-- Is a cell of a block in a reset of its own. -/
abbrev cellBelow (s : State) (k : Nat) : Prop := ∃ i < 4, (cellOf s (4 * k + i)).inReset = true

/-- Is a cell or a block of a region in a reset of its own. -/
abbrev unitBelow (s : State) (r : Nat) : Prop :=
  (∃ i < 16, (cellOf s (16 * r + i)).inReset = true) ∨ ∃ i < 4, nin s.fab.blockRst (4 * r + i) = true

section
variable {s : State} (src : Nat)

theorem reqCellReset_absorbed {c : Nat} (h : rd s f_GEN_STATE_STATE < 4 ∨ cellInReset s c = true) :
    reqCellReset s src c = infoEvent s src 0x07 10 2 := by
  rw [reqCellReset, if_pos (Bool.or_eq_true_iff.2 (h.imp_left beforeBoot_iff.2))]
  rfl

theorem reqBlockReset_absorbed {k : Nat} (h : rd s f_GEN_STATE_STATE < 4 ∨ blockInReset s k = true) :
    reqBlockReset s src k = infoEvent s src 0x07 11 2 := by
  have h' : (beforeBoot s || nin s.fab.blockRst k || nin s.fab.regionRst (k / 4)) = true := by
    rw [Bool.or_assoc]
    exact Bool.or_eq_true_iff.2 (h.imp_left beforeBoot_iff.2)
  rw [reqBlockReset, if_pos h']
  rfl

theorem reqRegionReset_absorbed {r : Nat} (h : rd s f_GEN_STATE_STATE < 4 ∨ nin s.fab.regionRst r = true) :
    reqRegionReset s src r = infoEvent s src 0x07 12 2 := by
  rw [reqRegionReset, if_pos (Bool.or_eq_true_iff.2 (h.imp_left beforeBoot_iff.2))]
  rfl

variable (hg : 4 ≤ rd s f_GEN_STATE_STATE)
include hg

theorem reqCellReset_asserted {c : Nat} (h : cellInReset s c = false) : reqCellReset s src c = cellReset s c := by
  simp [reqCellReset, beforeBoot_eq_false hg, h]

/-- A BLOCK reset is asserted; where it takes over the reset of a cell, that is recorded. -/
theorem reqBlockReset_asserted {k : Nat} (h : blockInReset s k = false) :
    reqBlockReset s src k = if cellBelow s k then infoEvent (blockReset s k) src 0x07 3 1 else blockReset s k := by
  obtain ⟨hk, hr⟩ := Bool.or_eq_false_iff.1 h
  simp only [reqBlockReset, beforeBoot_eq_false hg, hk, hr, Bool.or_self, Bool.false_eq_true, if_false, List.any_eq_true, List.mem_range]
  rfl

/-- A REGION reset is asserted; where it takes over the reset of a cell or a block, that is recorded. -/
theorem reqRegionReset_asserted {r : Nat} (h : nin s.fab.regionRst r = false) :
    reqRegionReset s src r = if unitBelow s r then infoEvent (regionReset s r) src 0x07 4 1 else regionReset s r := by
  simp only [reqRegionReset, beforeBoot_eq_false hg, h, Bool.or_self, Bool.false_eq_true, if_false, Bool.or_eq_true,
    List.any_eq_true, List.mem_range]
  rfl

end

/-! ### The rows (R62, R65, R67, R87) -/

theorem exec_cellReset (s : State) (c : Fin 256) : exec (.cellReset c) s = .next (withQueue s (reqCellReset s c c)) := rfl

theorem exec_blockReset (s : State) (k : Fin 64) : exec (.blockReset k) s = .next (withQueue s (reqBlockReset s (0x100 + k) k)) := rfl

theorem exec_regionReset (s : State) (r : Fin 16) : exec (.regionReset r) s = .next (withQueue s (reqRegionReset s (0x140 + r) r)) :=
  rfl

section
variable {s : State} {r : Fin 16} (b c : Fin 4) (hb : barOpen s = true)
include hb

/-- A write to RGN_UNIT_RST while BUSY is ignored and noted. -/
theorem exec_rgnUnitRst_busy (hy : rd s (f_RGN_UNIT_RST_BUSY r) = 1) :
    exec (.rgnUnitRstCell r b c) s = .next (writeIgnored s) ∧ exec (.rgnUnitRstBlock r b) s = .next (writeIgnored s) := by
  constructor
  · change execRgnUnitRstCell r b c s = _
    simp [execRgnUnitRstCell, hb, hy, writeIgnored, withQueue_wr]
  · change execRgnUnitRstBlock r b s = _
    simp [execRgnUnitRstBlock, hb, hy, writeIgnored, withQueue_wr]

variable (hg : 4 ≤ rd s f_GEN_STATE_STATE) (hy : rd s (f_RGN_UNIT_RST_BUSY r) = 0)
include hg hy

/-- LEVEL CELL starts the reset of a cell that is in none, and BUSY shows it. -/
theorem exec_rgnUnitRstCell {n : Nat} (hn : n = 16 * r.val + 4 * b.val + c.val) (hc : cellInReset s n = false) :
    exec (.rgnUnitRstCell r b c) s = .next (withQueue s (unitBusy (cellReset s n) r n)) := by
  subst hn
  change execRgnUnitRstCell r b c s = _
  simp [execRgnUnitRstCell, hb, hy, beforeBoot_eq_false hg, hc, reqCellReset_asserted _ hg hc]

/-- LEVEL BLOCK starts the reset of a block that is in none and holds no cell that is, and BUSY shows it. -/
theorem exec_rgnUnitRstBlock {k : Nat} (hk : k = 4 * r.val + b.val) (hr : blockInReset s k = false) (hc : ¬ cellBelow s k) :
    exec (.rgnUnitRstBlock r b) s = .next (withQueue s (unitBusy (blockReset s k) r (0x100 + k))) := by
  have hreq := reqBlockReset_asserted (0x100 + k) hg hr
  rw [if_neg hc] at hreq
  obtain ⟨h1, h2⟩ := Bool.or_eq_false_iff.1 hr
  have hd : (4 * r.val + b.val) / 4 = r.val := by omega
  subst hk
  rw [hd] at h2
  change execRgnUnitRstBlock r b s = _
  simp [execRgnUnitRstBlock, hb, hy, beforeBoot_eq_false hg, h1, h2, hreq]

end

/-! ### What a CELL reset leaves (R62, R127) -/

/-- A walk that keeps a part of the state at every stage keeps it. -/
theorem foldl_keeps {σ α β : Type} (g : σ → β) {f : σ → α → σ} (hf : ∀ s a, g (f s a) = g s) (s : σ) (l : List α) :
    g (l.foldl f s) = g s := by
  induction l generalizing s with
  | nil => rfl
  | cons a r ih => rw [List.foldl_cons, ih, hf]

/-- Placing a miss changes the levees alone. -/
theorem placeMiss_frame (s : State) (m : PageMiss) : ∃ l, placeMiss s m = { s with lev := l } := by
  unfold placeMiss
  split
  · exact ⟨_, rfl⟩
  · split <;> exact ⟨_, rfl⟩

/-- Requesters that stop waiting leave the cells. -/
theorem dropWaiters_cells (s : State) (p : PReq → Bool) : (dropWaiters s p).cells = s.cells :=
  foldl_keeps State.cells (fun t m => by obtain ⟨l, h⟩ := placeMiss_frame t m; rw [h]) _ _

/-- Requesters that stop waiting leave the memories. -/
theorem dropWaiters_m (s : State) (p : PReq → Bool) : (dropWaiters s p).m = s.m :=
  foldl_keeps State.m (fun t m => by obtain ⟨l, h⟩ := placeMiss_frame t m; rw [h]) _ _

/-- The cell that a scrub leaves: its reset values, but for CR_TURNOUT, the debug claim and the count of its cycles. -/
def scrubbedCell (s : State) (c : Nat) : Cell :=
  { Cell.reset with
    turnout := (cellOf s c).turnout
    dbg := { CellDbg.reset with claimed := (cellOf s c).dbg.claimed, bp := (cellOf s c).dbg.bp, wp := (cellOf s c).dbg.wp }
    k := { KCore.reset with cycBase := regionCycles s (regionOf c) } }

/-- The memories that a scrub of a cell leaves: its scratch and instruction memory zero, without an error. -/
def scrubbedMems (m : Mems) (c : Nat) : Mems :=
  { m with
    sram := sclear (sclear m.sram (scratchPA c) 0x10_0000) (imemPA c) 0x8000
    ecc := sclear (sclear m.ecc (scratchPA c / 8) 0x2_0000) (imemPA c / 8) 0x1000
    par := sclear m.par (imemPA c / 4) 0x2000 }

theorem cellScrub_cells (s : State) (c : Nat) : (cellScrub s c).cells = (setCell s c (scrubbedCell s c)).cells := by
  rw [cellScrub, foldl_keeps State.cells]
  · rfl
  · exact fun _ _ => rfl

theorem cellScrub_m (s : State) (c : Nat) : (cellScrub s c).m = scrubbedMems s.m c := by
  rw [cellScrub, foldl_setReg_m]
  rfl

/-- A CELL reset scrubs the cell and holds it. -/
theorem cellReset_cells (s : State) (c : Nat) : (cellReset s c).cells =
    (modCell (setCell s c (scrubbedCell s c)) c (fun x => { x with inReset := true })).cells := by
  have h : (dropWaiters (cellScrub (mimCellsReset s [c]) c) (ofCell c)).cells = (setCell s c (scrubbedCell s c)).cells := by
    rw [dropWaiters_cells, cellScrub_cells]
    rfl
  change (modCell (dropWaiters (cellScrub (mimCellsReset s [c]) c) (ofCell c)) c (fun x => { x with inReset := true })).cells = _
  simp only [modCell, setCell, cellOf] at h ⊢
  rw [h]

theorem cellReset_m (s : State) (c : Nat) : (cellReset s c).m = scrubbedMems s.m c := by
  change (dropWaiters (cellScrub (mimCellsReset s [c]) c) (ofCell c)).m = _
  rw [dropWaiters_m, cellScrub_m]
  rfl

/-- The cell after its reset. -/
theorem cellOf_cellReset_same {s : State} (h : swf Cell.reset s.cells = true) (c : Nat) :
    cellOf (cellReset s c) c = { scrubbedCell s c with inReset := true } := by
  have hs : swf Cell.reset (setCell s c (scrubbedCell s c)).cells = true := swf_sput h
  rw [cellOf, cellReset_cells]
  change cellOf (modCell _ c _) c = _
  rw [modCell, cellOf_setCell hs, cellOf_setCell h]

/-- Every other cell is as it was. -/
theorem cellOf_cellReset_other (s : State) {c e : Nat} (h : e ≠ c) : cellOf (cellReset s c) e = cellOf s e := by
  rw [cellOf, cellReset_cells]
  change cellOf (modCell _ c _) e = _
  rw [modCell, cellOf_setCell_other h, cellOf_setCell_other h]

/-- A byte of scratch or of instruction memory is one of the on-chip arrays. -/
theorem memByte_of_cell {s : State} {a c : Nat} (h : areaOf a = .scratch c ∨ areaOf a = .imem c) : memByte s a = sget 0 s.m.sram a := by
  rcases h with h | h <;> simp only [memByte, h]

/-- The scratch of a cell in the physical map. -/
theorem areaOf_scratch {c o : Nat} (hc : c < 256) (ho : o < 0x10_0000) : areaOf (scratchPA c + o) = .scratch c := by
  have hd : (0x200_0000_0000 + c * 0x10_0000 + o - 0x200_0000_0000) / 0x10_0000 = c := by omega
  rw [areaOf, scratchPA, if_neg (by omega), if_neg (by omega), if_pos (by omega), hd]

/-- The instruction memory of a cell in the physical map. -/
theorem areaOf_imem {c o : Nat} (hc : c < 256) (ho : o < 0x8000) : areaOf (imemPA c + o) = .imem c := by
  have hd : (0x280_0000_0000 + c * 0x8000 + o - 0x280_0000_0000) / 0x8000 = c := by omega
  rw [areaOf, imemPA, if_neg (by omega), if_neg (by omega), if_neg (by omega), if_pos (by omega), hd]

/-- What is left of a store once a range has been cleared. -/
theorem mem_sclear {α : Type} {m : SMap α} {lo n : Nat} {p : Nat × α} :
    p ∈ sclear m lo n ↔ p ∈ m ∧ ¬ (lo ≤ p.1 ∧ p.1 < lo + n) := by
  simp only [sclear, List.mem_filter, Bool.not_eq_true', ← Bool.decide_and, decide_eq_false_iff_not]

section
variable (s : State) {c : Nat} (hc : c < 256)
include hc

/-- Scratch reads zero after the reset. -/
theorem memByte_cellReset_scratch {o : Nat} (ho : o < 0x10_0000) : memByte (cellReset s c) (scratchPA c + o) = 0 := by
  have hout : scratchPA c + o < imemPA c := by
    simp only [scratchPA, imemPA]
    omega
  rw [memByte_of_cell (.inl (areaOf_scratch hc ho)), cellReset_m, scrubbedMems, sget_sclear_out (.inl hout),
    sget_sclear_in (by omega) (by omega)]

/-- Instruction memory reads zero after the reset. -/
theorem memByte_cellReset_imem {o : Nat} (ho : o < 0x8000) : memByte (cellReset s c) (imemPA c + o) = 0 := by
  rw [memByte_of_cell (.inr (areaOf_imem hc ho)), cellReset_m, scrubbedMems, sget_sclear_in (by omega) (by omega)]

omit hc in
/-- No word of scratch has an error after the reset. -/
theorem eccIn_cellReset_scratch (c : Nat) : eccIn (cellReset s c) (scratchPA c) 0x10_0000 = [] := by
  have hend : (scratchPA c + 0x10_0000 + 7) / 8 = scratchPA c / 8 + 0x2_0000 := by
    simp only [scratchPA]
    omega
  rw [eccIn, cellReset_m, List.filter_eq_nil_iff]
  intro p hp hin
  obtain ⟨hp, -⟩ := mem_sclear.1 hp
  obtain ⟨-, hout⟩ := mem_sclear.1 hp
  rw [hend, ← Bool.decide_and, decide_eq_true_eq] at hin
  exact hout hin

end

/-! ### The statement -/

/-- Settles O27: a request by the tests of its row, and the cell and the memories that a CELL reset leaves. -/
theorem unitResets : Obligations.UnitResets := by
  unfold Obligations.UnitResets
  refine ⟨fun s => ⟨fun hg => ⟨fun c hc => ?cell, fun k h1 h2 => ?block, fun r hr => ?region, fun r b c hb hy => ?unit⟩,
    fun c h => ?cellAbsorbed, fun k h => ?blockAbsorbed, fun r h => ?regionAbsorbed,
    fun r b c hb hy => exec_rgnUnitRst_busy b c hb hy⟩, fun s c hm hs => ?left⟩
  case cell => rw [exec_cellReset, reqCellReset_asserted _ hg hc]
  case block =>
    rw [exec_blockReset, reqBlockReset_asserted _ hg (Bool.or_eq_false_iff.2 ⟨h1, h2⟩)]
    refine ⟨fun hn => ?_, fun hn => by rw [if_pos hn]⟩
    rw [if_neg]
    rintro ⟨i, hi, hx⟩
    exact Bool.eq_false_iff.1 (hn i hi) hx
  case region =>
    rw [exec_regionReset, reqRegionReset_asserted _ hg hr]
    exact ⟨fun hn => by rw [if_neg hn], fun hn => by rw [if_pos hn]⟩
  case unit =>
    have hd : (4 * r.val + b.val) / 4 = r.val := by omega
    refine ⟨exec_rgnUnitRstCell b c hb hg hy rfl, fun h1 h2 hn => exec_rgnUnitRstBlock b hb hg hy rfl ?_ ?_⟩
    · rw [blockInReset, h1, hd, h2]
      rfl
    · rintro ⟨i, hi, hx⟩
      exact Bool.eq_false_iff.1 (hn i hi) hx
  case cellAbsorbed => rw [exec_cellReset, reqCellReset_absorbed _ h]
  case blockAbsorbed => rw [exec_blockReset, reqBlockReset_absorbed _ (h.imp_right Bool.or_eq_true_iff.2)]
  case regionAbsorbed => rw [exec_regionReset, reqRegionReset_absorbed _ h]
  case left =>
    intro t x
    have hx : x = { scrubbedCell s c with inReset := true } := cellOf_cellReset_same hs c
    have hin : cellInReset t c = true := by
      change (x.inReset || _ || _) = true
      rw [hx]
      rfl
    refine ⟨hin, ?_⟩
    rw [hx]
    have hu : userMode KCore.reset = false := by decide
    refine ⟨rfl, rfl, hu, fun r => ?_, rfl, rfl, rfl, rfl, fun n => rfl, fun o => memByte_cellReset_scratch s c.isLt,
      fun o => memByte_cellReset_imem s c.isLt, eccIn_cellReset_scratch s c, fun e => cellOf_cellReset_other s⟩
    exact ite_self 0

end Sys2Proof.Machine
end

section
/-! Packets of the flume that arrive, the reservoirs and the merge units (O28). -/

namespace Sys2Proof.Machine

/-! ### Packets that arrive (R78, R79, R80) -/

/-- A packet has arrived, with the errors of its flits shown: the state `u` and the packet `q` that its target sees. -/
structure Arrived (s u : State) (p q : Packet) (err : FlitErr) : Prop where
  arrives : ∃ t, arrive s p = (true, t) ∧ flitErr t p err = (u, q)

section
variable {s u : State} {p q : Packet} {err : FlitErr} (h : Arrived s u p q err)
include h

/-! ### Requests (R60, R84, R220) -/

section
variable (he : noSuchPort q = false)
include he

/-- A request for a stopped unit is discarded, counted, and answered with STATUS 3. -/
theorem Arrived.exec_flumeRdReq_stopped {src : Nat} (hs : portStopped u q.dest = some src) :
    exec (.flumeRdReq p err) s = .next (withQueue s (reply (discard u src (flitCount q)) q 2 3 [] 0)) := by
  obtain ⟨t, ha, hf⟩ := h.arrives
  change execFlumeRdReq p err s = _
  simp [execFlumeRdReq, ha, hf, he, hs]

variable (hs : portStopped u q.dest = none) (hr : targetInReset u q.addr = false)
include hs hr

/-- A read that the levee refuses is answered with STATUS 2. -/
theorem Arrived.exec_flumeRdReq_refused (ho : rangeOk u q.owner q.addr q.len = false) :
    exec (.flumeRdReq p err) s = .next (withQueue s (reply u q 2 2 [] 0)) := by
  obtain ⟨t, ha, hf⟩ := h.arrives
  change execFlumeRdReq p err s = _
  simp [execFlumeRdReq, ha, hf, he, hs, hr, ho]

/-- A write that the levee refuses is answered with STATUS 2. -/
theorem Arrived.exec_flumeWr_refused (ho : rangeOk u q.owner q.addr q.data.length = false) :
    exec (.flumeWr p err) s = .next (withQueue s (reply u q 4 2 [] 0)) := by
  obtain ⟨t, ha, hf⟩ := h.arrives
  change execFlumeWr p err s = _
  simp [execFlumeWr, ha, hf, he, hs, hr, ho]

variable (hg : portGone u q.owner q.addr = false) (hm : ∀ k a, areaOf q.addr ≠ .port k a)
include hg hm

/-- A read of memory answers with its bytes, with STATUS 1 and the marks where a word or the request is poisoned. -/
theorem Arrived.exec_flumeRdReq_read {bad : Bool} {v : State} (ho : rangeOk u q.owner q.addr q.len = true)
    (hc : checkRange u q.addr q.len true = (bad, v)) :
    exec (.flumeRdReq p err) s = .next (withQueue s (reply v q 2 (if bad = true ∨ q.poison ≠ 0 then 1 else 0)
      (memBytes v q.addr q.len) (if q.poison ≠ 0 then BitVec.allOnes 33 else readMarks u q.addr q.len))) := by
  obtain ⟨t, ha, hf⟩ := h.arrives
  change execFlumeRdReq p err s = _
  cases har : areaOf q.addr with
  | port k a => exact absurd har (hm k a)
  | _ => simp [execFlumeRdReq, ha, hf, he, hs, hr, ho, hg, hc, har, b2n]

/-- A write over memory is performed and acknowledged, or refused with STATUS 1 where it would merge into an uncorrectable word. -/
theorem Arrived.exec_flumeWr_write (ho : rangeOk u q.owner q.addr q.data.length = true) :
    exec (.flumeWr p err) s = .next (withQueue s (if (putMem u q.addr q.data false).1
      then reply (poisonFlits (putMem u q.addr q.data false).2 q) q 4 0 [] 0 else reply (putMem u q.addr q.data false).2 q 4 1 [] 0)) := by
  obtain ⟨t, ha, hf⟩ := h.arrives
  change execFlumeWr p err s = _
  cases har : areaOf q.addr with
  | port k a => exact absurd har (hm k a)
  | _ => simp [execFlumeWr, ha, hf, he, hs, hr, ho, hg, har]

end

/-! ### Responses and messages (R79, R95) -/

section
variable {c : Nat} (hd : cellAtEndpoint q.dest = some c)
include hd

/-- A response reaches the cell it is for. -/
theorem Arrived.responseArrives_eq : responseArrives p err s = respond u c q := by
  obtain ⟨t, ha, hf⟩ := h.arrives
  simp [responseArrives, ha, hf, hd]

/-- A message that its cell takes enters the inbox. -/
theorem Arrived.exec_flumeMsg {v : State} (hv : inboxArrive u c q = some v) :
    exec (.flumeMsg p err) s = .next (withQueue s v) := by
  obtain ⟨t, ha, hf⟩ := h.arrives
  change execFlumeMsg p err s = _
  simp [execFlumeMsg, ha, hf, hd, hv]

end
end

/-! ### Credits and the reservoir (R70, R74, R88) -/

/-- A place that the buffer has freed returns its credit. -/
theorem exec_flitCreditReturn {s : State} {r : Fin 64} {q : Fin 8} {pl : Fin 2} {vc : Fin 3}
    (h : standing s (credKey r q pl vc) < sget 0 s.fab.held (credKey r q pl vc)) :
    exec (.flitCreditReturn r q pl vc) s = .next { s with fab := { s.fab with
      held := sput 0 s.fab.held (credKey r q pl vc) (sget 0 s.fab.held (credKey r q pl vc) - 1) } } := by
  change execFlitCreditReturn r q pl vc s = _
  simp only [execFlitCreditReturn, if_pos h]
  rfl

theorem exec_rgnRsvWeightWrite {s : State} (r : Fin 16) (w : BitVec 20) (hb : barOpen s = true) :
    exec (.rgnRsvWeightWrite r w) s = .next (setReg s (f_RGN_RSV_WEIGHT_F r).key (w.zeroExtend 64)) := by
  change execRgnRsvWeightWrite r w s = _
  simp only [execRgnRsvWeightWrite, hb]
  rfl

/-- The patrol scrubber moves on over a line without an error. -/
theorem exec_reservoirPatrolScrub {s : State} {r : Fin 16}
    (h : checkRange s (0x100_0000_0000 + r.val * 0x1000_0000 + 64 * sget 0 s.fab.patrol r) 64 true = (false, s)) :
    exec (.reservoirPatrolScrub r) s = .next { s with fab := { s.fab with
      patrol := sput 0 s.fab.patrol r ((sget 0 s.fab.patrol r + 1) % 4194304) } } := by
  change execReservoirPatrolScrub r s = _
  simp only [execReservoirPatrolScrub, h]
  rfl

/-! ### The merge unit (R64) -/

section
variable {s : State} {k : Fin 64} (i : Fin 64) (hr : mergeInReset s k = false)
include hr

theorem exec_mergeOpen : exec (.mergeOpen k i) s = .next (emit (setSlot s k i (some Acc.zero)) (.merge k i 0 [])) := by
  change execMergeOpen k i s = _
  simp only [execMergeOpen, hr]
  rfl

/-- ADD of a record to an open slot merges it. -/
theorem exec_mergeAdd {l : List Byte} {a b : Acc} (ha : slotOf s k i = some a) (hb : ofLAX l = some b) :
    exec (.mergeAdd k i l) s = .next (emit (setSlot s k i (some (a.merge b))) (.merge k i 0 [])) := by
  change execMergeAdd k i l s = _
  simp only [execMergeAdd, hr, ha, hb]
  rfl

/-- ADD to a free slot, or of no record, ends with INVALID_FIELD. -/
theorem exec_mergeAdd_invalid {l : List Byte} (h : slotOf s k i = none ∨ ofLAX l = none) :
    exec (.mergeAdd k i l) s = .next (emit s (.merge k i 1 [])) := by
  change execMergeAdd k i l s = _
  rcases h with h | h
  · simp only [execMergeAdd, hr, h]
    rfl
  · cases hs : slotOf s k i <;> simp only [execMergeAdd, hr, h, hs] <;> rfl

/-- CLOSE of an open slot answers its canonical record and frees it. -/
theorem exec_mergeClose {a : Acc} (ha : slotOf s k i = some a) :
    exec (.mergeClose k i) s = .next (emit (setSlot s k i none) (.merge k i 0 a.toLAX)) := by
  change execMergeClose k i s = _
  simp only [execMergeClose, hr, ha]
  rfl

/-- CLOSE of a free slot ends with INVALID_FIELD. -/
theorem exec_mergeClose_free (ha : slotOf s k i = none) : exec (.mergeClose k i) s = .next (emit s (.merge k i 1 [])) := by
  change execMergeClose k i s = _
  simp only [execMergeClose, hr, ha]
  rfl

end

/-! ### The statement -/

/-- Settles O28: what a packet does where it arrives, and the rows of a buffer, a reservoir and a merge unit. -/
theorem flume : Obligations.Flume := by
  unfold Obligations.Flume
  refine ⟨fun s t u p q err ha hf => ?packets, fun s r q pl vc => exec_flitCreditReturn,
    fun s r w => ⟨exec_rgnRsvWeightWrite r w, ?patrol⟩, fun s k i l a b hr => ?merge⟩
  case packets =>
    have h : Arrived s u p q err := ⟨t, ha, hf⟩
    refine ⟨fun he => ⟨fun src hs => h.exec_flumeRdReq_stopped he hs, fun hs hr =>
      ⟨fun ho hg hm bad v hc => h.exec_flumeRdReq_read he hs hr hg hm ho hc, fun ho => h.exec_flumeRdReq_refused he hs hr ho,
        fun ho hg hm => ?write, fun ho => h.exec_flumeWr_refused he hs hr ho⟩⟩, fun c hd => ?responses⟩
    case write =>
      rw [h.exec_flumeWr_write he hs hr hg hm ho]
      exact ⟨fun hb => by rw [putMem_ok false hb, if_pos rfl], fun hb => by rw [putMem_refused false hb, if_neg Bool.false_ne_true]⟩
    case responses =>
      have hres := h.responseArrives_eq hd
      refine ⟨?_, ?_, fun v => h.exec_flumeMsg hd⟩ <;> rw [← hres] <;> rfl
  case patrol =>
    rintro _ rfl h
    exact exec_reservoirPatrolScrub h
  case merge =>
    exact ⟨exec_mergeOpen i hr, exec_mergeAdd i hr, exec_mergeAdd_invalid i hr, exec_mergeClose i hr, exec_mergeClose_free i hr⟩

end Sys2Proof.Machine
end

section
/-! The queue of the DMA engine, its descriptors and its messages (O29). -/

namespace Sys2Proof.Machine

/-! ### DQ and DMSG (R113, R206) -/

/-- A ready cell can read `n` aligned bytes of its scratch at `a`, and none of them has an error. -/
def ScratchReads (s : State) (c a n : Nat) : Prop :=
  n ∣ a ∧ inScratch a n = true ∧ (userMode (coreOf s c) = true → mpuRange (coreOf s c) a n .load = true) ∧
    checkRange s (scrPA c a) n false = (false, s)

/-- The next state of an instruction that queues an item for the DMA engine and completes. -/
def queueTo (s : State) (c : Nat) (i : DmaItem) : State :=
  setCell s c (boundary { cellOf s c with
    k := { nextPc (coreOf s c) with run := .running }
    dma := { (cellOf s c).dma with q := (cellOf s c).dma.q ++ [i] } })

/-- A read of scratch that succeeds goes on with its bytes. -/
theorem dqRead_of_reads {s : State} {c a n : Nat} (h : ScratchReads s c a n) (k : List Byte → Cell → KOut) :
    dqRead s c (cellOf s c) a n k = (s, k (memBytes s (scrPA c a) n) (cellOf s c)) := by
  obtain ⟨hn, hin, hmpu, hc⟩ := h
  have hu : (userMode (coreOf s c) && !mpuRange (coreOf s c) a n .load) = false := by
    cases hm : userMode (coreOf s c) with
    | false => rfl
    | true => simp [hmpu hm]
  simp [dqRead, Nat.dvd_iff_mod_eq_zero.1 hn, hin, hu, hc]

section
variable {s : State} {c : Fin 256} (h : Ready s c)
include h

/-- A CP3 instruction that answers the state it was given ends as it says. -/
theorem issue_cp3 {op : CP3Op} {o : KOut} (hb : cp3Body c op s (cellOf s c) = (s, o)) :
    issue s c (cp3Body c op) = finish s c o := by
  rw [issue_ready h, hb, h.notInReset, if_neg Bool.false_ne_true]

theorem exec_dq {r : BitVec 5} (hq : dmaWaiting (cellOf s c).dma.q < 16) (hr : ScratchReads s c (gReg (coreOf s c) r).toNat 32) :
    exec (.dq c r) s = .next (queueTo s c
      (.desc (memBytes s (scrPA c (gReg (coreOf s c) r).toNat) 32) (gReg (coreOf s c) r) (userMode (coreOf s c)) .queued)) := by
  change execDq c r s = _
  rw [execDq, issue_cp3 h (by rw [cp3Body, if_neg (by omega), dqRead_of_reads hr])]
  rfl

/-- DQ stalls on a full queue. -/
theorem exec_dq_full (r : BitVec 5) (hq : 16 ≤ dmaWaiting (cellOf s c).dma.q) :
    exec (.dq c r) s = .next (setCell s c (cellOf s c)) := by
  change execDq c r s = _
  rw [execDq, issue_cp3 h (by rw [cp3Body, if_pos hq])]
  rfl

variable {r1 r2 : BitVec 5} (ord : BitVec 1) (hd : dmsgRefused (gReg (coreOf s c) r2) = false)
include hd

theorem exec_dmsg (hq : dmaWaiting (cellOf s c).dma.q < 16) (hr : ScratchReads s c (gReg (coreOf s c) r1).toNat 64) :
    exec (.dmsg c r1 r2 ord) s = .next (queueTo s c
      (.msg (memBytes s (scrPA c (gReg (coreOf s c) r1).toNat) 64) (gReg (coreOf s c) r2).toNat (ord == 1))) := by
  change execDmsg c r1 r2 ord s = _
  rw [execDmsg, issue_cp3 h (by simp only [cp3Body]; rw [hd, if_neg Bool.false_ne_true, if_neg (by omega), dqRead_of_reads hr])]
  rfl

/-- DMSG stalls on a full queue. -/
theorem exec_dmsg_full (hq : 16 ≤ dmaWaiting (cellOf s c).dma.q) :
    exec (.dmsg c r1 r2 ord) s = .next (setCell s c (cellOf s c)) := by
  change execDmsg c r1 r2 ord s = _
  rw [execDmsg, issue_cp3 h (by simp only [cp3Body]; rw [hd, if_neg Bool.false_ne_true, if_pos hq])]
  rfl

end

/-! ### Descriptors that start (R207, R208) -/

/-- Item `i` of a cell's queue is a descriptor whose turn it is: the first that has not started, with fewer than four before it, no wait
to make and no deposit due. -/
structure DescTurn (s : State) (c i : Nat) (b : List Byte) (a : Word) (u : Bool) : Prop where
  notInReset : cellInReset s c = false
  first : firstQueued (cellOf s c).dma.q = some i
  item : (cellOf s c).dma.q[i]? = some (.desc b a u .queued)
  room : i < 4
  noWait : (cellOf s c).dma.wait = none
  noWaitBit : dWait b = false
  noDeposit : depositReady s c = false

section
variable {s : State} {c i : Nat} {b : List Byte} {a : Word} {u : Bool} (h : DescTurn s c i b a u)
include h

/-- A row that serves the descriptor's OP runs it. -/
theorem DescTurn.dmaStart_eq {serves : Nat → Bool} (hs : serves (dOp b) = true) : dmaStart s c none serves = dmaRun s c i none := by
  have hi : ¬ 4 ≤ i := by have := h.room; omega
  simp [dmaStart, h.notInReset, h.first, h.item, hs, hi, h.noWait, h.noWaitBit, h.noDeposit]

/-- A malformed descriptor ends with INVALID_FIELD. -/
theorem DescTurn.dmaRun_bad (hb : descBad b = true) : dmaRun s c i none = setPhase s c i (.ended 0x01) := by
  simp only [dmaRun, h.item, hb]
  rfl

/-- A descriptor that moves all its bytes unpoisoned ends with SUCCESS. -/
theorem DescTurn.dmaRun_done (hb : descBad b = false) (hu : u = true → descUserBad (cellOf s c) b = false) {d : DmaHold} {s' : State}
    (hg : dmaGo c (dFrom b) (dDst b) (dLen b) (dLen b / 2048 + 4) true ⟨dmaPlace (cellOf s c), 0, false, none, none⟩ s = (none, d, s'))
    (hd : d.bad = false) :
    dmaRun s c i none = setPhase (dropAsks s' (fun w => decide (w = .dma c d.k))) c i (.ended 0x00) := by
  have hu' : (u && descUserBad (cellOf s c) b) = false := by
    cases u with
    | false => rfl
    | true => simp [hu rfl]
  simp only [dmaRun, h.item, hb, hu', Bool.false_eq_true, if_false, DmaPhase.hold, Option.getD_none, Option.isNone_none, hg, hd]
  rfl

end

section
variable {s t : State} {c : Fin 256} {i : Nat} {b : List Byte} {a : Word} {u : Bool} (h : DescTurn s c i b a u)
  (ht : dmaRun s c i none = t)
include h ht

/-- DMA_COPY runs a descriptor of any OP but ZERO. -/
theorem DescTurn.exec_dmaCopy (ho : dOp b ≠ 1) : exec (.dmaCopy ⟨c, none⟩) s = .next (withQueue s t) := by
  change keepQueue s (.next (dmaStart s c none (fun o => o != 1))) = _
  rw [h.dmaStart_eq (serves := fun o => o != 1) (bne_iff_ne.2 ho), ht, keepQueue_of_next]

/-- DMA_ZERO runs a descriptor of OP ZERO. -/
theorem DescTurn.exec_dmaZero (ho : dOp b = 1) : exec (.dmaZero ⟨c, none⟩) s = .next (withQueue s t) := by
  change keepQueue s (.next (dmaStart s c none (fun o => o == 1))) = _
  rw [h.dmaStart_eq (serves := fun o => o == 1) (beq_iff_eq.2 ho), ht, keepQueue_of_next]

end

/-! ### Completion and messages (R63, R74, R207) -/

/-- The state once the reads that a descriptor in phase `ph` waits for are forgotten. -/
def dropHold (c : Nat) (ph : DmaPhase) (s : State) : State :=
  ph.hold.elim s (fun h => dropAsks s (fun w => decide (w = .dma c h.k)))

/-- The oldest descriptor, once it has ended, receives its STATUS and signals DONE. -/
theorem exec_dmaDescriptorComplete {s : State} {c : Fin 256} {b : List Byte} {a : Word} {u : Bool} {ph : DmaPhase} {st : Nat}
    {r : List DmaItem} (hr : cellInReset s c = false) (hq : (cellOf s c).dma.q = .desc b a u ph :: r) (he : dmaEnded s ph = some st)
    (hm : mergeBad s (scrPA c (a.toNat + 3)) 1 = false) :
    exec (.dmaDescriptorComplete c) s = .next (withQueue s (parkCheck (modCell
      (dropHold c ph (storeBytes (mergeFix s (scrPA c (a.toNat + 3)) 1) (scrPA c (a.toNat + 3)) (natLE 1 st) false)) c
      (fun x => if bit (le b 1 1) 7 then incSluice { x with dma := { x.dma with q := r } } (lef b 1 1 4 0) 1
        else { x with dma := { x.dma with q := r } })) c)) := by
  have hlen : (natLE 1 st).length = 1 := rfl
  change execDmaDescriptorComplete c s = _
  simp only [execDmaDescriptorComplete, hq, he, hr, Bool.false_eq_true, if_false, putMem_ok false (hlen ▸ hm), hlen,
    keepQueue_of_next, dropHold]
  cases ph.hold <;> rfl

/-- A message whose turn it is leaves while the router's local input has a credit for it. -/
theorem exec_dmsgSend {s : State} {c : Fin 256} {i : Nat} {data : List Byte} {dest : Nat} {ord : Bool} (hr : cellInReset s c = false)
    (hn : depositReady s c = false) (hf : firstQueued (cellOf s c).dma.q = some i)
    (hi : (cellOf s c).dma.q[i]? = some (.msg data dest ord)) (ho : ord = true → i = 0) {t : State}
    (ht : grantsBefore s (routerOf (blockOf c)) (c.val % 4) = t)
    (hc : sget 0 t.fab.held (credKey (routerOf (blockOf c)) 0 0 0) < 8) {p : Packet}
    (hp : p = ⟨dest, endpointOf c, 0, 0, (cellOf s c).turnout.toNat, 0, 0, 64, data, 0, 0, 0⟩) :
    exec (.dmsgSend c) s = .next (withQueue s (parkCheck (turnAfter (standAt
      (send (modCell t c (fun x => { x with dma := { x.dma with q := x.dma.q.eraseIdx i } })) p) p 1)
      (routerOf (blockOf c)) (c.val % 4)) c)) := by
  subst ht hp
  have hord : (ord && i != 0) = false := by
    cases ord with
    | false => rfl
    | true => simp [ho rfl]
  have hcredit : credit (grantsBefore s (routerOf (blockOf c)) (c.val % 4)) (credKey (routerOf (blockOf c)) 0 0 0) 1 = true :=
    decide_eq_true hc
  change execDmsgSend c s = _
  simp [execDmsgSend, hf, hi, hr, hord, hn, hcredit]

/-! ### The statement -/

/-- Settles O29: what CP3 takes into its queue, and how a descriptor and a message leave it. -/
theorem dmaDescriptors : Obligations.DmaDescriptors := by
  unfold Obligations.DmaDescriptors
  refine ⟨fun s c r1 r2 ord h => ⟨fun hq => ⟨exec_dq h hq, fun hr hd => exec_dmsg h ord hd hq hr⟩,
      fun hq => ⟨exec_dq_full h r1 hq, fun hd => exec_dmsg_full h ord hd hq⟩⟩,
    fun s s' c i b a u hr => ?starts, fun s c b a u ph st r hr => ?completes, fun s c i data dest ord hr hn => ?sends⟩
  case starts =>
    intro x hf hi h4 hw hb hn
    have h : DescTurn s c i b a u := ⟨hr, hf, hi, h4, hw, hb, hn⟩
    refine ⟨fun hok hu d hg hd => ?_, fun hbad => ?_⟩
    · have ht := h.dmaRun_done hok hu hg hd
      exact ⟨fun ho => h.exec_dmaCopy ht (by omega), h.exec_dmaZero ht⟩
    · have ht := h.dmaRun_bad hbad
      exact ⟨h.exec_dmaCopy ht, h.exec_dmaZero ht⟩
  case completes =>
    intro pa drop hq he hm
    have hdrop : drop = dropHold c ph := by
      funext t
      simp only [drop, dropHold]
      cases ph.hold <;> rfl
    rw [hdrop]
    exact exec_dmaDescriptorComplete hr hq he hm
  case sends =>
    intro x r t hf hi ho hc p
    exact exec_dmsgSend hr hn hf hi ho (t := t) rfl hc (p := p) rfl

end Sys2Proof.Machine
end

section
/-! The tensor coprocessor: the entry that a pipe of CP0 starts, and TMFC (O23). -/

namespace Sys2Proof.Machine

/-! ### Scratch accesses without an error (R134, R135) -/

/-- The ranges `rs` pass the checks of R134, and reading them gives `ls`, without a reset of the cell. -/
structure ScratchLoad (s : State) (c : Nat) (user : Bool) (rs : List (Nat × Nat)) (al : Bool) (ls : List (List Byte)) (t : State) :
    Prop where
  allowed : cpCheck (cellOf s c) user rs al .load = none
  reads : cpRead s c rs = (some ls, t)
  notInReset : cellInReset t c = false

/-- The ranges `rs` pass the checks of R134, and the pieces `ws` are written, without a reset of the cell. -/
structure ScratchStore (s : State) (c : Nat) (user : Bool) (rs : List (Nat × Nat)) (al : Bool) (ws : List (Nat × List Byte)) (t : State) :
    Prop where
  allowed : cpCheck (cellOf s c) user rs al .store = none
  merges : cpMergeBad s c ws = false
  puts : cpPut s c ws = t
  notInReset : cellInReset t c = false

theorem ScratchLoad.cpLoad_eq {s t : State} {c : Nat} {user al : Bool} {rs : List (Nat × Nat)} {ls : List (List Byte)}
    (h : ScratchLoad s c user rs al ls t) (k : Option (List (List Byte)) → State → State) : cpLoad s c rs k = k (some ls) t :=
  cpLoad_of_read h.reads h.notInReset k

theorem ScratchStore.cpStore_eq {s t : State} {c : Nat} {user al : Bool} {rs : List (Nat × Nat)} {ws : List (Nat × List Byte)}
    (h : ScratchStore s c user rs al ws t) (k : Bool → State → State) : cpStore s c ws k = k true t :=
  cpStore_of_put h.merges h.puts h.notInReset k

/-- A tile load that reads its rows fills the tile (R139). -/
theorem ScratchLoad.loadTile_eq {s t : State} {c : Nat} {e : CopEntry CP0Op} {rs : List (Nat × Nat)} {ls : List (List Byte)}
    (h : ScratchLoad s c e.user rs (mult8 e) ls t) (i n : Nat) (f : Fmt) (kq : Nat) (fill : List (List Byte) → List Nat) :
    loadTile s c i e n f kq rs fill = pop0 (modCell t c (fun x => setTile x n ⟨f, kq, fill ls, []⟩)) c i := by
  rw [loadTile, h.allowed]
  exact h.cpLoad_eq _

/-! ### What is written and merged (R142, R144) -/

/-- The pieces of a TRND: its rows, and the scales of an MX format from TSCALE_OUT on. -/
def trndPieces (x : Cell) (r1 r2 : Word) (f : Fmt) (rows : List (List Byte × Nat × NumFlags)) : List (Nat × List Byte) :=
  ((rowsAt r1 r2 32 0).zip (rows.map (fun r => r.1))).map (fun p => (p.1.1, p.2)) ++
    (if isMX f then rows.mapIdx (fun j r => ((tcr x 12 + BitVec.ofNat 32 j).toNat, natLE 1 r.2.1)) else [])

/-- The pieces of a TXP: the LAX record of each entry. -/
def txpPieces (b : Bank) (r1 r2 : Word) : List (Nat × List Byte) :=
  (laxSlots r1 r2).2.mapIdx (fun j r => (r.1, padTo 96 (bankAcc b (32 * (laxSlots r1 r2).1 + j)).toLAX))

/-- The entries of a bank from `first` on with records merged into them. -/
def mergeRecords (first : Nat) (m : SMap Acc) (ls : List (List Byte)) : SMap Acc :=
  ls.zipIdx.foldl (fun m p => smod Acc.zero m (first + p.2) (fun a => a.merge ((ofLAX p.1).getD Acc.zero))) m

/-- Merging the records of a list of optional ones, each numbered, is merging the byte strings they come from. -/
theorem foldl_zipIdx_ofLAX (first : Nat) (m : SMap Acc) (ls : List (List Byte)) :
    (ls.map ofLAX).zipIdx.foldl (fun m p => smod Acc.zero m (first + p.2) (fun a => a.merge (p.1.getD Acc.zero))) m =
      mergeRecords first m ls := by
  rw [List.zipIdx_map, List.foldl_map]
  rfl

/-! ### The entry that starts (R130) -/

/-- Entry `i` of CP0's queue, `e`, is the one that its pipe starts, in a cell that is not in reset. -/
structure Cp0Starts (s : State) (c : Nat) (mac : Bool) (i : Nat) (e : CopEntry CP0Op) : Prop where
  notInReset : cellInReset s c = false
  starts : startable (cellOf s c).t.q mac = some (i, e)

/-- A row whose body answers a state for the entry that starts answers that state. -/
theorem Cp0Starts.exec_eq {s u : State} {c : Fin 256} {mac : Bool} {i : Nat} {e : CopEntry CP0Op} {j : Instr}
    (h : Cp0Starts s c mac i e) {run : Nat → CopEntry CP0Op → Option State} {op : CP0Op} (he : e.op = op)
    (hj : exec j s = keepQueue s (start0 s c mac run)) (hu : run i { e with op := op } = some u) :
    exec j s = .next (withQueue s u) := by
  subst he
  rw [hj, start0, h.notInReset, h.starts]
  simp [hu]

/-- TMMA of two whole tiles of one K that its bank can add (R140, R141). -/
theorem Cp0Starts.exec_tmma {s : State} {c : Fin 256} {i : Nat} {e : CopEntry CP0Op} (h : Cp0Starts s c true i e) {k : BitVec 2}
    {a b : BitVec 3} {ord : BitVec 1} {ta tb : Tile} {bk : Bank} (he : e.op = .tmma k a b ord)
    (ha : tileOf (cellOf s c) a.toNat = some ta) (hb : tileOf (cellOf s c) (8 + b.toNat) = some tb) (hwa : tileWhole ta = true)
    (hwb : tileWhole tb = true) (hk : ta.kq = tb.kq)
    (hm : tmmaBank (bankOf (cellOf s c) k.toNat) (tmmaOrdered ord ta.fmt tb.fmt) ta tb = some bk) :
    exec (.tmma c) s = .next (withQueue s (pop0 (setCell s c (setBank (cellOf s c) k.toNat bk)) c i)) :=
  h.exec_eq he rfl (by simp [ha, hb, hwa, hwb, hk, hm])

section
variable {s t : State} {c : Fin 256} {i : Nat} {e : CopEntry CP0Op} (h : Cp0Starts s c false i e) {a b : BitVec 5}
include h

/-! ### Tile loads (R139) -/

theorem Cp0Starts.exec_tld {f : BitVec 5} {n : BitVec 4} {kq : BitVec 3} {ls : List (List Byte)} (he : e.op = .tld f a b n kq)
    (hl : ScratchLoad s c e.user (rowsAt e.r1 e.r2 32 (fmtBits (fmtOf f) * kOf kq.toNat / 8)) (mult8 e) ls t) :
    exec (.tld c) s = .next (withQueue s (pop0 (modCell t c (fun x => setTile x n.toNat
      ⟨fmtOf f, kq.toNat, unpackRows (fmtBits (fmtOf f)) (kOf kq.toNat) ls, []⟩)) c i)) :=
  h.exec_eq he rfl (congrArg some (hl.loadTile_eq i _ _ _ _))

theorem Cp0Starts.exec_tldt {f : BitVec 5} {n : BitVec 4} {kq : BitVec 3} {ls : List (List Byte)} (he : e.op = .tldt f a b n kq)
    (hl : ScratchLoad s c e.user (rowsAt e.r1 e.r2 (kOf kq.toNat) (fmtBits (fmtOf f) * 32 / 8)) (mult8 e) ls t) :
    exec (.tldt c) s = .next (withQueue s (pop0 (modCell t c (fun x => setTile x n.toNat ⟨fmtOf f, kq.toNat,
      (List.range 32).flatMap (fun r => (List.range (kOf kq.toNat)).map (fun k =>
        (unpackRows (fmtBits (fmtOf f)) 32 ls).getD (32 * k + r) 0)), []⟩)) c i)) :=
  h.exec_eq he rfl (congrArg some (hl.loadTile_eq i _ _ _ _))

/-- TLDS into a tile that has been loaded replaces its scales. -/
theorem Cp0Starts.exec_tlds {n : BitVec 4} {old : Tile} {ls : List (List Byte)} (he : e.op = .tlds a b n)
    (ho : tileOf (cellOf s c) n.toNat = some old) (hl : ScratchLoad s c e.user (rowsAt e.r1 e.r2 32 (old.kq + 1)) true ls t) :
    exec (.tlds c) s = .next (withQueue s (pop0 (modCell t c (fun x => setTile x n.toNat
      { old with scales := (ls.flatMap id).map BitVec.toNat })) c i)) :=
  h.exec_eq he rfl (by simp [ho, hl.allowed, hl.cpLoad_eq])

/-! ### What leaves and enters a bank (R142, R144) -/

theorem Cp0Starts.exec_trnd {f : BitVec 5} {rm : BitVec 3} {k : BitVec 2} {rows : List (List Byte × Nat × NumFlags)}
    {ws : List (Nat × List Byte)} (he : e.op = .trnd f a b rm k)
    (hrows : (List.range 32).map (trndRow (cellOf s c) k.toNat (fmtOf f) rm.toNat) = rows)
    (hws : trndPieces (cellOf s c) e.r1 e.r2 (fmtOf f) rows = ws)
    (hw : ScratchStore s c e.user (ws.map (fun w => (w.1, w.2.length))) (mult8 e) ws t) :
    exec (.trnd c) s = .next (withQueue s (pop0 (modCell t c (fun x => orT x (rows.foldl (fun a r => a ||| r.2.2) 0))) c i)) :=
  h.exec_eq he rfl (by
    have hc : cpCheck (cellOf s c) e.user _ (mult8 { e with op := .trnd f a b rm k }) .store = none := hw.allowed
    dsimp only
    rw [hrows, ← trndPieces, hws, hc]
    exact congrArg some (hw.cpStore_eq _))

theorem Cp0Starts.exec_txp {k : BitVec 2} {ws : List (Nat × List Byte)} (he : e.op = .txp k a b) (hr : laxRange e.r2 = false)
    (hws : txpPieces (bankOf (cellOf s c) k.toNat) e.r1 e.r2 = ws)
    (hw : ScratchStore s c e.user (laxSlots e.r1 e.r2).2 (e.r1.toNat % 32 == 0) ws t) :
    exec (.txp c) s = .next (withQueue s (pop0 t c i)) :=
  h.exec_eq he rfl (by
    dsimp only
    rw [hr, hw.allowed, ← txpPieces, hws]
    exact congrArg some (hw.cpStore_eq _))

/-- TIM of well-formed records into an exact or an empty bank. -/
theorem Cp0Starts.exec_tim {k : BitVec 2} {m : SMap Acc} {ls : List (List Byte)} (he : e.op = .tim k a b) (hr : laxRange e.r2 = false)
    (hb : bankOf (cellOf s c) k.toNat = .exact m ∨ bankOf (cellOf s c) k.toNat = .empty ∧ m = [])
    (hl : ScratchLoad s c e.user (laxSlots e.r1 e.r2).2 (e.r1.toNat % 32 == 0) ls t) (hls : ∀ l ∈ ls, (ofLAX l).isSome = true) :
    exec (.tim c) s = .next (withQueue s (pop0 (modCell t c (fun x => setBank x k.toNat
      (.exact (mergeRecords (32 * (laxSlots e.r1 e.r2).1) m ls)))) c i)) := by
  have hall : (ls.map ofLAX).any Option.isNone = false := by simpa [Option.isSome_iff_ne_none] using hls
  refine h.exec_eq he rfl ?_
  dsimp only
  rw [hr, hl.allowed]
  rcases hb with hb | ⟨hb, rfl⟩ <;>
    simp only [hl.cpLoad_eq, hall, hb, foldl_zipIdx_ofLAX, Bool.false_eq_true, if_false]

/-! ### Control registers and signals (R132) -/

/-- A TWAIT that has not begun ends where its sluice satisfies it, and else waits at the head. -/
theorem Cp0Starts.exec_twait {sl : BitVec 5} (hi : i = 0) (he : e.op = .twait a sl) (hw : (cellOf s c).t.wait = none) :
    exec (.twait c) s = .next (withQueue s (if waitDone (cellOf s c) (newWait s (cellOf s c) sl e.r1) then pop0 s c 0
      else modCell s c (fun x => { x with t := { x.t with wait := some (newWait s (cellOf s c) sl e.r1) } }))) :=
  h.exec_eq he rfl (by
    subst hi
    simp only [hw, Option.isSome_none, ne_eq, not_true_eq_false, Bool.false_eq_true, or_self, if_false]
    exact (apply_ite some _ _ _).symm)

end

/-- TMFC of a listed register reads it at once on an empty queue or while HALTED (R132). -/
theorem exec_tmfc {s : State} {c : Fin 256} {d : BitVec 5} {n : BitVec 7} (h : Ready s c) (hn : t0Listed n = true)
    (hq : (cellOf s c).t.q = [] ∨ (cellOf s c).t.halted = true) :
    exec (.tmfc c d n) s = .next (seqTo s c (setG (coreOf s c) d (tmfcRead (cellOf s c) n.toNat))) := by
  have hb : tmfcBody d n s (cellOf s c) =
      (s, .seq { cellOf s c with k := setG (coreOf s c) d (tmfcRead (cellOf s c) n.toNat) }) := by
    rcases hq with hq | hq <;> simp [tmfcBody, hn, hq]
  change execTmfc c d n s = _
  rw [execTmfc, issue_ready h, hb, h.notInReset]
  rfl

/-! ### The statement -/

/-- Settles O23: each row acts on the entry that its pipe starts as its operation says, and TMFC reads its register. -/
theorem tensor : Obligations.Tensor := by
  unfold Obligations.Tensor
  refine ⟨fun s s' c i e ls hr => ?tiles, fun s s' c i e hr => ⟨fun hs => ?banks, fun h d n => exec_tmfc h⟩⟩
  case tiles =>
    intro x done read
    refine ⟨fun hs => ?loads, fun hs k a b ord ta tb bk => Cp0Starts.exec_tmma ⟨hr, hs⟩⟩
    have h : Cp0Starts s c false i e := ⟨hr, hs⟩
    exact ⟨fun f a b n kq he ⟨hc, hl, ht⟩ => h.exec_tld he ⟨hc, hl, ht⟩, fun f a b n kq he ⟨hc, hl, ht⟩ => h.exec_tldt he ⟨hc, hl, ht⟩,
      fun a b n old he ho ⟨hc, hl, ht⟩ => h.exec_tlds he ho ⟨hc, hl, ht⟩, fun k he => h.exec_eq he rfl rfl⟩
  case banks =>
    have h : Cp0Starts s c false i e := ⟨hr, hs⟩
    refine ⟨fun f a b rm k he ⟨hc, hm, hp, ht⟩ => h.exec_trnd he rfl rfl ⟨hc, hm, hp, ht⟩,
      fun k a b he hn ⟨hc, hm, hp, ht⟩ => h.exec_txp he hn rfl ⟨hc, hm, hp, ht⟩,
      fun k a b m ls he hn hb hc hl ht => h.exec_tim he hn hb ⟨hc, hl, ht⟩, fun hi => ?control⟩
    case control =>
      subst hi
      exact ⟨fun a n he => h.exec_eq he rfl rfl, fun sl he => h.exec_eq he rfl rfl, fun a sl => h.exec_twait rfl⟩

end Sys2Proof.Machine
end

section
/-! Mimin's administrative calls and its kernels (O53). -/

namespace Sys2Proof.Machine

/-- A Mimin row acts on its entry where that is ready. -/
theorem exec_of_mimRun {s : State} {f : Fin 262144} {i : Fin 65536} {op : Nat} {e : Entry} {k : Entry → State} {c : Instr}
    (h : EntryReady s f i clMimin op e) (hc : exec c s = keepQueue s (mimRun f i op s k)) :
    exec c s = .next (withQueue s (k e)) := by
  rw [hc, mimRun, runEntry_ready h, keepQueue_of_next]

/-- The context that a CREATE's entry describes (R159). -/
def createdContext (t : Nat) (b : List Byte) : Context := {
  t := t, id := le b 16 4, layers := le b 20 1 + 1, groups := lef b 21 1 5 0 + 1, heads := lef b 22 1 4 0 + 1, d := le b 26 2,
  pfmt := (pageFmt (lef b 23 1 4 0)).getD .bf16, policy := lef b 24 1 4 2, recent := lef b 28 2 12 0, sumrsv := lef b 24 1 1 1 == 1,
  nsid := le b 32 4, first := le b 36 4, lgs := [], cuts := 0 }

/-- A layer-group with none of the listed pages pinned. -/
def LGroup.unpin (g : LGroup) (l : List Nat) : LGroup :=
  { g with pages := g.pages.map (fun p => if l.contains p.1 then (p.1, p.2.map (fun q => { q with pin := false })) else p) }

/-- The length that a TRUNCATE to `len` tokens leaves layer-group `j` of a context (R183). -/
def cutLength (x : Context) (len j : Nat) : Nat := max (64 * x.first) (min (sget ⟨64 * x.first, []⟩ x.lgs j).len len)

/-- The layer-groups that a TRUNCATE shortens. -/
def cutGroups (x : Context) (len : Nat) : SMap LGroup := x.lgs.filter (fun g => decide (cutLength x len g.1 < g.2.len))

/-- The context that a TRUNCATE leaves. -/
def truncatedContext (x : Context) (len : Nat) : Context := { x with
  lgs := (x.lgs.map (fun g => (g.1, truncGroup x len g.2))).filter (fun g => decide (g.2 ≠ ⟨64 * x.first, []⟩))
  cuts := if (cutGroups x len).isEmpty then x.cuts else x.cuts + 1 }

/-- Its shortened layer-groups: their last pages get new records. -/
def shortenedContext (x : Context) (len : Nat) : Context := { truncatedContext x len with
  lgs := (truncatedContext x len).lgs.filter (fun g => (cutGroups x len).any (fun h => h.1 == g.1)) }

section
variable {s : State} {f : Fin 262144} {i : Fin 65536} {e : Entry}

/-! ### CREATE and DESTROY (R157, R159, R188) -/

section
variable (h : EntryReady s f i clMimin 0x08 e) (hnew : ctxOf s (furOwner s f) (le e.b 16 4) = none)
include h hnew

theorem exec_miminCreate_noQuota (hq : (quotaOf s (furOwner s f)).contexts ≤ ctxCount s (furOwner s f)) :
    exec (.miminCreate f i) s = .next (withQueue s (endEntry s f i 0x03 noResult)) := by
  rw [exec_of_mimRun h rfl]
  simp [hnew, hq, stNoRes]

theorem exec_miminCreate_room (hq : ctxCount s (furOwner s f) < (quotaOf s (furOwner s f)).contexts)
    (hn : s.mim.ctxs.length < 262144) : exec (.miminCreate f i) s = .next (withQueue s
      (endEntry (setCtx s (furOwner s f) (le e.b 16 4) (some (createdContext (furOwner s f) e.b))) f i 0 0)) := by
  rw [exec_of_mimRun h rfl]
  simp [hnew, Nat.not_le.2 hq, Nat.not_le.2 hn, stOk, createdContext]

end

/-- DESTROY, with no call that was fetched before it left of its context, frees the pages of the context that it took. -/
theorem exec_miminDestroy_last {x : Context} (h : EntryReady s f i clMimin 0x09 e) (hx : e.ctx = some x)
    (hlast : s.infl.any (fun x => furClass s x.f == clMimin && decide (x.seq < e.seq) && furOwner s x.f == furOwner s f &&
      needsCtx x.op && le x.b 16 4 == le e.b 16 4) = false) :
    exec (.miminDestroy f i) s = .next (withQueue s (endEntry (tombPages s x (fun _ _ => true)) f i 0 noResult)) := by
  rw [exec_of_mimRun h rfl]
  simp only [hlast, hx]
  rfl

/-! ### PIN and UNPIN (R168) -/

section
variable (h : EntryReady s f i clMimin 0x0A e)
include h

/-- A PIN whose context a later call has taken. -/
theorem exec_pin_gone (hl : liveCtx s e (furOwner s f) (le e.b 16 4) = none) :
    exec (.pin f i) s = .next (withQueue s (endEntry s f i 0 noResult)) := by
  rw [exec_of_mimRun h rfl]
  simp only [hl]
  rfl

variable {x : Context} (hl : liveCtx s e (furOwner s f) (le e.b 16 4) = some x)
include hl

/-- A PIN of pages that the context no longer holds, with nothing cut from it since the fetch. -/
theorem exec_pin_outside (hr : mimRanges x e.b = false) (hc : cutSince e (some x) = false) :
    exec (.pin f i) s = .next (withQueue s (endEntry s f i 0x01 noResult)) := by
  rw [exec_of_mimRun h rfl]
  simp [hl, hr, hc, stField]

/-- Any other PIN moves the pages that the context holds, all or none. -/
theorem exec_pin_inside (hp : mimRanges x e.b = true ∨ cutSince e (some x) = true) {r : Option State}
    (hr : pinGo (furOwner s f) x.id (64 * le e.b 20 1 + lef e.b 21 1 5 0) (lef e.b 22 1 0 0)
      ((pinList e.b).filter (fun p => (x.page? (64 * le e.b 20 1 + lef e.b 21 1 5 0) p).isSome)) s = r) :
    exec (.pin f i) s = .next (withQueue s (r.elim (endEntry s f i 0x03 noResult) (fun u => endEntry u f i 0 noResult))) := by
  rw [exec_of_mimRun h rfl]
  rcases hp with hp | hp <;> cases r <;> simp [hl, hp, hr, stNoRes, stOk]

end

section
variable (h : EntryReady s f i clMimin 0x0B e)
include h

/-- An UNPIN whose context a later call has taken. -/
theorem exec_unpin_gone (hl : liveCtx s e (furOwner s f) (le e.b 16 4) = none) :
    exec (.unpin f i) s = .next (withQueue s (endEntry s f i 0 noResult)) := by
  rw [exec_of_mimRun h rfl]
  simp only [hl]
  rfl

variable {x : Context} (hl : liveCtx s e (furOwner s f) (le e.b 16 4) = some x)
include hl

/-- An UNPIN of pages that the context no longer holds, with nothing cut from it since the fetch. -/
theorem exec_unpin_outside (hr : mimRanges x e.b = false) (hc : cutSince e (some x) = false) :
    exec (.unpin f i) s = .next (withQueue s (endEntry s f i 0x01 noResult)) := by
  rw [exec_of_mimRun h rfl]
  simp [hl, hr, hc, stField]

/-- Any other UNPIN. -/
theorem exec_unpin_inside (hp : mimRanges x e.b = true ∨ cutSince e (some x) = true) {k : Nat}
    (hk : 64 * le e.b 20 1 + lef e.b 21 1 5 0 = k) : exec (.unpin f i) s = .next (withQueue s (endEntry
      (setCtx s (furOwner s f) x.id (some (x.setLg k ((sget ⟨64 * x.first, []⟩ x.lgs k).unpin (pinList e.b))))) f i 0 noResult)) := by
  subst hk
  rw [exec_of_mimRun h rfl]
  rcases hp with hp | hp <;> simp [hl, hp, stOk, LGroup.unpin]

end

/-! ### TRUNCATE (R183) -/

theorem exec_truncate_of_ctx {x : Context} (h : EntryReady s f i clMimin 0x0C e) (hx : ctxOf s (furOwner s f) (le e.b 16 4) = some x) :
    exec (.truncate f i) s = .next (withQueue s (endEntry (tombPages (storeEnds
      (setCtx s (furOwner s f) x.id (some (truncatedContext x (le e.b 20 5)))) (shortenedContext x (le e.b 20 5))) x
      (fun j p => decide (cutLength x (le e.b 20 5) j ≤ 64 * p))) f i 0 noResult)) := by
  rw [exec_of_mimRun h rfl]
  simp only [hx]
  rfl

/-! ### RUN (R187) -/

/-- A RUN that has read its mask and its kernel, `l`, into the state `u`. -/
structure RunReads (s u : State) (f : Fin 262144) (i : Fin 65536) (e : Entry) (l : List (List Byte)) : Prop where
  ready : EntryReady s f i clMimin 0x07 e
  serves : fwServes s = true
  fresh : runOf s f i = none
  reads : runMM s (eachMM [mimRead (ioOf e) (furOwner s f) (le e.b 32 8) 32,
    mimRead (ioOf e) (furOwner s f) (le e.b 48 8) (le e.b 56 4)]) = (.ok l, u)

/-- The record of a RUN on cells `cs` that starts in `u`: it waits for all of them, with the limit at byte 16 of its entry in µs. -/
def newRun (u : State) (f : Fin 262144) (i : Fin 65536) (e : Entry) (cs : List Nat) : RunRec :=
  { f := f, i := i, cells := cs, done := [], acc := 0, due := if le e.b 16 4 = 0 then 0 else u.clk + 1000 * le e.b 16 4 + 1,
    lost := [], wait := List.range cs.length }

/-- The state once a RUN's entry runs and its record stands. -/
def runEntered (u : State) (r : RunRec) : State :=
  let w := modEntry u r.f r.i (fun e => { e with ph := .running, snap := [0] })
  { w with mim := { w.mim with runs := w.mim.runs ++ [r] } }

section
variable {u : State} {l : List (List Byte)} (h : RunReads s u f i e l)
include h

/-- What the row gives once its reads are done, by the cells that the mask names. -/
theorem RunReads.exec_run {cs : List Nat} (hcs : maskCells (l.headD []) = cs) : exec (.run f i) s = .next (withQueue s (
    if ¬ ∀ c ∈ cs, c ∈ attnOf u (furOwner s f) then endEntry u f i 0x07 noResult
    else if cs = [] then endEntry u f i 0 0
    else if compStopped u 1 = true then endEntry u f i 0x0F noResult
    else takeCells (runEntered u (newRun u f i e cs)) f i (le e.b 40 8) (newRun u f i e cs) (l.getD 1 []))) := by
  obtain ⟨hent, hph, hcls, hop⟩ := h.ready
  subst hcs
  change execRun f i s = _
  simp [execRun, hent, hph, hcls, hop, h.serves, h.fresh, withData_ok srcMimin h.reads, stDenied, stOk, stFault, newRun, runEntered]

end

/-- Has the limit of a RUN passed; 0 is no limit (R187, R12). -/
theorem overdue_due_iff {r : RunRec} (h : r.due ≠ 0) : overdue s (r.due - 1) = true ↔ r.due ≤ s.clk := by
  simp only [overdue, decide_eq_true_eq]
  omega

/-- A RUN within its limit, with cells that have not freed yet or shares that are to run again, takes what has become free and runs
one share again. -/
theorem exec_run_waiting {u : State} {r : RunRec} {img : List Byte} (hr : runOf s f i = some r) (he : entryOf s f i = some e)
    (hcls : furClass s f = clMimin) (hop : e.op = 0x07) (hs : fwServes s = true) (hdue : r.due = 0 ∨ s.clk < r.due)
    (hw : r.wait ≠ [] ∨ r.lost ≠ []) (hc : compStopped s 1 = false)
    (hread : runMM s (mimRead (ioOf e) (furOwner s f) (le e.b 48 8) (le e.b 56 4)) = (.ok img, u)) {v : State}
    (hv : takeCells u f i (le e.b 40 8) r img = v) :
    exec (.run f i) s = .next (withQueue s (rerunShare v (furOwner s f) f i (le e.b 40 8) ((runOf v f i).getD r) img)) := by
  subst hv
  have hintime : ¬ (r.due ≠ 0 ∧ overdue s (r.due - 1) = true) := by
    rintro ⟨h0, hlate⟩
    rw [overdue_due_iff h0] at hlate
    omega
  have hneeds : (r.wait.isEmpty && r.lost.isEmpty) = false := by
    rcases hw with hw | hw <;> simp [hw]
  change execRun f i s = _
  simp [execRun, he, hcls, hop, hs, hr, hintime, hneeds, hc, withData_ok srcMimin hread]

/-- A RUN whose limit has passed. -/
theorem exec_runTimeout_expired {r : RunRec} (hr : runOf s f i = some r) (h0 : r.due ≠ 0) (hlate : r.due ≤ s.clk) :
    exec (.runTimeout f i) s = .next (withQueue s (endRun s r 0x10 noResult)) := by
  change execRunTimeout f i s = _
  simp [execRunTimeout, hr, h0, (overdue_due_iff h0).2 hlate, stTimeout]

end

/-! ### The statement -/

/-- Settles O53: what each administrative call ends with, and a RUN as it starts, as it waits for cells and as its limit passes. -/
theorem miminContexts : Obligations.MiminContexts := by
  unfold Obligations.MiminContexts
  intro s u f i e t b k ends
  refine ⟨fun h hnew => ⟨exec_miminCreate_noQuota h hnew, exec_miminCreate_room h hnew⟩, fun h x => exec_miminDestroy_last h,
    ⟨fun hl => ⟨fun h => exec_pin_gone h hl, fun h => exec_unpin_gone h hl⟩, fun x hl hp => ?inside, fun x hl hr hc => ?outside⟩,
    fun x hx h => exec_truncate_of_ctx h hx, fun h hs hr l hl => ?start, fun r hr => ⟨fun he hcls hop hs hdue hw hc img hread => ?waiting,
      exec_runTimeout_expired hr⟩⟩
  case inside =>
    rw [hl] at hp
    exact ⟨fun h => ⟨fun hg => exec_pin_inside h hl hp hg, fun hg => exec_pin_inside h hl hp hg⟩, fun h => exec_unpin_inside h hl hp rfl⟩
  case outside =>
    rw [hl] at hc
    exact ⟨fun h => exec_pin_outside h hl hr hc, fun h => exec_unpin_outside h hl hr hc⟩
  case start =>
    intro cs
    have hrun := RunReads.exec_run ⟨h, hs, hr, hl⟩ rfl
    refine ⟨fun hd => ?_, fun hd h0 => ?_, fun hd h0 hc => ?_, fun hd h0 hc => ?_⟩
    · exact hrun.trans (by rw [if_pos hd])
    all_goals rw [if_neg (not_not_intro hd)] at hrun
    · exact hrun.trans (by rw [if_pos h0])
    · exact hrun.trans (by rw [if_neg h0, if_pos hc])
    · exact hrun.trans (by rw [if_neg h0, if_neg (Bool.eq_false_iff.1 hc)]; rfl)
  case waiting => exact exec_run_waiting hr he hcls hop hs hdue hw hc hread rfl

end Sys2Proof.Machine
end

section
/-! A call of Mimin whose read resets the region it reads from (O52). -/

namespace Sys2Proof.Machine

/-! ### The call

ATTEND with an empty token range and a list of one page, page 0. Its buffer of 132 bytes lies at the base of region 0's reservoir: a row
of queries, the offset at byte 64, the list at byte 128. The word that holds the list has a single-bit error, and the reaction to
a corrected error of that reservoir is BRST (R422): reading the buffer answers its bytes and resets region 0. -/

/-- The base of region 0's reservoir. -/
def reservoirBase : Nat := 0x100_0000_0000

/-- The context: one layer, group and head, D = 4, and one page of tokens, never read. -/
def onePageCtx : Context := {
  t := 0x201, id := 0, layers := 1, groups := 1, heads := 1, d := 4, pfmt := .bf16, policy := 0, recent := 0, sumrsv := false, nsid := 0,
  first := 0, cuts := 0
  lgs := [(0, ⟨64, [(0, some
    { frame := List.replicate 1024 0, kmax := List.replicate 8 0, kmin := List.replicate 8 0, tier := 0, pin := false, read := 0 })]⟩)] }

/-- The entry: NPAGES at byte 32 is 1, the buffer's address stands at byte 48, the output goes to address 0, in HBM. -/
def listAttend : Entry := {
  f := 9, i := 0, b := putAt (putAt (natLE 64 1) 32 [1]) 48 (natLE 8 reservoirBase), head := 1, at_ := 0, seq := 0, ph := .fetched, snap := [],
  data := [], ctx := some onePageCtx, again := none, links := [] }

/-- The furrow of the entry, the firmware's. -/
def firmwareFurrow : Furrow := {
  owner := 0x201, cls := clMimin, sq := reservoirBase, cq := reservoirBase, log2 := 4, vec := 0, slot := 0, sched := 0, enabled := true,
  fault := false, pi := 0, head := 0, cqt := 0, cqh := 0, held := [], paging := 0, rang := [], waitq := [] }

/-- The operational device with the entry fetched, cell 5 its owner's attention cell. -/
def beforeRead : State :=
  let s := wr (wr State.reset f_GEN_STATE_STATE 5) (f_FLT_REACT_CE 0x140) 4
  let s := { s with
    boot := { s.boot with inRst := false, powered := true, stage := .done }
    m := { s.m with ecc := [((reservoirBase + 128) / 8, 1)] }
    infl := [listAttend]
    trn := { s.trn with q := [(0x201, { Quota.none with attn := nadd [] 5, contexts := 1 })] } }
  setCtx (setFur s 9 (some firmwareFurrow)) 0x201 0 (some onePageCtx)

/-- The read of its buffer. -/
def bufferRead : MM (List Byte) :=
  mimRead (ioOf listAttend) onePageCtx.t (le listAttend.b 48 8) (attendBuf onePageCtx listAttend.b)

/-- The state after the read: region 0 is in reset. -/
def afterRead : State := (runMM beforeRead bufferRead).2

/-- What ATTEND computes. -/
def listAttendDone : Done := (attend onePageCtx listAttend.b (List.replicate 132 0)).getD ⟨0, 0, []⟩

/-- The write of its output. -/
def outputWrite : MM Unit := writeAll (ioOf listAttend) (furOwner afterRead 9) listAttendDone.out

/-- The state after the write. -/
def outputWritten : State := (runMM afterRead outputWrite).2

/-- When page 0 of the context was last read, as a meaning's answer holds it. -/
def pageZeroRead : Ans → Option Nat
  | .next t => (ctxOf t 0x201 0).bind (fun x => (x.page? 0 0).map Page.read)
  | _ => none

/-! ### What the model gives for it -/

/-- A computation that answers a value answers it with the state that it leaves. -/
theorem runMM_of_toOption {α : Type} {s : State} {x : MM α} {a : α} (h : (runMM s x).1.toOption = some a) :
    runMM s x = (.ok a, (runMM s x).2) := by
  rcases hr : runMM s x with ⟨r, t⟩
  rw [hr] at h
  cases r with
  | error e => cases h
  | ok b => rw [Option.some.inj h]

theorem entryReady_listAttend : EntryReady beforeRead 9 0 clMimin 0x01 listAttend := by
  refine ⟨?_, rfl, ?_, ?_⟩ <;> decide +kernel

theorem runMM_bufferRead : runMM beforeRead bufferRead = (.ok (List.replicate 132 0), afterRead) :=
  runMM_of_toOption (by decide +kernel)

theorem attend_listAttend : attend onePageCtx listAttend.b (List.replicate 132 0) = some listAttendDone :=
  Option.eq_some_of_isSome (by decide +kernel)

theorem runMM_outputWrite : runMM afterRead outputWrite = (.ok (), outputWritten) :=
  runMM_of_toOption (by decide +kernel)

/-- After the read the list lies in a region in reset: the call seems to read no page. -/
theorem entryPages_afterRead : entryPages afterRead listAttend = [] := by decide +kernel

/-- In the model the call marks page 0 as read. -/
theorem exec_attend_reads_page : pageZeroRead (exec (.attend 9 0 0) beforeRead) = some 1 := by decide +kernel

/-- Refutes O52: ATTEND reads the pages that its list named before its buffer was read (`entryPages` of the state that it found, R166),
where the statement takes those of the state after the read; here that read resets the region that holds the list. -/
theorem not_miminCalls : ¬ Obligations.MiminCalls := by
  unfold Obligations.MiminCalls
  rintro ⟨hcalls, -⟩
  obtain ⟨hsingle, -⟩ := hcalls beforeRead afterRead outputWritten 9 0 listAttend rfl rfl (by decide +kernel)
  obtain ⟨hcontext, -⟩ := hsingle (by decide +kernel)
  obtain ⟨hattend, -⟩ := hcontext onePageCtx rfl
  have hexec := hattend entryReady_listAttend 0 _ listAttendDone runMM_bufferRead
  rw [entryPages_afterRead] at hexec
  have hread := congrArg pageZeroRead (hexec rfl attend_listAttend runMM_outputWrite)
  rw [exec_attend_reads_page] at hread
  exact absurd hread (by decide +kernel)

end Sys2Proof.Machine
end

section
/-! The CP2 instructions of a core and the end of a satisfied wait (O25). -/

namespace Sys2Proof.Machine

/-! ### Thresholds (R197) -/

/-- The test of a threshold in the words of R197. -/
theorem satisfies_iff {v t : Word} : satisfies v t = true ↔ (v - t).toNat < 2 ^ 31 := by
  rw [satisfies, Bool.not_eq_true', BitVec.msb_eq_decide, decide_eq_false_iff_not, Nat.not_le]

/-! ### The instructions (R196, R199, R200) -/

section
variable {s : State} {c : Fin 256} (h : Ready s c)
include h

/-- A CP2 instruction that answers the state it was given ends as it says. -/
theorem issue_cp2 {op : CP2Op} {o : KOut} (hb : cp2Body op s (cellOf s c) = (s, o)) :
    issue s c (cp2Body op) = finish s c o := by
  rw [issue_ready h, hb, h.notInReset, if_neg Bool.false_ne_true]

theorem exec_sinc (r sl : BitVec 5) : exec (.sinc c r sl) s =
    .next (finish s c (.seq (incSluice (cellOf s c) sl.toNat (gReg (coreOf s c) r)))) := by
  change execSinc c r sl s = _
  rw [execSinc, issue_cp2 h rfl]
  rfl

theorem exec_stest (d sl : BitVec 5) : exec (.stest c d sl) s =
    .next (seqTo s c (setG (coreOf s c) d (sluice (cellOf s c) sl.toNat))) := by
  change execStest c d sl s = _
  rw [execStest, issue_cp2 h rfl]
  rfl

/-- SWAIT completes where its sluice satisfies the threshold, and else stalls the core at it. -/
theorem exec_swait (r sl : BitVec 5) : exec (.swait c r sl) s =
    .next (if waitDone (cellOf s c) (newWait s (cellOf s c) sl (gReg (coreOf s c) r)) = true then seqTo s c (coreOf s c)
      else setCell s c { cellOf s c with k := { coreOf s c with run := .swait (newWait s (cellOf s c) sl (gReg (coreOf s c) r)) } }) := by
  change execSwait c r sl s = _
  split
  case isTrue hd => rw [execSwait, issue_cp2 h (by rw [cp2Body, if_pos hd])]; rfl
  case isFalse hd => rw [execSwait, issue_cp2 h (by rw [cp2Body, if_neg hd])]; rfl

theorem exec_sset (r sl : BitVec 5) (hu : userMode (coreOf s c) = false) : exec (.sset c r sl) s =
    .next (finish s c (.seq { cellOf s c with
      sl := { (cellOf s c).sl with s := sput 0 (cellOf s c).sl.s sl.toNat (gReg (coreOf s c) r) } })) := by
  change execSset c r sl s = _
  rw [execSset, issue_cp2 h (by rw [cp2Body, hu, if_neg Bool.false_ne_true])]
  rfl

/-- SSET is privileged (R199). -/
theorem exec_sset_user (r sl : BitVec 5) (hu : userMode (coreOf s c) = true) (hx : exl (coreOf s c) = false) :
    exec (.sset c r sl) s = .next (trapTo s c (coreOf s c) 0x02 0 (kEncode (.cp2 (.sset r sl))) (coreOf s c).pc) := by
  change execSset c r sl s = _
  rw [execSset, issue_cp2 h (by rw [cp2Body, if_pos hu]), finish_privileged h hx, keepQueue_of_pending (trapTo_pending ..)]

variable {n : BitVec 7} (hn : s2Listed n = true)
include hn

/-- SMTC of a listed register writes it, from user mode where the register is not reserved to supervisor writes. -/
theorem exec_smtc (r : BitVec 5) (hp : userMode (coreOf s c) = true → smtcPriv n.toNat = false) : exec (.smtc c r n) s =
    .next (finish s c (.seq (smtcWrite (cellOf s c) n.toNat (gReg (coreOf s c) r)))) := by
  have hpriv : ¬ (userMode (coreOf s c) && smtcPriv n.toNat) = true := by
    rw [Bool.and_eq_true]
    rintro ⟨hu, hr⟩
    exact absurd hr (by rw [hp hu]; exact Bool.false_ne_true)
  change execSmtc c r n s = _
  rw [execSmtc, issue_cp2 h (by rw [cp2Body, hn, Bool.not_true, if_neg Bool.false_ne_true, if_neg hpriv])]
  rfl

theorem exec_smfc (d : BitVec 5) : exec (.smfc c d n) s =
    .next (seqTo s c (setG (coreOf s c) d (smfcRead (cellOf s c) n.toNat))) := by
  change execSmfc c d n s = _
  rw [execSmfc, issue_cp2 h (by rw [cp2Body, hn, Bool.not_true, if_neg Bool.false_ne_true])]
  rfl

end

/-! ### The end of a wait (R197, R199) -/

/-- The state once the wait of an engine has ended: 0 core, 1 CP0, 2 CP1, 3 CP3. -/
def waitEnded (s : State) (c : Nat) : Nat → State
  | 0 => seqTo s c (coreOf s c)
  | 1 => parkCheck (setCell s c { cellOf s c with t := { (cellOf s c).t with wait := none, q := (cellOf s c).t.q.drop 1 } }) c
  | 2 => parkCheck (setCell s c { cellOf s c with v := { (cellOf s c).v with wait := none, q := (cellOf s c).v.q.drop 1 } }) c
  | _ => setCell s c { cellOf s c with dma := ⟨releaseFirst (cellOf s c).dma.q, none⟩ }

theorem waitOf_core {x : Cell} {w : Waiter} (h : x.k.run = .swait w) : waitOf x 0 = some w := by simp only [waitOf, h]

/-- The wait of an engine ends once its sluice satisfies its threshold. -/
theorem exec_sluiceWaitSatisfied {s : State} {c : Fin 256} {e : Fin 4} {w : Waiter} (hr : cellInReset s c = false)
    (hd : waitDone (cellOf s c) w = true) (hw : waitOf (cellOf s c) e = some w) :
    exec (.sluiceWaitSatisfied c e) s = .next (withQueue s (waitEnded s c e)) := by
  change execSluiceWaitSatisfied c e s = _
  simp only [execSluiceWaitSatisfied, hw, hr, hd, Bool.not_true, Bool.or_self, Bool.false_eq_true, if_false]
  match e with
  | 0 | 1 | 2 | 3 => rfl

/-! ### The statement -/

/-- Settles O25: each instruction completes with its effect on the cell, a wait by the test of R197, and a satisfied wait of each
engine ends. -/
theorem sluiceInstructions : Obligations.SluiceInstructions := by
  unfold Obligations.SluiceInstructions
  refine ⟨fun s c r sl n h => ⟨exec_sinc h r sl, exec_stest h r sl, ?swait, exec_sset h r sl, fun hn hp => exec_smtc h hn r hp,
      fun hn => exec_smfc h hn r, exec_sset_user h r sl⟩,
    fun s c w hr hd => ⟨fun hw => exec_sluiceWaitSatisfied hr hd (waitOf_core hw), exec_sluiceWaitSatisfied hr hd (e := 1),
      exec_sluiceWaitSatisfied hr hd (e := 2), exec_sluiceWaitSatisfied hr hd (e := 3)⟩⟩
  case swait =>
    rw [exec_swait h]
    exact congrArg Host.Outcome.next (ite_congr (propext satisfies_iff) (fun _ => rfl) (fun _ => rfl))

end Sys2Proof.Machine
end

section
/-! The watchdog of a wait, the inbox, the synchronisation dump and the inter-chip barrier (O26). -/

namespace Sys2Proof.Machine

/-! ### The watchdog of a wait (R214) -/

/-- A wait whose LIMIT has passed raises one event, and goes on with the watchdog fired. -/
theorem exec_waitWatchdogTimeout {s : State} {c : Fin 256} {e : Fin 4} {w : Waiter} (hw : waitOf (cellOf s c) e = some w)
    (hr : cellInReset s c = false) (hd : waitDone (cellOf s c) w = false) (hl : w.limit ≠ 0) (hf : w.fired = false)
    (ht : w.at_ + 1000 * w.limit ≤ s.clk) : exec (.waitWatchdogTimeout c e) s = .next (withQueue s
      (event (setCell s c (setWait (cellOf s c) e { w with fired := true })) c 1 0x05 (e.val + 4 * w.sl.toNat))) := by
  change execWaitWatchdogTimeout c e s = _
  simp [execWaitWatchdogTimeout, hw, hr, hd, hl, hf, Nat.not_lt.2 ht]

/-! ### The inbox (R201–R203) -/

/-- A message that the inbox takes joins its buffer. -/
theorem inboxArrive_accepted {s : State} {c : Nat} {p : Packet} (hr : cellInReset s c = false) (he : inboxEn (cellOf s c) = true)
    (hp : parked (cellOf s c) = false) (ho : p.owner = (cellOf s c).turnout.toNat ∨ p.owner = 0x201 ∨ p.owner = 0x202)
    (hb : (cellOf s c).sl.buf.length < 16) : inboxArrive s c p = some (setCell s c { cellOf s c with
      sl := { (cellOf s c).sl with buf := (cellOf s c).sl.buf ++ [⟨p.src, padTo 64 p.data, p.poison != 0⟩] } }) := by
  have hown : (p.owner == (cellOf s c).turnout.toNat || p.owner == 0x201 || p.owner == 0x202) = true := by
    simpa [or_assoc] using ho
  simp only [inboxArrive, hr, he, hp, hown, Bool.not_true, Bool.or_self, Bool.false_eq_true, if_false, ge_iff_le,
    Nat.not_le.2 hb]

/-- The oldest message for a cell, once it has reached the cell, is dealt with by its inbox. -/
theorem exec_inboxMessageArrival {s t u : State} {c : Fin 256} {p : Packet} (hf : s.fab.net.find? (isMsgFor c) = some p)
    (ha : arrive s p = (true, t)) (hi : inboxArrive t c p = some u) :
    exec (.inboxMessageArrival c) s = .next (withQueue s u) := by
  change execInboxMessageArrival c s = _
  simp [execInboxMessageArrival, hf, ha, hi]

/-- Where the inbox ring of a cell lies in its scratch (R204). -/
def ringBase (s : State) (c : Nat) : Nat := scratchPA c + ((cellOf s c).sl.ibase.toNat - 0x1000_0000)

/-- The entry of the ring that the next deposit fills (R201). -/
def depositIndex (x : Cell) : Nat := x.sl.iprod.toNat % inboxSize x

/-- The state with the payload of a message in its entry of the ring. -/
def payloadStored (s : State) (c : Nat) (m : InMsg) : State :=
  storeBytes s (ringBase s c + 64 * depositIndex (cellOf s c)) m.data m.poison

/-- Where the source record of the next deposit goes (R201). -/
def sourceRecordAt (s : State) (c : Nat) : Nat :=
  ringBase s c + 64 * inboxSize (cellOf s c) + 4 * depositIndex (cellOf s c)

/-- A deposit writes the oldest message and its source record into the ring, and counts IPROD and the inbox sluice. -/
theorem exec_inboxDeposit {s : State} {c : Fin 256} {m : InMsg} {r : List InMsg} (hm : (cellOf s c).sl.buf = m :: r)
    (hready : depositReady s c = true) (hmerge : mergeBad (payloadStored s c m) (sourceRecordAt s c) 4 = false) :
    exec (.inboxDeposit c) s = .next (withQueue s (modCell
      (storeBytes (mergeFix (payloadStored s c m) (sourceRecordAt s c) 4) (sourceRecordAt s c) (natLE 4 (m.src % 4096)) false) c
      (fun x => incSluice { x with sl := { x.sl with buf := r, iprod := x.sl.iprod + 1 } } (bits x.sl.icfg.toNat 4 0) 1))) := by
  have hput : putMem (payloadStored s c m) (sourceRecordAt s c) (natLE 4 (m.src % 4096)) false =
      (true, storeBytes (mergeFix (payloadStored s c m) (sourceRecordAt s c) 4) (sourceRecordAt s c) (natLE 4 (m.src % 4096)) false) :=
    putMem_ok false hmerge
  change execInboxDeposit c s = _
  simp only [execInboxDeposit, hm, hready, Bool.not_true, Bool.false_eq_true, if_false, keepQueue_of_next]
  exact congrArg (fun u => Host.Outcome.next (withQueue s (modCell u.2 c _))) hput

/-- A deposit is made while a message is buffered and the ring has room, in a cell whose clocks run. -/
theorem depositReady_of_room {s : State} {c : Nat} {m : InMsg} {r : List InMsg} (hm : (cellOf s c).sl.buf = m :: r)
    (hr : cellInReset s c = false) (hp : parked (cellOf s c) = false)
    (hroom : ((cellOf s c).sl.iprod - (cellOf s c).sl.icons).toNat < inboxSize (cellOf s c)) : depositReady s c = true := by
  simp only [depositReady, hm, hr, hp, hroom, List.isEmpty_cons, Bool.not_false, Bool.and_self, decide_true]

/-! ### The synchronisation dump (R215) -/

/-- A register keeps its value where another of the same reset value is written. -/
theorem regv_setReg_of_ne {s : State} {o p : Nat} {v : DWord} (h : p ≠ o) (hr : regReset p = regReset o) :
    regv (setReg s o v) p = regv s p := by
  rw [regv, regv, hr]
  exact regv_setReg_other h

/-- SLU_DUMP_AT is another register than SLU_DUMP_CTL. -/
theorem dumpAt_wr_arm (s : State) (v : Nat) : dumpAt (wr s f_SLU_DUMP_CTL_ARM v) = dumpAt s :=
  congrArg BitVec.toNat (regv_setReg_of_ne (by decide) (by decide +kernel))

theorem exec_sluDumpArm {s : State} (hb : barOpen s = true) (ha : rd s f_SLU_DUMP_CTL_ARM = 0) (ht : now s ≤ dumpAt s) :
    exec .sluDumpArm s =
      .next { wr (wr s f_SLU_DUMP_CTL_ARM 1) f_SLU_DUMP_CTL_LATE 0 with sync := { s.sync with image := [] } } := by
  have hlate : ¬ dumpAt (wr s f_SLU_DUMP_CTL_ARM 1) < now (wr s f_SLU_DUMP_CTL_ARM 1) := by
    rw [dumpAt_wr_arm]
    exact Nat.not_lt.2 ht
  change execSluDumpArm s = _
  simp only [execSluDumpArm, hb, ha, hlate, Bool.not_true, Bool.false_eq_true, Nat.zero_ne_one, if_false]
  rfl

theorem exec_dumpCapture {s : State} (ha : rd s f_SLU_DUMP_CTL_ARM = 1) (ht : dumpAt s ≤ now s) (hi : s.sync.image = []) :
    exec .dumpCapture s = .next { s with sync := { s.sync with image := dumpImage s } } := by
  change execDumpCapture s = _
  simp only [execDumpCapture, ha, hi, Nat.not_lt.2 ht, Nat.one_ne_zero, decide_false, List.isEmpty_nil, Bool.not_true, Bool.or_self,
    Bool.false_eq_true, if_false]
  rfl

/-- The dump ends once its image is written. -/
theorem exec_dumpDone {s t : State} (ha : rd s f_SLU_DUMP_CTL_ARM = 1) (hi : s.sync.image ≠ [])
    (hw : runMM s (writeSp (ioFor .firmware) 0x201 (dumpAddr s / 64 * 64) s.sync.image) = (.ok (), t)) :
    exec .dumpDone s = .next (withQueue s
      (wr (wr { t with sync := { t.sync with image := [] } } f_SLU_DUMP_CTL_DONE 1) f_SLU_DUMP_CTL_ARM 0)) := by
  change execDumpDone s = _
  simp [execDumpDone, ha, hi, hw]

/-! ### The time limit of a barrier (R212) -/

/-- Nothing happens to a barrier whose TMO does not run or has not passed. -/
theorem barExpire_running {s : State} {b : Nat} (h : (barOf s b).due = 0 ∨ s.clk < (barOf s b).due) : barExpire s b = s := by
  have : ¬ ((barOf s b).due ≠ 0 ∧ overdue s ((barOf s b).due - 1) = true) := by
    simp only [overdue, decide_eq_true_eq]
    omega
  rw [barExpire, if_neg this]

/-- A barrier whose TMO has passed releases its cells with TIMEOUT. -/
theorem barExpire_passed {s : State} {b : Nat} (h0 : (barOf s b).due ≠ 0) (h : (barOf s b).due ≤ s.clk) :
    barExpire s b = barRelease (rootFrames s b 0x10) b 0x10 := by
  have : (barOf s b).due ≠ 0 ∧ overdue s ((barOf s b).due - 1) = true := by
    simp only [overdue, decide_eq_true_eq]
    omega
  rw [barExpire, if_pos this, barTimeout]

theorem exec_barrierTimeout {s : State} {b : Fin 16} (h0 : (barOf s b).due ≠ 0) (h : (barOf s b).due ≤ s.clk) :
    exec (.barrierTimeout b) s = .next (withQueue s (barRelease (rootFrames s b 0x10) b 0x10)) := by
  change execBarrierTimeout b s = _
  rw [execBarrierTimeout, barExpire_passed h0 h, keepQueue_of_next]

/-- EN = 0 releases the cells that wait at the barrier. -/
theorem exec_barrierDisable {s : State} {b : Fin 16} (hb : barOpen s = true) (hy : rd s (f_SLU_BAR_STAT_BUSY b) = 1) :
    exec (.barrierDisable b) s = .next (withQueue s (wr (barRelease s b 0x10) (f_SLU_BAR_CFG_EN b) 0)) := by
  change execBarrierDisable b s = _
  simp only [execBarrierDisable, hb, hy, Bool.not_true, Bool.false_eq_true, if_false, if_true, keepQueue_of_next]

/-! ### Arrivals of cells (R211) -/

/-- The state with a cell among those that have arrived at a barrier, whose TMO the first arrival has started (R212). -/
def cellJoined (s : State) (b c : Nat) : State :=
  setBar (barStart s b) b { barOf (barStart s b) b with cells := nadd (barOf (barStart s b) b).cells c }

section
variable {s : State} {c : Fin 256} {b : Fin 16} {gen : Byte} (hen : rd s (f_SLU_BAR_CFG_EN b) = 1)
  (hdue : (barOf s b).due = 0 ∨ s.clk < (barOf s b).due) (hown : rd s (f_SLU_BAR_CFG_TURNOUT b) = (cellOf s c).turnout.toNat)
include hen hdue hown

/-- An arrival of the barrier's generation is counted and may complete it. -/
theorem exec_barrierArrive (hgen : rd s (f_SLU_BAR_STAT_GEN b) = gen.toNat) :
    exec (.barrierArrive c b gen) s = .next (withQueue s (barProgress
      (wr (cellJoined s b c) (f_SLU_BAR_STAT_ARRIVED b) (rd (cellJoined s b c) (f_SLU_BAR_STAT_ARRIVED b) + 1)) b true)) := by
  change execBarrierArrive c b gen s = _
  simp [execBarrierArrive, cellJoined, barArrive, barExpire_running hdue, hen, hown, hgen, Nat.not_le.2 b.isLt]

/-- An arrival of another generation is dropped and counted. -/
theorem exec_barrierArrive_dropped (hgen : rd s (f_SLU_BAR_STAT_GEN b) ≠ gen.toNat) :
    exec (.barrierArrive c b gen) s = .next (incF s (f_SLU_BAR_STAT_DROP b) 1) := by
  change execBarrierArrive c b gen s = _
  simp [execBarrierArrive, barArrive, barExpire_running hdue, hen, hown, hgen, Nat.not_le.2 b.isLt, barDrop, withQueue_wr, incF]

end

/-! ### Frames of the barrier on a link (R211) -/

/-- A valid frame on a native link in use acts on the state that its ACK, NAK and CREDIT leave. -/
theorem rxNat_active {s : State} {p : RxNat} (hn : lnkNative s p.n = true) (hl : lnkState s p.n = 2 ∨ lnkState s p.n = 3)
    (k : State → State) :
    rxNat s p k = .next (k (ackIn s p.n ⟨4, 0, 0, p.nak, p.ack.toNat, p.credit.map BitVec.toNat, []⟩)) := by
  have hst : (lnkState s p.n == lsActive || lnkState s p.n == lsSleep) = true := by
    simpa [lsActive, lsSleep] using hl
  simp only [rxNat, hn, hst, Bool.not_true, Bool.or_self, Bool.false_eq_true, if_false]

section
variable {s u : State} {b : Fin 16} {gen : Byte} {p : RxNat} (hn : lnkNative s p.n = true)
  (hl : lnkState s p.n = 2 ∨ lnkState s p.n = 3)
  (hu : u = ackIn s p.n ⟨4, 0, 0, p.nak, p.ack.toNat, p.credit.map BitVec.toNat, []⟩)
  (hen : rd u (f_SLU_BAR_CFG_EN b) = 1) (hgen : rd u (f_SLU_BAR_STAT_GEN b) = gen.toNat)
  (hdue : (barOf u b).due = 0 ∨ u.clk < (barOf u b).due)
include hn hl hu hen hgen hdue

/-- A root takes the first ARRIVE of a link that it awaits. -/
theorem exec_barrierArriveFrame (hroot : rd u (f_SLU_BAR_CFG_ROOT b) = 1)
    (hlink : bit (rd u (f_SLU_BAR_LINKS_LINKS b)) p.n = true) (hnew : bit (barOf u b).links p.n = false) :
    exec (.barrierArriveFrame p b gen) s = .next (withQueue s (barProgress
      (setBar (barStart u b) b { barOf (barStart u b) b with links := (barOf (barStart u b) b).links ||| 2 ^ p.n.val }) b false)) := by
  change execBarrierArriveFrame p b gen s = _
  rw [execBarrierArriveFrame, rxNat_active hn hl, ← hu, keepQueue_of_next, barExpire_running hdue]
  simp [hen, hgen, hroot, hlink, hnew]

/-- A member takes RELEASE on its uplink. -/
theorem exec_barrierReleaseFrame {st : Byte} (hroot : rd u (f_SLU_BAR_CFG_ROOT b) = 0)
    (hup : rd u (f_SLU_BAR_CFG_UPLINK b) = p.n) :
    exec (.barrierReleaseFrame p b gen st) s = .next (withQueue s (barRelease u b st.toNat)) := by
  change execBarrierReleaseFrame p b gen st s = _
  rw [execBarrierReleaseFrame, rxNat_active hn hl, ← hu, keepQueue_of_next, barExpire_running hdue]
  simp [hen, hgen, hroot, hup]

end

/-! ### The statement -/

/-- Settles O26: the watchdog of a wait, the two stages of the inbox, the three steps of a dump, and the barrier's arrivals, frames and
ends, each by the rule of its row; that a second arrival of one cell counts once more is the model's choice (log entry 19). -/
theorem sluicesAndBarriers : Obligations.SluicesAndBarriers := by
  unfold Obligations.SluicesAndBarriers
  refine ⟨⟨fun s c e w => exec_waitWatchdogTimeout, fun s s' c p hf ha hr he hp ho hb => ?message, fun s c m r hm hr => ?deposit,
      fun s => ⟨exec_sluDumpArm, exec_dumpCapture, fun s' => exec_dumpDone⟩⟩,
    fun s c b gen hen hdue hown => ⟨exec_barrierArrive hen hdue hown, exec_barrierArrive_dropped hen hdue hown⟩,
    fun s b gen st p hn hl => ?frames, fun s b => ⟨exec_barrierTimeout, exec_barrierDisable⟩⟩
  case message => exact exec_inboxMessageArrival hf ha (inboxArrive_accepted hr he hp ho hb)
  case deposit =>
    intro x size ring i s1 rec_ hroom hp hmerge
    exact exec_inboxDeposit hm (depositReady_of_room hm hr hp hroom) hmerge
  case frames =>
    intro u hen hgen hdue
    exact ⟨exec_barrierArriveFrame hn hl rfl hen hgen hdue, exec_barrierReleaseFrame hn hl rfl hen hgen hdue⟩

end Sys2Proof.Machine
end

section
/-! Owners of extents and granules, and the ends of their scrubs (O30). -/

namespace Sys2Proof.Machine

/-! ### Writes to an OWNER field (R221) -/

/-- What a write of owner `v` leaves, given the SCRUB and OWNER fields of the extent or granule. -/
def ownerWritten (s : State) (scrub owner : Fld) (v : Nat) : State :=
  match ownAct s (rd s scrub == 1) (rd s owner) v with
  | .none => s
  | .refuse => writeIgnored s
  | .give => wr s owner v
  | .free => wr s scrub 1

section
variable {s : State} (hb : barOpen s = true)
include hb

theorem exec_extentOwnerWrite (e : Fin 1024) (v : BitVec 10) :
    exec (.extentOwnerWrite e v) s = .next (ownerWritten s (f_TRN_EXT_SCRUB e) (f_TRN_EXT_OWNER e) v.toNat) := by
  change execExtentOwnerWrite e v s = _
  simp only [execExtentOwnerWrite, hb, Bool.not_true, Bool.false_eq_true, if_false, ownerWritten]
  cases ownAct s (rd s (f_TRN_EXT_SCRUB e) == 1) (rd s (f_TRN_EXT_OWNER e)) v.toNat <;> rfl

theorem exec_granuleOwnerWrite (g : Fin 4096) (v : BitVec 10) :
    exec (.granuleOwnerWrite g v) s = .next (ownerWritten s (f_TRN_GRAN_SCRUB g) (f_TRN_GRAN_OWNER g) v.toNat) := by
  change execGranuleOwnerWrite g v s = _
  simp only [execGranuleOwnerWrite, hb, Bool.not_true, Bool.false_eq_true, if_false, ownerWritten]
  cases ownAct s (rd s (f_TRN_GRAN_SCRUB g) == 1) (rd s (f_TRN_GRAN_OWNER g)) v.toNat <;> rfl

end

section
variable {s : State} {scrub owner : Fld} {v : Nat}

/-- During a scrub every write is refused. -/
theorem ownerWritten_scrubbing (h : rd s scrub = 1) : ownerWritten s scrub owner v = writeIgnored s := by
  simp [ownerWritten, ownAct, h]

variable (h : rd s scrub = 0)
include h

/-- What is free goes to an ACTIVE turnout or to the firmware. -/
theorem ownerWritten_give (ho : rd s owner = 0x200) (hv : v < 0x200 ∧ turnActive s v = true ∨ v = 0x201) :
    ownerWritten s scrub owner v = wr s owner v := by
  have hact : ownAct s false 0x200 v = .give := by
    rcases hv with ⟨hlt, ha⟩ | rfl
    · have hne : v ≠ 0x200 := by omega
      simp [ownAct, hne, hlt, ha]
    · simp [ownAct]
  simp [ownerWritten, h, ho, hact]

/-- What is owned is freed by its scrub. -/
theorem ownerWritten_free (hlt : rd s owner < 0x202) (hne : rd s owner ≠ 0x200) :
    ownerWritten s scrub owner 0x200 = wr s scrub 1 := by
  have howned : rd s owner < 0x200 ∨ rd s owner = 0x201 := by omega
  have hact : ownAct s false (rd s owner) 0x200 = .free := by simp [ownAct, hne, hne.symm, howned]
  simp [ownerWritten, h, hact]

end

/-! ### The ends of scrubs (R241) -/

theorem exec_extentScrubDone {s : State} {e : Fin 1024} (h : rd s (f_TRN_EXT_SCRUB e) = 1) :
    exec (.extentScrubDone e) s = .next (extentScrubbed s e) := by
  change execExtentScrubDone e s = _
  rw [execExtentScrubDone, if_pos h]
  rfl

theorem exec_granuleScrubDone {s : State} {g : Fin 4096} (h : rd s (f_TRN_GRAN_SCRUB g) = 1) :
    exec (.granuleScrubDone g) s = .next (granuleScrubbed s g) := by
  change execGranuleScrubDone g s = _
  rw [execGranuleScrubDone, if_pos h]
  rfl

/-- The reservoir in the physical map. -/
theorem areaOf_reservoir {a : Nat} (h1 : 0x100_0000_0000 ≤ a) (h2 : a < 0x101_0000_0000) :
    areaOf a = .rsv ((a - 0x100_0000_0000) / 0x10_0000) := by
  rw [areaOf, if_neg (by omega), if_pos ⟨h1, h2⟩]

/-- A granule reads zero after its scrub. -/
theorem memByte_granuleScrubbed (s : State) (g : Fin 4096) {a : Nat} (h1 : 0x100_0000_0000 + g.val * 0x10_0000 ≤ a)
    (h2 : a < 0x100_0000_0000 + (g.val + 1) * 0x10_0000) : memByte (granuleScrubbed s g) a = 0 := by
  have hg := g.isLt
  simp only [memByte, areaOf_reservoir (a := a) (by omega) (by omega), granuleScrubbed, wr_m]
  exact sget_sclear_in h1 (by omega)

/-! ### The statement -/

/-- Settles O30: the three outcomes of an OWNER write, the same for extents and granules, and what the end of a scrub leaves. -/
theorem memoryOwners : Obligations.MemoryOwners := by
  unfold Obligations.MemoryOwners
  refine fun s e g v => ⟨fun hb => ?_, exec_extentScrubDone,
    fun h => ⟨exec_granuleScrubDone h, fun a => memByte_granuleScrubbed s g⟩⟩
  rw [exec_extentOwnerWrite hb, exec_granuleOwnerWrite hb]
  refine ⟨fun h => by rw [ownerWritten_scrubbing h], fun h => by rw [ownerWritten_scrubbing h], fun hv => ?give, ?free⟩
  case give =>
    have hv' : v.toNat < 0x200 ∧ turnActive s v.toNat = true ∨ v.toNat = 0x201 := hv.imp_right (congrArg BitVec.toNat)
    exact ⟨fun h ho => by rw [ownerWritten_give h ho hv'], fun h ho => by rw [ownerWritten_give h ho hv']⟩
  case free =>
    rintro rfl
    exact ⟨fun h hlt hne => congrArg _ (ownerWritten_free h hlt hne), fun h hlt hne => congrArg _ (ownerWritten_free h hlt hne)⟩

end Sys2Proof.Machine
end

section
/-! Walks, invalidations and page requests (O31). -/

namespace Sys2Proof.Machine

/-! ### Walks (R222–R224, R227) -/

/-- The translation that a walk caches: the whole of its leaf. -/
def leafEntry (k : Fin 17) (t : Fin 512) (ta : BitVec 48) (l : Leaf) : TlbEntry :=
  ⟨k, t, ta.toNat / 2 ^ l.sh * 2 ^ l.sh, 2 ^ l.sh, l.pa, l.r, l.w⟩

/-- A translation enters the caches in place of the walker's earlier one of that range. -/
def tlbCached (s : State) (e : TlbEntry) : State := { s with lev := { s.lev with
  tlb := e :: s.lev.tlb.filter (fun x => !(x.wk == e.wk && x.t == e.t && x.ta == e.ta)) } }

section
variable {s s' : State} {k : Fin 17} {t : Fin 512} {ta : BitVec 48} {w : Bool} {who : PReq} {src : Fin 10}

theorem exec_translationWalk_leaf {l : Leaf} (h : runMM s (walkRoot t ta.toNat w) = (.ok l, s')) :
    exec (.translationWalk k t ta w who src) s = .next (withQueue s (tlbCached s' (leafEntry k t ta l))) := by
  change execTranslationWalk k t ta w who src s = _
  simp only [execTranslationWalk, h, keepQueue_of_next]
  rfl

theorem exec_translationWalk_page {t' p : Nat} {w' : Bool} (h : runMM s (walkRoot t ta.toNat w) = (.error (.page t' p w'), s')) :
    exec (.translationWalk k t ta w who src) s = .next (withQueue s (raisePage s' who src t' p w')) := by
  change execTranslationWalk k t ta w who src s = _
  simp only [execTranslationWalk, h, keepQueue_of_next]

end

/-! ### Invalidations (R224) -/

theorem exec_trnInv {s : State} {sc : BitVec 4} {t : Fin 512} (hb : barOpen s = true) (hgo : rd s f_TRN_INV_CTL_GO = 0)
    (hsc : sc.toNat < 4) : exec (.trnInv sc t) s =
      .next (wr (wr (wr s f_TRN_INV_CTL_SCOPE sc.toNat) f_TRN_INV_CTL_TURNOUT t) f_TRN_INV_CTL_GO 1) := by
  change execTrnInv sc t s = _
  simp only [execTrnInv, hb, hgo, hsc, Bool.not_true, Bool.false_eq_true, Nat.zero_ne_one, if_false, if_true, keepQueue_of_next]
  rw [withQueue_same (by simp only [wr_pending])]

/-- An invalidation ends with no open access that it covers: what it covers leaves the caches. -/
theorem exec_trnInvComplete {s : State} (hgo : rd s f_TRN_INV_CTL_GO = 1) (hcells : ∀ p ∈ s.cells, accessOpen s p.1 = false)
    (hread : readOpen s = false) : exec .trnInvComplete s = .next (wr (invalidate s) f_TRN_INV_CTL_GO 0) := by
  have hdone : (decide (rd s f_TRN_INV_CTL_GO = 0) || s.cells.any (fun p => accessOpen s p.1) || readOpen s) = false := by
    rw [hgo, List.any_eq_false.2 (fun p hp => Bool.eq_false_iff.1 (hcells p hp)), hread]
    rfl
  change execTrnInvComplete s = _
  simp only [execTrnInvComplete, hdone, Bool.false_eq_true, if_false, keepQueue_of_next]
  rfl

/-! ### Page requests (R227–R229) -/

/-- Has a page request a requester whose deadline has not passed. -/
def pageLive (s : State) (q : PageReq) : Bool := q.waiters.any (fun w => inTime s w.2)

/-- A request's record has been written. -/
def recordSent (s : State) (slot : Nat) : State := { s with lev := { s.lev with
  prq := s.lev.prq.map (fun p => if p.slot == slot then { p with sent := true } else p) } }

/-- The record of an unsent request is written where the ring has room. -/
theorem exec_prqRecordWrite {s s' : State} {x : Furrow} {q : PageReq} (hx : furOf s (rd s f_TRN_PRQ_FURROW_FURROW) = some x)
    (hq : s.lev.prq.find? (fun q => !q.sent && pageLive s q) = some q) (hen : x.enabled = true) (hcls : x.cls = clPrq)
    (hroom : (x.cqt - x.cqh).toNat < x.depth)
    (hpost : ringPost s (rd s f_TRN_PRQ_FURROW_FURROW) (prqBytes q) true = (s', .ok)) :
    exec .prqRecordWrite s = .next (withQueue s (recordSent s' q.slot)) := by
  have hready : (!x.enabled || x.cls != clPrq || decide (x.depth ≤ (x.cqt - x.cqh).toNat)) = false := by
    rw [hen, hcls, decide_eq_false (Nat.not_le.2 hroom)]
    rfl
  unfold pageLive at hq
  change execPrqRecordWrite s = _
  simp only [execPrqRecordWrite, hx, hq, hready, hpost, Bool.false_eq_true, if_false, keepQueue_of_next]
  rfl

section
variable {s : State} {e : Entry}
  (he : s.infl.find? (fun e => e.f == rd s f_TRN_PRQ_FURROW_FURROW && furClass s (rd s f_TRN_PRQ_FURROW_FURROW) == clPrq) = some e)
include he

/-- A PR_DONE of an outstanding request gives each requester its outcome, once the slot is free. -/
theorem exec_prDone_live {q : PageReq} (hq : s.lev.prq.find? (fun q => q.gen * 4096 + q.slot == le e.b 16 4 && pageLive s q) = some q)
    (hbad : prDoneBad e.b = false) : exec .prDone s = .next (withQueue s (q.waiters.foldl (fun u w =>
      pageOutcome u w.1 (pageKey q.page q.w) (prOutcome u (le e.b 20 1 == 0) w.2))
      (freeReqs (dropEntry s (rd s f_TRN_PRQ_FURROW_FURROW) e.i) (fun p => p.slot == q.slot)))) := by
  have hq' : (dropEntry s (rd s f_TRN_PRQ_FURROW_FURROW) e.i).lev.prq.find? (fun q => q.gen * 4096 + q.slot == le e.b 16 4 &&
    q.waiters.any (fun w => inTime (dropEntry s (rd s f_TRN_PRQ_FURROW_FURROW) e.i) w.2)) = some q := hq
  change execPrDone s = _
  simp only [execPrDone, he, hq', hbad, Bool.false_eq_true, if_false, keepQueue_of_next]

/-- A PR_DONE of no outstanding request is counted as stale. -/
theorem exec_prDone_stale (hq : s.lev.prq.find? (fun q => q.gen * 4096 + q.slot == le e.b 16 4 && pageLive s q) = none) :
    exec .prDone s = .next (withQueue s (incF (dropEntry s (rd s f_TRN_PRQ_FURROW_FURROW) e.i) f_TRN_PRQ_STALE_V 1)) := by
  have hq' : (dropEntry s (rd s f_TRN_PRQ_FURROW_FURROW) e.i).lev.prq.find? (fun q => q.gen * 4096 + q.slot == le e.b 16 4 &&
    q.waiters.any (fun w => inTime (dropEntry s (rd s f_TRN_PRQ_FURROW_FURROW) e.i) w.2)) = none := hq
  change execPrDone s = _
  simp only [execPrDone, he, hq', keepQueue_of_next]

end

/-- In time for its deadline a requester has the answer, else the outcome of the deadline. -/
theorem prOutcome_eq (s : State) (served : Bool) (dl : Nat) : prOutcome s served dl = if s.clk ≤ dl then some served else none := by
  simp only [prOutcome, inTime, decide_eq_true_eq]

/-- A requester whose deadlines have passed leaves the request in a slot. -/
def waiterLeft (s : State) (who : PReq) (slot : Nat) : State := { s with lev := { s.lev with
  prq := s.lev.prq.map (fun p => if p.slot == slot then
    { p with waiters := p.waiters.filter (fun w => !(decide (w.1 = who) && overdue s w.2)) } else p) } }

/-- A requester past its deadline leaves its request, and the requests that nobody waits on free their slots. -/
theorem exec_pageRequestDeadline {s : State} {who : PReq} {q : PageReq}
    (hq : s.lev.prq.find? (fun q => q.waiters.any (fun w => decide (w.1 = who) && overdue s w.2)) = some q) :
    exec (.pageRequestDeadline who) s = .next (withQueue s (pageOutcome
      (freeReqs (waiterLeft s who q.slot) (fun p => p.waiters.isEmpty)) who (pageKey q.page q.w) none)) := by
  change execPageRequestDeadline who s = _
  simp only [execPageRequestDeadline, hq, keepQueue_of_next]
  rfl

/-! ### The statement -/

/-- Settles O31: walks, invalidations and page requests, each by the rule of its row. -/
theorem translation : Obligations.Translation := by
  unfold Obligations.Translation
  refine fun s => ⟨fun k t ta w who src => ⟨fun l s' => exec_translationWalk_leaf, fun t' p w' s' => exec_translationWalk_page⟩,
    fun sc t => exec_trnInv, exec_trnInvComplete, fun x q s' => exec_prqRecordWrite,
    fun e he => ⟨fun q hq hbad => ?_, exec_prDone_stale he⟩, fun who q => exec_pageRequestDeadline⟩
  simpa only [prOutcome_eq] using exec_prDone_live he hq hbad

end Sys2Proof.Machine
end

section
/-! Doorbells that reach the device (O32). -/

namespace Sys2Proof.Machine

/-- An update of a furrow in use. -/
theorem modFur_of_some {s : State} {f : Nat} {x : Furrow} (h : furOf s f = some x) (g : Furrow → Furrow) :
    modFur s f g = setFur s f (some (g x)) := by simp only [modFur, h]

/-! ### What a doorbell's value is (R234) -/

/-- Does PI move forward, by at most the ring's depth beyond HEAD. -/
def takesPi (x : Furrow) (v : Word) : Prop :=
  0 < (v - x.head).toNat ∧ (v - x.head).toNat ≤ x.depth ∧ 0 < (v - x.pi).toNat ∧ (v - x.pi).toNat < 2 ^ 31

/-- A furrow after its doorbell: PI, and the port that rang. -/
def rungBy (x : Furrow) (link : Option (Fin 16)) (v : Word) : Furrow :=
  { x with pi := v, rang := x.rang ++ [(v.toNat, match link with | some k => k.val + 1 | none => 0)] }

/-- Does CQH move forward, up to CQT. -/
def takesCqh (x : Furrow) (v : Word) : Prop := 0 < (v - x.cqh).toNat ∧ (v - x.cqh).toNat ≤ (x.cqt - x.cqh).toNat

/-- What a value that is not taken leaves: it is dropped within the depth behind the current one, and counted elsewhere. -/
def dbDropped (s : State) (cur v : Word) (depth : Nat) : State := if (cur - v).toNat ≤ depth then s else dbBad s

/-- A counted doorbell leaves the queue. -/
theorem withQueue_dbBad (s : State) : withQueue s (dbBad s) = dbBad s := rfl

theorem keepQueue_dbStale (s : State) (cur v : Word) (depth : Nat) :
    keepQueue s (if dbStale cur v depth = true then .next s else .next (dbBad s)) = .next (dbDropped s cur v depth) := by
  simp only [dbStale, decide_eq_true_eq, dbDropped]
  split <;> rfl

section
variable {s : State} {loc : DbLoc} {link : Option (Fin 16)} (hr : dbReaches s loc link = true) (v : Word)
include hr

/-! ### Doorbells of no furrow in use -/

theorem exec_doorbell_unused (hf : dbFurrow s loc = none) (form : Bool) :
    exec (.doorbellPi loc link form v) s = .next (dbBad s) ∧ exec (.doorbellCqh loc link form v) s = .next (dbBad s) := by
  change execDoorbellPi loc link form v s = _ ∧ execDoorbellCqh loc link form v s = _
  simp only [execDoorbellPi, execDoorbellCqh, hr, hf, Bool.not_true, Bool.false_eq_true, if_false, keepQueue_of_next,
    withQueue_dbBad, and_self]

variable {f : Nat} {x : Furrow} (hf : dbFurrow s loc = some f) (hx : furOf s f = some x)
include hf hx

/-! ### Doorbells of no accepted form -/

theorem exec_doorbell_badForm :
    exec (.doorbellPi loc link false v) s = .next (dbBad s) ∧ exec (.doorbellCqh loc link false v) s = .next (dbBad s) := by
  change execDoorbellPi loc link false v s = _ ∧ execDoorbellCqh loc link false v s = _
  simp only [execDoorbellPi, execDoorbellCqh, hr, hf, hx, Bool.not_true, Bool.not_false, Bool.false_eq_true, if_false, if_true,
    keepQueue_of_next, withQueue_dbBad, and_self]

/-! ### Doorbells that a furrow answers -/

variable {v}

theorem exec_doorbellPi_taken (h : takesPi x v) :
    exec (.doorbellPi loc link true v) s = .next (setFur s f (some (rungBy x link v))) := by
  unfold takesPi at h
  change execDoorbellPi loc link true v s = _
  simp only [execDoorbellPi, hr, hf, hx, Bool.not_true, Bool.false_eq_true, if_false]
  rw [if_pos h, keepQueue_of_next, modFur_of_some hx]
  rfl

theorem exec_doorbellPi_dropped (h : ¬ takesPi x v) :
    exec (.doorbellPi loc link true v) s = .next (dbDropped s x.pi v x.depth) := by
  unfold takesPi at h
  change execDoorbellPi loc link true v s = _
  simp only [execDoorbellPi, hr, hf, hx, Bool.not_true, Bool.false_eq_true, if_false]
  rw [if_neg h, keepQueue_dbStale]

theorem exec_doorbellCqh_taken (h : takesCqh x v) :
    exec (.doorbellCqh loc link true v) s = .next (setFur s f (some { x with cqh := v })) := by
  unfold takesCqh at h
  change execDoorbellCqh loc link true v s = _
  simp only [execDoorbellCqh, hr, hf, hx, Bool.not_true, Bool.false_eq_true, if_false]
  rw [if_pos h, keepQueue_of_next, modFur_of_some hx]
  rfl

theorem exec_doorbellCqh_dropped (h : ¬ takesCqh x v) :
    exec (.doorbellCqh loc link true v) s = .next (dbDropped s x.cqh v x.depth) := by
  unfold takesCqh at h
  change execDoorbellCqh loc link true v s = _
  simp only [execDoorbellCqh, hr, hf, hx, Bool.not_true, Bool.false_eq_true, if_false]
  rw [if_neg h, keepQueue_dbStale]

end

/-! ### The statement -/

/-- Settles O32: PI and CQH each by what their value is, and the doorbells that no furrow answers. -/
theorem doorbells : Obligations.Doorbells := by
  unfold Obligations.Doorbells
  refine fun s loc link v hr => ⟨fun f x hf hx => ?_, fun hf form => exec_doorbell_unused hr v hf form⟩
  exact ⟨exec_doorbellPi_taken hr hf hx, exec_doorbellPi_dropped hr hf hx, exec_doorbellCqh_taken hr hf hx,
    exec_doorbellCqh_dropped hr hf hx, exec_doorbell_badForm hr v hf hx⟩

end Sys2Proof.Machine
end

section
/-! Furrow commands, the fetch of entry HEAD and the completion of an ended entry (O33). -/

namespace Sys2Proof.Machine

/-! ### Furrow commands (R237) -/

/-- RESULT is none of the registers that hold a furrow's context. -/
theorem fctx_fresult (s : State) (st : Nat) {n : Nat} (hn : n < 4) : fctx (fresult s st) n = fctx s n := by
  refine congrArg BitVec.toNat (regv_setReg_of_ne ?_ ?_)
  · simp only [f_DSP_FCMD_RESULT]
    omega
  · have hall : ∀ k : Fin 4, regReset (0x900020 + 8 * k.val) = regReset f_DSP_FCMD_RESULT.key := by decide +kernel
    exact hall ⟨n, hn⟩

/-- A RESULT written leaves the queue. -/
theorem withQueue_fresult (s : State) (st : Nat) : withQueue s (fresult s st) = fresult s st := rfl

/-- The frozen furrow that DSP_FCTX describes. -/
def createdFurrow (s : State) : Furrow :=
  ⟨bits (fctx s 2) 63 54, bits (fctx s 2) 53 50, fctx s 0, fctx s 1, bits (fctx s 2) 49 45, bits (fctx s 2) 44 34,
    bits (fctx s 2) 33 20, bits (fctx s 2) 19 16, false, false, 0, 0, 0, 0, [], 0, [], []⟩

/-- DSP_FCTX as READ leaves it. -/
def contextShown (s : State) (x : Furrow) : State :=
  setReg (setReg (setReg (setReg s 0x900020 (BitVec.ofNat 64 x.sq)) 0x900028 (BitVec.ofNat 64 x.cq)) 0x900030
    (BitVec.ofNat 64 (x.owner * 2 ^ 54 + x.cls * 2 ^ 50 + x.log2 * 2 ^ 45 + x.vec * 2 ^ 34 + x.slot * 2 ^ 20 + x.sched * 2 ^ 16)))
    0x900038 (x.pi ++ x.head)

theorem contextShown_pending (s : State) (x : Furrow) : (contextShown s x).pending = s.pending := by
  simp only [contextShown, setReg_pending]

section
variable {s : State} (hb : barOpen s = true)
include hb

section
variable (hf : furOf s (rd s f_DSP_FSEL_FURROW) = none)
include hf

/-- A command other than CREATE needs an ID in use. -/
theorem exec_furrowCommand_unused {i : Instr} (hi : i = .furrowEnable ∨ i = .furrowFreeze ∨ i = .furrowRelease ∨ i = .furrowRead) :
    exec i s = .next (fresult s stField) := by
  have hrefused : execFurrowEnable s = .next (fresult s stField) ∧ execFurrowFreeze s = .next (fresult s stField) ∧
      execFurrowRelease s = .next (fresult s stField) ∧ execFurrowRead s = .next (fresult s stField) := by
    simp only [execFurrowEnable, execFurrowFreeze, execFurrowRelease, execFurrowRead, hb, hf, Bool.not_true, Bool.false_eq_true,
      if_false, keepQueue_of_next, withQueue_fresult, and_self]
  obtain ⟨henable, hfreeze, hrelease, hread⟩ := hrefused
  rcases hi with rfl | rfl | rfl | rfl
  · exact henable
  · exact hfreeze
  · exact hrelease
  · exact hread

theorem exec_furrowCreate_refused (h : createStatus s ≠ 0) : exec .furrowCreate s = .next (fresult s (createStatus s)) := by
  change execFurrowCreate s = _
  simp only [execFurrowCreate, hb, hf, Bool.not_true, Bool.false_eq_true, if_false]
  rw [if_pos (show createStatus s ≠ stOk from h), keepQueue_of_next, withQueue_fresult]

theorem exec_furrowCreate_made (h : createStatus s = 0) :
    exec .furrowCreate s = .next (setFur (fresult s 0) (rd s f_DSP_FSEL_FURROW) (some (createdFurrow s))) := by
  change execFurrowCreate s = _
  simp only [execFurrowCreate, hb, hf, h, fctx_fresult s 0 (show 0 < 4 by decide), fctx_fresult s 0 (show 1 < 4 by decide), stOk,
    Bool.not_true, Bool.false_eq_true, ne_eq, not_true_eq_false, if_false, keepQueue_of_next]
  rfl

end

section
variable {x : Furrow} (hx : furOf s (rd s f_DSP_FSEL_FURROW) = some x)
include hx

theorem exec_furrowCreate_used : exec .furrowCreate s = .next (fresult s stField) := by
  change execFurrowCreate s = _
  simp only [execFurrowCreate, hb, hx, Bool.not_true, Bool.false_eq_true, if_false, keepQueue_of_next, withQueue_fresult]

/-- A frozen furrow of an owner that may run starts with its held completions. -/
theorem exec_furrowEnable_frozen (hen : x.enabled = false) (ho : x.owner = 0x201 ∨ turnActive s x.owner = true) :
    exec .furrowEnable s = .next (withQueue s (flushHeld (fresult s stOk) (rd s f_DSP_FSEL_FURROW))) := by
  have hact : (decide (x.owner ≠ 0x201) && !turnActive s x.owner) = false := by
    rcases ho with ho | ho <;> simp [ho]
  change execFurrowEnable s = _
  simp only [execFurrowEnable, hb, hx, hact, hen, Bool.not_true, Bool.false_eq_true, if_false, keepQueue_of_next]

theorem exec_furrowFreeze_used : exec .furrowFreeze s =
    .next (setFur (fresult s stOk) (rd s f_DSP_FSEL_FURROW) (some { x with enabled := false })) := by
  have hx' : furOf (fresult s stOk) (rd s f_DSP_FSEL_FURROW) = some x := hx
  change execFurrowFreeze s = _
  simp only [execFurrowFreeze, hb, hx, modFur_of_some hx', Bool.not_true, Bool.false_eq_true, if_false]
  rfl

theorem exec_furrowRelease_idle (hen : x.enabled = false) (hi : furIdle s (rd s f_DSP_FSEL_FURROW) = true) :
    exec .furrowRelease s = .next (withQueue s (cplFreed (setFur
      (dropWaiters (fresult s stOk) (fun w => decide (w = .ring (rd s f_DSP_FSEL_FURROW)))) (rd s f_DSP_FSEL_FURROW) none))) := by
  change execFurrowRelease s = _
  simp only [execFurrowRelease, hb, hx, hen, hi, Bool.not_true, Bool.false_eq_true, if_false, keepQueue_of_next]

theorem exec_furrowRead_used : exec .furrowRead s = .next (contextShown (fresult s stOk) x) := by
  change execFurrowRead s = _
  simp only [execFurrowRead, hb, hx, Bool.not_true, Bool.false_eq_true, if_false, keepQueue_of_next]
  exact congrArg _ (withQueue_same (contextShown_pending _ x))

end

end

/-! ### The fetch of entry HEAD (R235) -/

/-- Entry HEAD as it is held in flight. -/
def headEntry (u : State) (f : Fin 262144) (x : Furrow) (b : List Byte) : Entry :=
  let e0 : Entry := ⟨f, entryIndex u f x, b, (x.head + 1).toNat, u.clk, u.seq, .fetched, [], [], none, none, []⟩
  { e0 with links := bindLinks u x e0 }

/-- HEAD has moved on, and its entry `e` is in flight. -/
def headTaken (u : State) (f : Fin 262144) (x : Furrow) (e : Entry) : State :=
  let t := modFur u f (fun x => { x with
    head := x.head + 1, paging := 0, rang := x.rang.filter (fun p => decide (1 < (BitVec.ofNat 32 p.1 - x.head).toNat)) })
  { t with
    infl := t.infl ++ [e]
    seq := t.seq + 1
    mim := { t.mim with
      waited := ndel t.mim.waited (f.val * 2 ^ 32 + x.head.toNat)
      last := if x.cls = clMimin then f.val else t.mim.last }
    cip := { t.cip with last := if x.cls = clCipher then f.val else t.cip.last } }

/-- Answers that are dropped leave what self-test has found. -/
@[simp] theorem dropAsks_boot (s : State) (p : PReq → Bool) : (dropAsks s p).boot = s.boot := rfl

theorem exec_furrowFetch {s s' : State} {f : Fin 262144} {x : Furrow} {b : List Byte} (hx : furOf s f = some x)
    (hready : ringReady x = true) (hflr : flrStops s x.owner = false)
    (hread : runMM s (readSp (ioFor (.ring f)) x.owner (x.sq + 64 * (x.head.toNat % x.depth)) 64) = (.ok b, s'))
    (hadm : admits s f x b = true) (hturn : itsTurn s f x = true) (hcls : nin s'.boot.badCls x.cls = false) :
    exec (.furrowFetch f) s =
      let u := dropAsks s' (fun w => decide (w = .ring f.val))
      let e := headEntry u f x b
      .next (withQueue s (fetched (headTaken u f x e) e x)) := by
  have hstop : (!ringReady x || flrStops s x.owner) = false := by
    rw [hready, hflr]
    rfl
  change execFurrowFetch f s = _
  simp only [execFurrowFetch, hx, hstop, hread, hadm, hturn, Bool.not_true, Bool.false_eq_true, if_false, keepQueue_of_next]
  refine congrArg (fun t => Host.Outcome.next (withQueue s t)) (if_neg ?_)
  rw [modFur_boot, dropAsks_boot, hcls]
  exact Bool.false_ne_true

/-! ### The completion of an ended entry (R235) -/

/-- An ended entry of a class without a rule of its own for completions leaves, its completion is posted, and its class releases what it
held. -/
theorem complete_ended {u s' : State} {f i st res w : Nat} {e : Entry} {x : Furrow} (he : entryOf u f i = some e)
    (hx : furOf u f = some x) (hph : e.ph = .ended st res) (hc : canComplete u e = true) (hsto : x.cls ≠ clStorage)
    (hmim : x.cls ≠ clMimin) (hprq : x.cls ≠ clPrq) (hw : resultWord (dropEntry u f i) x.cls res = (w, s')) :
    complete u f i = release (postCpl s' f ⟨e.cid, w, e.head, st, e.irq, e.seq⟩) x.cls e st := by
  simp only [complete, he, hx, hph, hc, hw, hsto, hmim, hprq, Bool.not_true, Bool.false_eq_true, false_and, if_false]

theorem exec_entryCompletion (s : State) (f : Fin 262144) (i : Fin 65536) :
    exec (.entryCompletion f i) s = .next (withQueue s (complete (drainEnd s) f i)) := rfl

/-! ### The statement -/

/-- Settles O33: the furrow commands by whether the ID is in use, the fetch of entry HEAD, and the completion of an ended entry. -/
theorem furrowCommands : Obligations.FurrowCommands := by
  unfold Obligations.FurrowCommands
  refine ⟨fun s hb => ⟨fun hf => ?unused, fun x hx => ?used⟩,
    fun s s' f x b hx hready hflr hread hadm hturn hcls => exec_furrowFetch hx hready hflr hread hadm hturn hcls,
    fun s s' f i e x st res w he hx hph hc hsto hmim hprq hw => ?complete⟩
  case unused =>
    exact ⟨fun i hi => exec_furrowCommand_unused hb hf hi, exec_furrowCreate_refused hb hf, exec_furrowCreate_made hb hf⟩
  case used =>
    exact ⟨exec_furrowCreate_used hb hx, exec_furrowEnable_frozen hb hx, exec_furrowFreeze_used hb hx, exec_furrowRelease_idle hb hx,
      exec_furrowRead_used hb hx⟩
  case complete => rw [exec_entryCompletion, complete_ended he hx hph hc hsto hmim hprq hw]

end Sys2Proof.Machine
end

section
/-! Port requests, function resets, port resets and power states (O34). -/

namespace Sys2Proof.Machine

/-! ### What the shared updates do -/

/-- A free value below `n`: the next one is another. -/
theorem exists_freshBelow (s : State) {n : Nat} (hn : 0 < n) :
    ∃ d, d < n ∧ freshBelow s n = (d, { s with free := s.free + 1 }) :=
  ⟨_, Nat.mod_lt _ hn, rfl⟩

/-- An upstream port reads as it was updated. -/
theorem upOf_modUp {s : State} (h : swf UpPort.reset s.pcie.ups = true) (p : Nat) (g : UpPort → UpPort) :
    upOf (modUp s p g) p = g (upOf s p) := sget_sput_same h

/-- The enabled VFs are read from VF Enable and NumVFs alone. -/
theorem vfsOf_congr {s t : State} {p : Nat} (he : (upOf t p).vfEn = (upOf s p).vfEn)
    (hn : (upOf t p).numVfs = (upOf s p).numVfs) : vfsOf t p = vfsOf s p := by simp only [vfsOf, he, hn]

/-- To withdraw wakes is to write HEP_WAKE and the ports: what neither of them holds stays. -/
theorem withdraw_keeps {α : Type} (g : State → α) (hr : ∀ t o v, g (setReg t o v) = g t)
    (hp : ∀ t c, g { t with pcie := c } = g t) (s : State) (q : Wake → Bool) : g (withdraw s q) = g s := by
  rw [withdraw, hp, foldl_keeps g (fun t w => hr t _ _)]

@[simp] theorem withdraw_clk (s : State) (q : Wake → Bool) : (withdraw s q).clk = s.clk :=
  withdraw_keeps State.clk (fun _ _ _ => rfl) (fun _ _ => rfl) s q

@[simp] theorem withdraw_boot (s : State) (q : Wake → Bool) : (withdraw s q).boot = s.boot :=
  withdraw_keeps State.boot (fun _ _ _ => rfl) (fun _ _ => rfl) s q

/-! ### Requests toward the ports (R250, R253) -/

section
variable {s : State} {port : Fin 34} {tag : Fin 16384}

/-- A completion of no request is discarded and logged. -/
theorem exec_pcieCompletion_unexpected (h : npFind s port tag = none) (st : Fin 3) (p : Bool) (data : List Byte) :
    exec (.pcieCompletion port tag st p data) s = .next (aerLog s (portFn port) 16) := by
  change execPcieCompletion port tag st p data s = _
  rw [execPcieCompletion, h]
  rfl

variable {r : NpReq} (h : npFind s port tag = some r)
include h

/-- A successful completion answers its request with the data, poisoned data logged and marked. -/
theorem exec_pcieCompletion_success (p : Bool) (data : List Byte) :
    exec (.pcieCompletion port tag 0 p data) s = .next (withQueue s (npReply
      (if p = true then aerLog s (issuer s port r.owner) 12 else s) r (b2n p) (padTo r.len data))) := by
  change execPcieCompletion port tag 0 p data s = _
  rw [execPcieCompletion, h]
  rfl

/-- An error completion ends its request without data. -/
theorem exec_pcieCompletion_error {st : Fin 3} (hst : st ≠ 0) (p : Bool) (data : List Byte) :
    exec (.pcieCompletion port tag st p data) s = .next (withQueue s (npReply s r 3 [])) := by
  change execPcieCompletion port tag st p data s = _
  simp only [execPcieCompletion, h, if_pos hst, keepQueue_of_next]

/-- A request whose timeout has passed, and may, ends without data. -/
theorem exec_pcieCompletionTimeout_passed (hen : bit (fnOf s (issuer s port r.owner)).devCtl2 4 = false)
    (hlate : r.at_ + cplTimeout (bits (fnOf s (issuer s port r.owner)).devCtl2 3 0) < s.clk) :
    exec (.pcieCompletionTimeout port tag) s =
      .next (withQueue s (npReply (aerLog s (issuer s port r.owner) 14) r 3 [])) := by
  change execPcieCompletionTimeout port tag s = _
  simp only [execPcieCompletionTimeout, h, hen, overdue, hlate, decide_true, Bool.not_true, Bool.or_self, Bool.false_eq_true,
    if_false, keepQueue_of_next]

end

/-! ### Function resets (R260–R262) -/

/-- The progress of the FLR of a turnout's VF, recorded. -/
def setFlr (s : State) (t : Nat) (x : Option Flr) : State :=
  { s with pcie := { s.pcie with flr := sput none s.pcie.flr t x } }

/-- An FLR begins now; its furrows stop fetching within 0.1 to 0.3 µs. -/
theorem exists_flrEnter (s : State) (t : Nat) :
    ∃ d, d ≤ 200 ∧ flrEnter s t = setFlr { s with free := s.free + 1 } t (some ⟨s.clk, false, s.clk + 100 + d⟩) := by
  obtain ⟨d, hd, hfresh⟩ := exists_freshBelow s (show 0 < 201 by decide)
  refine ⟨d, by omega, ?_⟩
  rw [flrEnter, hfresh]
  rfl

/-- The turnout's furrows are frozen and its entries ABORTED, those that can complete completed. -/
def flrAborted (s : State) (t : Nat) (f : Flr) : State :=
  abortOwner (freezeOwner (setFlr s t (some { f with cut := true })) t) t

/-- The VF is at its reset values, its FLR over and pending for the manager. -/
def flrEnded (v : State) (t : Nat) : State :=
  let w := setFlr (fnReset v t) t none
  wr w (f_TRN_FLR_PEND_V (t / 32)) (rd w (f_TRN_FLR_PEND_V (t / 32)) ||| 2 ^ (t % 32))

section
variable {s : State} {t : Fin 512}

section
variable (hv : vfExists s t = true)
include hv

theorem exec_flrInitiate : exec (.flrInitiate t) s = .next (withQueue s (seen (flrStart s t) 8)) := by
  change execFlrInitiate t s = _
  rw [execFlrInitiate, if_pos hv, keepQueue_of_next]

theorem exec_flrInitiate_starts (hf : inFlr s t = false) (ht : turnState s t ≠ 4) :
    ∃ d, d ≤ 200 ∧ exec (.flrInitiate t) s =
      .next (seen (setFlr { s with free := s.free + 1 } t (some ⟨s.clk, false, s.clk + 100 + d⟩)) 8) := by
  obtain ⟨d, hd, henter⟩ := exists_flrEnter s t
  have hstart : flrStart s t = flrEnter s t := by simp [flrStart, hf, ht]
  refine ⟨d, hd, ?_⟩
  rw [exec_flrInitiate hv, hstart, henter]
  rfl

/-- An FLR in progress absorbs another, with a record under its port. -/
theorem exec_flrInitiate_absorbed (hf : inFlr s t = true) :
    exec (.flrInitiate t) s = .next (withQueue s (seen (infoEvent s (0x178 + t.val / 256) 0x07 9 2) 8)) := by
  have hstart : flrStart s t = infoEvent s (0x178 + t.val / 256) 0x07 9 2 := by simp only [flrStart, hf, if_true]; rfl
  rw [exec_flrInitiate hv, hstart]

end

section
variable {f : Flr} (h : sget none s.pcie.flr t = some f)
include h

theorem exec_flrTlpCutoff_passed (hlate : f.at_ + 2000 < s.clk) :
    exec (.flrTlpCutoff t) s = .next (setFlr s t (some { f with cut := true })) := by
  have hno : ¬ inTime s (f.at_ + 2000) = true := by
    rw [inTime, decide_eq_true_eq]
    omega
  change execFlrTlpCutoff t s = _
  simp only [execFlrTlpCutoff, h, if_neg hno]
  rfl

theorem exec_flrComplete_done (hdue : f.at_ + 2000 ≤ s.clk) (hidle : inFlight (flrAborted s t f) t = false) :
    exec (.flrComplete t) s = .next (withQueue s
      (msix (flrEnded (flrAborted s t f) t) fnPF0 (rd (flrEnded (flrAborted s t f) t) f_TRN_CFG_VEC))) := by
  have hno : ¬ s.clk < f.at_ + 2000 := by omega
  have hidle' : ¬ inFlight (flrAborted s t f) t = true := by rw [hidle]; exact Bool.false_ne_true
  change execFlrComplete t s = _
  simp only [execFlrComplete, h, if_neg hno]
  exact congrArg (keepQueue s) (if_neg hidle')

end
end

section
variable {s : State} {p : Fin 2}

/-- VF Enable cleared or NumVFs reduced: an FLR of each VF above the new count. -/
theorem exec_vfDisable_reduced {n : Fin 257} (he : (upOf s p).vfEn = true) (hn : n.val < (upOf s p).numVfs) :
    exec (.vfDisable p n) s = .next (withQueue s (modUp
      (((vfsOf s p).filter (fun t => decide (n.val ≤ t % 256))).foldl flrStart s) p
      (fun u => { u with vfEn := decide (0 < n.val), numVfs := n }))) := by
  change execVfDisable p n s = _
  simp only [execVfDisable, he, Nat.not_le.2 hn, Bool.not_true, Bool.false_eq_true, decide_false, Bool.or_self, if_false,
    keepQueue_of_next]

/-- The PF0 of a port at its reset values, after an FLR of each of its VFs. -/
def pf0Reset (s : State) (p fn : Nat) : State := fnReset (sriovReset (seen s 8) p) fn

/-- An FLR of the companion PF0. -/
theorem exec_pfFlr_companion (h : pf0Of s p = 513) : exec (.pfFlr p) s = .next (withQueue s (pf0Reset s p 513)) := by
  change execPfFlr p s = _
  simp only [execPfFlr, h, pf0Reset, Nat.reduceEqDiff, if_false, keepQueue_of_next]

/-- An FLR of the manager PF0 ends the entries of its furrows whose rings lie behind the port. -/
theorem exec_pfFlr_manager (h : pf0Of s p = 512) : exec (.pfFlr p) s = .next (withQueue s (endAll (pf0Reset s p 512)
    (fun e => match furOf (pf0Reset s p 512) e.f with
      | some x => x.owner == 0x201 && (behindUp p x.sq || behindUp p x.cq)
      | none => false) 0x05)) := by
  change execPfFlr p s = _
  simp only [execPfFlr, h, if_true, keepQueue_of_next]
  rfl

end

/-! ### The reset sources of the upstream ports (R258, R259, R403, R406) -/

theorem exec_portReset (s : State) (p : Fin 2) : exec (.portReset p) s = .next (withQueue s (portReset s p)) := rfl

/-- A source whose level is PORT resets its port. -/
theorem portSource_port {s : State} {i : Nat} (h : sourceLevel s i = 5) (p : Nat) :
    portSource s i p = portReset (seen s i) p := by simp only [portSource, h]

section
variable {s : State} {p : Fin 2} {width : Word}

/-- A low time that the filter takes for certain. -/
theorem exec_perstAssert_acts (hw : 1040 ≤ width.toNat) : ∃ d, 960 ≤ d ∧ d ≤ 1040 ∧ exec (.perstAssert ⟨p, width⟩) s =
    .next (withQueue s (portSource (modUp { s with free := s.free + 1 } p
      (fun u => { u with perst := true, link := false, perstHold := s.clk + max (width.toNat - d) 10000 })) (2 + p) p)) := by
  obtain ⟨d, hd, hfresh⟩ := exists_freshBelow s (show 0 < 81 by decide)
  have hno : ¬ width.toNat < 960 + d := by omega
  refine ⟨960 + d, by omega, by omega, ?_⟩
  change execPerstAssert ⟨p, width⟩ s = _
  simp only [execPerstAssert, hfresh, if_neg hno, keepQueue_of_next]

/-- A low time that the filter never takes. -/
theorem exec_perstAssert_ignored (hw : width.toNat < 960) :
    exec (.perstAssert ⟨p, width⟩) s = .next { s with free := s.free + 1 } := by
  obtain ⟨d, -, hfresh⟩ := exists_freshBelow s (show 0 < 81 by decide)
  have hyes : width.toNat < 960 + d := by omega
  change execPerstAssert ⟨p, width⟩ s = _
  simp only [execPerstAssert, hfresh, if_pos hyes]
  rfl

theorem exec_perstDeassert_ignored (hw : width.toNat < 960) :
    exec (.perstDeassert ⟨p, width⟩) s = .next { s with free := s.free + 1 } := by
  obtain ⟨d, -, hfresh⟩ := exists_freshBelow s (show 0 < 81 by decide)
  have hyes : width.toNat < 960 + d := by omega
  change execPerstDeassert ⟨p, width⟩ s = _
  simp only [execPerstDeassert, hfresh, hyes, decide_true, Bool.or_true, Bool.true_or, if_true]
  rfl

/-- The port's pending wakes end where its release brings it out of L2 or the device out of D3cold. -/
def wakesReleased (s : State) (p : Nat) : State :=
  if (upOf s p).l2 = true ∨ s.pcie.cold = true then withdraw { s with free := s.free + 1 } (fun w => w.port == p)
  else { s with free := s.free + 1 }

theorem wakesReleased_clk (s : State) (p : Nat) : (wakesReleased s p).clk = s.clk := by
  unfold wakesReleased
  split
  · exact withdraw_clk _ _
  · rfl

theorem wakesReleased_boot (s : State) (p : Nat) : (wakesReleased s p).boot = s.boot := by
  unfold wakesReleased
  split
  · exact withdraw_boot _ _
  · rfl

/-- The release of the controllers is a matter of the bring-up alone. -/
theorem controllersUp_congr {s t : State} (h : t.boot = s.boot) : controllersUp t = controllersUp s := by
  simp only [controllersUp, h]

theorem exec_perstDeassert_releases (hw : 1040 ≤ width.toNat) (hp : (upOf s p).perst = true) (hh : (upOf s p).perstHold ≤ s.clk) :
    ∃ d, d ≤ 100_000_000 ∧ exec (.perstDeassert ⟨p, width⟩) s = .next (withQueue s
      (modUp { wakesReleased s p with free := (wakesReleased s p).free + 1 } p (fun u => { u with
        perst := false, perstAt := s.clk + 1, link := controllersUp s, l2 := false, readyAt := s.clk + d }))) := by
  obtain ⟨w, hw81, hfresh⟩ := exists_freshBelow s (show 0 < 81 by decide)
  obtain ⟨d, hd, hready⟩ := exists_freshBelow (wakesReleased s p) (show 0 < 100_000_001 by decide)
  have hno : (!(upOf s p).perst || decide (width.toNat < 960 + w) || decide (s.clk < (upOf s p).perstHold)) = false := by
    simp only [hp, Bool.not_true, Bool.false_or, Bool.or_eq_false_iff, decide_eq_false_iff_not]
    omega
  have hboot := controllersUp_congr (wakesReleased_boot s p)
  refine ⟨d, by omega, ?_⟩
  change execPerstDeassert ⟨p, width⟩ s = _
  have hrel : (if ((upOf s p).l2 || s.pcie.cold) = true then withdraw { s with free := s.free + 1 } (fun w => w.port == p.val)
      else { s with free := s.free + 1 }) = wakesReleased s p := by simp only [Bool.or_eq_true, wakesReleased]
  simp only [execPerstDeassert, hfresh, hno, Bool.false_eq_true, if_false, hrel, hready, keepQueue_of_next]
  simp only [← hboot, ← wakesReleased_clk s p]
  rfl

variable (hl : (upOf s p).link = true)
include hl

theorem exec_hotReset_linked : exec (.hotReset p) s = .next (withQueue s (portSource s (4 + p) p)) := by
  change execHotReset p s = _
  rw [execHotReset, if_pos hl, keepQueue_of_next]

theorem exec_upLinkDown_linked :
    exec (.upLinkDown p) s = .next (withQueue s (portSource (modUp s p (fun u => { u with link := false })) (6 + p) p)) := by
  change execUpLinkDown p s = _
  rw [execUpLinkDown, if_pos hl, keepQueue_of_next]

end

/-! ### Power states (R272–R275) -/

/-- The state of a port that has received PME_Turn_Off. -/
def turningOff (s : State) (p : Nat) : State := modUp s p (fun u => { u with turnOff := true })

theorem exec_pmeTurnOff_linked {s : State} {p : Fin 2} (hl : (upOf s p).link = true) :
    exec (.pmeTurnOff p) s = .next (withQueue s (pmeAck (turningOff s p) p)) := by
  change execPmeTurnOff p s = _
  rw [execPmeTurnOff, if_pos hl, keepQueue_of_next]
  rfl

/-- No answer while the port's PF0 is not in D3hot. -/
theorem pmeAck_waits {s : State} {p : Nat} (h : (fnOf s (pf0Of s p)).d3 = false) : pmeAck s p = s := by
  simp only [pmeAck, h, Bool.and_false, Bool.false_and, Bool.false_eq_true, if_false]

/-- With every function of the port in D3hot PME_Turn_Off is answered at once, and the link enters L2. -/
theorem pmeAck_turningOff {s : State} {p : Nat} (hs : swf UpPort.reset s.pcie.ups = true) (hl : (upOf s p).link = true)
    (hd : (fnOf s (pf0Of s p)).d3 = true) (hv : (vfsOf s p).all (fun t => (fnOf s t).d3) = true) :
    pmeAck (turningOff s p) p = modUp (emit (turningOff s p) (.tlp p 2 [])) p
      (fun u => { u with l2 := true, link := false, turnOff := false }) := by
  have hu : upOf (turningOff s p) p = { upOf s p with turnOff := true } := upOf_modUp hs p _
  have hvfs : vfsOf (turningOff s p) p = vfsOf s p := vfsOf_congr (by rw [hu]) (by rw [hu])
  have hd' : (fnOf (turningOff s p) (pf0Of (turningOff s p) p)).d3 = true := hd
  have hv' : (vfsOf s p).all (fun t => (fnOf (turningOff s p) t).d3) = true := hv
  have hall : ((upOf (turningOff s p) p).turnOff && (upOf (turningOff s p) p).link &&
      (fnOf (turningOff s p) (pf0Of (turningOff s p) p)).d3 &&
      (vfsOf (turningOff s p) p).all (fun t => (fnOf (turningOff s p) t).d3)) = true := by
    rw [hd', hvfs, hv', hu]
    simp only [hl, Bool.and_self]
  rw [pmeAck, if_pos hall]

/-- D3hot of a VF may answer its port's PME_Turn_Off. -/
theorem exec_powerStateWrite_vf {s : State} {t : Fin 512} (h : vfExists s t = true) :
    exec (.powerStateWrite (t.castLE (by decide))) s = .next (withQueue s
      (pmeAck (modFn s t (fun f => { f with d3 := true })) (upOfFn (modFn s t (fun f => { f with d3 := true })) t))) := by
  have hval : (t.castLE (show 512 ≤ 514 by decide)).val = t.val := rfl
  change execPowerStateWrite (t.castLE (show 512 ≤ 514 by decide)) s = _
  simp only [execPowerStateWrite, hval, t.isLt, h, decide_true, Bool.not_true, Bool.and_false, Bool.false_eq_true, if_false, if_true,
    keepQueue_of_next]

/-- D0 withdraws the wakes of the function and of its port, and sends what the function holds. -/
theorem exec_hostResume_fromD3 {s : State} {fn : Fin 514} (h : (fnOf s fn).d3 = true) :
    let v := withdraw s (fun w => w.fn == fn.val || w.port == upOfFn s fn)
    let w := if fn.val < 512 then v
      else (List.range 8).foldl (fun a n => if dpUp a n = some (upOfFn s fn) then
        modSlot a n (fun x => { x with hpWake := false, woke := 0 }) else a) v
    exec (.hostResume fn) s = .next (withQueue s (sendHeld (modFn w fn (fun f => { f with d3 := false })) fn)) := by
  change execHostResume fn s = _
  simp only [execHostResume, h, Bool.not_true, Bool.false_eq_true, if_false, keepQueue_of_next]

/-! ### Wakes (R274, R275) -/

/-- The function that a wake is of: the one that holds a message, otherwise the port's PF0. -/
def wakeOwner (s : State) (reason : Fin 6) (slot : Fin 8) (fn : Fin 514) : Nat :=
  if reason = 1 then fn.val else pf0Of s (wakePort s reason slot fn)

/-- Is a wake signalled by WAKE_N. -/
def wakeBySignal (s : State) (reason : Fin 6) (slot : Fin 8) (fn : Fin 514) : Bool :=
  (upOf s (wakePort s reason slot fn)).l2 || s.pcie.cold

/-- PME_Status set and, for a slot event, its wake noted. -/
def wakeNoted (s : State) (reason : Fin 6) (slot : Fin 8) (fn : Fin 514) : State :=
  let t := modFn s (wakeOwner s reason slot fn) (fun f => { f with pmeSt := true })
  if 2 ≤ reason.val ∧ reason.val ≤ 4 then modSlot t slot (fun x => { x with woke := x.woke ||| 2 ^ reason.val }) else t

theorem wakeNoted_pending (s : State) (reason : Fin 6) (slot : Fin 8) (fn : Fin 514) :
    (wakeNoted s reason slot fn).pending = s.pending := by
  simp only [wakeNoted]
  split <;> rfl

theorem exec_wake_pends {s : State} {reason : Fin 6} {slot : Fin 8} {fn : Fin 514} (hc : wakeCause s reason slot fn = true)
    (hnew : s.pcie.wakes.any (fun w => w.reason == reason.val && w.slot == slot.val && w.fn == wakeOwner s reason slot fn) = false)
    (hport : (upOf s (wakePort s reason slot fn)).perst = false ∨ wakeBySignal s reason slot fn = true) :
    let t := wakeNoted s reason slot fn
    exec (.wake reason slot fn) s = .next { t with pcie := { t.pcie with
      wakes := t.pcie.wakes ++ [⟨reason, wakePort s reason slot fn, slot, wakeOwner s reason slot fn, wakeBySignal s reason slot fn⟩]
      waken := t.pcie.waken || wakeBySignal s reason slot fn } } := by
  have howner : (if reason.val = 1 then fn.val else pf0Of s (wakePort s reason slot fn)) = wakeOwner s reason slot fn := by
    simp only [wakeOwner, Fin.ext_iff]
    rfl
  have hno : (!wakeCause s reason slot fn ||
      s.pcie.wakes.any (fun w => w.reason == reason.val && w.slot == slot.val && w.fn == wakeOwner s reason slot fn) ||
      ((upOf s (wakePort s reason slot fn)).perst && !wakeBySignal s reason slot fn)) = false := by
    rw [hc, hnew]
    rcases hport with hport | hport <;> simp only [hport, Bool.not_true, Bool.false_and, Bool.and_false, Bool.or_self]
  change execWake reason slot fn s = _
  unfold wakeBySignal at hno
  simp only [execWake, howner, hno, Bool.false_eq_true, if_false, keepQueue_of_next]
  exact congrArg _ (withQueue_same (wakeNoted_pending s reason slot fn))

/-! ### The statement -/

/-- Settles O34: requests, function resets, port resets and power states, each by the rule of its row. The bounds of a completion's timeout
(log entry 5), the free time to readiness (log entry 37), the record of an absorbed FLR and the free band of the PERST filter (log entry
97) are the model's choices. -/
theorem ports : Obligations.Ports := by
  unfold Obligations.Ports
  refine ⟨fun s => ⟨fun port tag r data p h => ?request, fun port tag st data p h => exec_pcieCompletion_unexpected h st p data,
      fun t => ?flr, fun p n => exec_vfDisable_reduced, fun p => ⟨exec_pfFlr_companion, exec_pfFlr_manager⟩⟩,
    fun s p width => ⟨exec_portReset s p, exec_perstAssert_acts, fun hw => ⟨exec_perstAssert_ignored hw, exec_perstDeassert_ignored hw⟩,
      exec_perstDeassert_releases, fun hl => ?linked, fun t => exec_powerStateWrite_vf, fun fn => exec_hostResume_fromD3,
      fun reason slot fn hc => ?wake⟩⟩
  case request =>
    exact ⟨exec_pcieCompletion_success h p data, fun st hst => exec_pcieCompletion_error h hst p data, exec_pcieCompletionTimeout_passed h⟩
  case flr =>
    exact ⟨exec_flrInitiate_starts, exec_flrInitiate_absorbed, fun f h => ⟨exec_flrTlpCutoff_passed h, exec_flrComplete_done h⟩⟩
  case linked =>
    refine ⟨exec_hotReset_linked hl, exec_upLinkDown_linked hl, fun h5 => ?_, fun hs hd hv => ?_, fun hd => ?_⟩
    · rw [exec_hotReset_linked hl, portSource_port h5]
    · rw [exec_pmeTurnOff_linked hl, pmeAck_turningOff hs hl hd hv]
      rfl
    · rw [exec_pmeTurnOff_linked hl, pmeAck_waits (s := turningOff s p) hd]
      rfl
  case wake => exact exec_wake_pends hc

end Sys2Proof.Machine
end

section
/-! The slot chain, slots and downstream links (O35). -/

namespace Sys2Proof.Machine

/-! ### The slot chain (R264–R267) -/

/-- What a scan leaves of the outputs: the last ones latched, the frame sent, and the next ones shifted. -/
def scanShifted (s : State) : State :=
  let a := (List.range 8).foldl slotLatch s
  (List.range 8).foldl slotShift (emit a (.side 1 0 ([1, 0] ++ (List.range 8).map (slotOut a))))

/-- The input byte of slot `n` in a frame, first bit highest. -/
def scanByte (di : BitVec 66) (n : Nat) : Nat :=
  (List.range 8).foldl (fun a j => 2 * a + b2n (di.getLsbD (2 + 8 * n + j))) 0

/-- A good frame outside a chain fault counts: only the run of bad frames ends. -/
theorem slotGood_noFault {s : State} (h : rd s f_HEP_SLC_STAT_FAULT = 0) :
    slotGood s = ({ s with pcie := { s.pcie with slcBad := 0 } }, true) := by
  have hno : ¬ rd { s with pcie := { s.pcie with slcBad := 0 } } f_HEP_SLC_STAT_FAULT = 1 := by
    change ¬ rd s f_HEP_SLC_STAT_FAULT = 1
    omega
  rw [slotGood, if_neg hno]

section
variable {s : State} {di : BitVec 66}

/-- A frame whose first bits are not 1 and 0 is bad. -/
theorem exec_slotChainScan_bad (h : di.getLsbD 0 = false ∨ di.getLsbD 1 = true) :
    exec (.slotChainScan di) s = .next (withQueue s (slotBad (scanShifted s))) := by
  have hbad : (!(di.getLsbD 0 && !di.getLsbD 1)) = true := by
    rcases h with h | h <;> simp only [h, Bool.false_and, Bool.not_true, Bool.and_false, Bool.not_false]
  change execSlotChainScan di s = _
  rw [execSlotChainScan, if_pos hbad]
  rfl

/-- A good frame's inputs reach the slots while the chain has no fault. -/
theorem exec_slotChainScan_good (h0 : di.getLsbD 0 = true) (h1 : di.getLsbD 1 = false)
    (hf : rd (scanShifted s) f_HEP_SLC_STAT_FAULT = 0) :
    exec (.slotChainScan di) s = .next (withQueue s ((List.range 8).foldl (fun s n => slotIn s n (scanByte di n))
      { scanShifted s with pcie := { (scanShifted s).pcie with slcBad := 0 } })) := by
  have hgood : ¬ (!(di.getLsbD 0 && !di.getLsbD 1)) = true := by rw [h0, h1]; decide
  change execSlotChainScan di s = _
  unfold scanShifted at hf ⊢
  simp only [execSlotChainScan, if_neg hgood, slotGood_noFault hf, Bool.not_true, Bool.false_eq_true, if_false, keepQueue_of_next]
  rfl

end

/-! ### Slots (R265, R266) -/

theorem exec_slotControlWrite (s : State) (n : Fin 8) (power hp : Bool) (pind aind : Fin 3) :
    exec (.slotControlWrite n power pind aind hp) s = .next (modSlot s n (fun x => { x with
      power := power, pind := pind + 1, aind := aind + 1, hpIrq := hp,
      cmdPend := if x.power = power ∧ x.pind = pind.val + 1 ∧ x.aind = aind.val + 1 then x.cmdPend else 1 })) := by
  have hpend (x : Slot) (k : Nat) : (if (x.power != power || x.pind != pind.val + 1 || x.aind != aind.val + 1) = true then 1 else k) =
      if x.power = power ∧ x.pind = pind.val + 1 ∧ x.aind = aind.val + 1 then k else 1 := by
    rw [← ite_not]
    simp only [Bool.or_eq_true, bne_iff_ne, ne_eq, not_or, Classical.not_not, and_assoc]
  change execSlotControlWrite n power pind aind hp s = _
  simp only [execSlotControlWrite, modSlot, hpend]
  rfl

theorem exec_slotPerstDeassert {s : State} {n : Fin 8} (hp : (hpSlot s n).pwrEn = true) (hg : (hpSlot s n).good = true)
    (h0 : (hpSlot s n).goodAt ≠ 0) (ht : (hpSlot s n).goodAt + 100_000_000 ≤ s.clk + 1) :
    exec (.slotPerstDeassert n) s = .next (modSlot s n (fun x => { x with perstN := true })) := by
  have hrise : ((hpSlot s n).pwrEn && (hpSlot s n).good && (hpSlot s n).goodAt != 0 &&
      decide ((hpSlot s n).goodAt + 100_000_000 ≤ s.clk + 1)) = true := by
    rw [hp, hg, bne_iff_ne.2 h0, decide_eq_true ht]
    rfl
  change execSlotPerstDeassert n s = _
  rw [execSlotPerstDeassert, if_pos hrise]
  rfl

/-! ### Downstream links (R263, R269–R271) -/

/-- The link of a downstream port has changed to `up`, which Slot Status shows. -/
def linkSet (s : State) (k : Nat) (up : Bool) : State := modDp s k (fun d => { d with active := up, dllsc := true })

/-- What a surprise down leaves: its traffic contained, the furrows whose rings lie behind the link frozen, the entries that use it ABORTED
and its outstanding requests ended. -/
def linkDropped (s : State) (k : Nat) : State :=
  let a := aerLog s (1032 + k) 5
  let gone := a.fur.filter (fun q => match q.2 with
    | some x => ringInLink a k x
    | none => false)
  let f := freezeFurs (modDp a k (fun d => { d with dpcTrig := d.dpcTrig || bits d.dpcCtl 1 0 != 0, contained := true }))
    (fun f _ => gone.any (fun q => q.1 == f))
  npLost (endAll f (fun e => e.links.contains k || (entryLinks f e).contains k) 0x05) (fun r => r.port == 2 + k)

theorem exec_surpriseDown (s : State) (k : Fin 16) : exec (.surpriseDown k) s = .next (withQueue s (linkLeaves s k false)) := rfl

section
variable {s : State} {k : Nat} (ha : (dpOf s k).active = true)
include ha

/-- With the slot's power off the removal is orderly. -/
theorem linkLeaves_orderly (hp : (hpSlot s (k % 8)).power = false) : linkLeaves s k false = linkSet s k false := by
  have hp' : (hpSlot (linkSet s k false) (k % 8)).power = false := hp
  have horderly : (!false && !(hpSlot (linkSet s k false) (k % 8)).power) = true := by rw [hp']; rfl
  rw [linkLeaves, if_neg (by simp [ha])]
  exact if_pos horderly

/-- With the slot's power on it is a surprise. -/
theorem linkLeaves_surprise (hp : (hpSlot s (k % 8)).power = true) : linkLeaves s k false = linkDropped (linkSet s k false) k := by
  have hp' : (hpSlot (linkSet s k false) (k % 8)).power = true := hp
  have hsurprise : ¬ (!false && !(hpSlot (linkSet s k false) (k % 8)).power) = true := by rw [hp']; decide
  rw [linkLeaves, if_neg (by simp [ha])]
  exact if_neg hsurprise

end

section
variable {s : State} {k : Fin 16}

theorem exec_dpLinkUp_allowed (ha : (dpOf s k).active = false) (ht : (dpOf s k).dpcTrig = false) (hl : linkExists s k = true)
    (hp : (hpSlot s (k % 8)).pwrEn = true) :
    exec (.dpLinkUp k) s = .next (if k.val < 8 then modSlot (linkSet s k true) k (fun x => { x with inBand := true })
      else linkSet s k true) := by
  have hno : ((dpOf s k).active || (dpOf s k).dpcTrig || !linkExists s k || !(hpSlot s (k % 8)).pwrEn) = false := by
    rw [ha, ht, hl, hp]
    rfl
  have hpend : (if k.val < 8 then modSlot (linkSet s k true) k (fun x => { x with inBand := true })
      else linkSet s k true).pending = s.pending := by split <;> rfl
  change execDpLinkUp k s = _
  simp only [execDpLinkUp, hno, Bool.false_eq_true, if_false, keepQueue_of_next]
  exact congrArg _ (withQueue_same hpend)

theorem exec_containmentEnd_cleared (ha : (dpOf s k).active = true) (ht : (dpOf s k).dpcTrig = false) :
    exec (.containmentEnd k) s = .next (modDp s k (fun d => { d with contained := false })) := by
  have hyes : ((dpOf s k).active && !(dpOf s k).dpcTrig) = true := by rw [ha, ht]; rfl
  change execContainmentEnd k s = _
  rw [execContainmentEnd, if_pos hyes]
  rfl

end

/-! ### The statement -/

/-- Settles O35: a scan by its frame, a slot's control and PERST_N, and a link's coming and going. That slots follow the scans of the chain
and that a DPC trigger holds its link down until software clears it (log entry 38) are the model's choices, and the registers of hot-plug
and DPC are those of the PCI Express family (log entry 5). -/
theorem slotsAndLinks : Obligations.SlotsAndLinks := by
  unfold Obligations.SlotsAndLinks
  refine fun s => ⟨fun di => ⟨exec_slotChainScan_bad, exec_slotChainScan_good (s := s)⟩, exec_slotControlWrite s,
    fun n => exec_slotPerstDeassert, fun k => ⟨exec_dpLinkUp_allowed, exec_containmentEnd_cleared, fun ha hp => ?orderly,
      fun ha hp => ?surprise⟩⟩
  case orderly =>
    rw [exec_surpriseDown, linkLeaves_orderly ha hp]
    rfl
  case surprise =>
    rw [exec_surpriseDown, linkLeaves_surprise ha hp]
    rfl

end Sys2Proof.Machine
end

section
/-! The states of the optical links outside framing (O37). -/

namespace Sys2Proof.Machine

/-! ### Lasers (R277) -/

/-- Light of link `n`'s ELS is back: the fault's record clears, and a link that stood in ELS_FAULT trains or is DOWN. -/
def elsRestored (s : State) (n : Nat) : State :=
  let u := clearPresent s (lnkSrc n)
  if lnkState u n = 5 then (if rd u (f_LNK_CTL_AUTO n) = 1 then startTraining u n else wr u (f_LNK_STAT_STATE n) 0) else u

theorem exec_elsLoss (s : State) (m : Fin 18) :
    exec (.elsLoss m) s = .next (withQueue s ([2 * m.val, 2 * m.val + 1].foldl (fun s n =>
      condEvent (wr (lnkLeave s n 5) (f_LNK_CTL_RETRAIN n) 0) (lnkSrc n) 0x09 m) (wr s ⟨f_LNK_ELS_STAT_OK.key, m.val, m.val⟩ 0))) := rfl

theorem exec_elsRestore (s : State) (m : Fin 18) :
    exec (.elsRestore m) s = .next (withQueue s ([2 * m.val, 2 * m.val + 1].foldl elsRestored
      (wr s ⟨f_LNK_ELS_STAT_OK.key, m.val, m.val⟩ 1))) := by
  change execElsRestore m s = _
  simp only [execElsRestore, ite_not, keepQueue_of_next]
  rfl

/-! ### Training (R278, R279) -/

/-- What the training of link `n` shows in its registers: the mapping found, and of a native link the partner's type and node. -/
def trainingShown (s : State) (n : Nat) (remap : BitVec 2) (sg : Bool) (node : BitVec 24) : State :=
  let own (v : Nat) : Nat := if lnkNative s n then v else 0
  let a := wr (wr (wr s (f_LNK_STAT_STATE n) 2) (f_LNK_CTL_RETRAIN n) 0) (f_LNK_STAT_REMAP n) remap.toNat
  let a := wr a (f_LNK_STAT_PEER n) (own (if sg then 2 else 1))
  wr (wr a (f_LNK_STAT_PEER_NODE n) (own (node.toNat % 2 ^ 22))) (f_LNK_PEERHI_V n) (own (node.toNat / 2 ^ 22))

/-- The framing of link `n` starts anew, with the partner's credits `cr` and the round trip (R284). -/
def framingStarted (s : State) (n : Nat) (cr : SMap Nat) (rtt pfc : Nat) : State :=
  modLnk s n (fun l => { l with
    exp := 0, nakOut := false, nakDue := false, ackDue := false, seq := 0, replay := [], ackAt := s.clk, replays := 0,
    rtt := rtt, rxAt := s.clk, txAt := s.clk, dataAt := s.clk, credit := cr, trained := cr, back := [], pfc := pfc, retryAt := 0 })

/-- Every port of link `n` enters RECOVERY (R311). -/
def portsRecovering (s : State) (n : Nat) : State :=
  (portsOf s n).foldl (fun s p =>
    let s := wr s (f_SCH_SVC_SERVICE p) 1
    { s with sch := { s.sch with
      svc := sput 1 s.sch.svc p 1
      cbs := sclear s.sch.cbs (16 * p) 16
      tok := sclear s.sch.tok (16 * p) 16
      upTo := sput 0 s.sch.upTo p s.clk } }) s

/-- The credits of each VC as a list gives them. -/
def creditMap (credits : List (BitVec 16)) : SMap Nat := (credits.take 8).zipIdx.foldl (fun m p => sput 0 m p.2 p.1.toNat) []

section
variable {s : State} {n : Fin 36}

theorem exec_retrain_starts (hr : rd s (f_LNK_CTL_RETRAIN n) = 0) (he : lnkState s n ≠ 5) :
    exec (.retrain n) s = .next (withQueue s (startTraining s n)) := by
  have hno : (rd s (f_LNK_CTL_RETRAIN n) = 1 || lnkState s n == lsEls) = false := by simp [hr, lsEls, he]
  change execRetrain n s = _
  simp only [execRetrain, hno, Bool.false_eq_true, if_false, keepQueue_of_next]

theorem exec_trainingFail_training (ht : lnkState s n = 1) :
    let t := incF (wr (lnkLeave s n 0) (f_LNK_CTL_RETRAIN n) 0) (f_LNK_TRAINFAIL_V n) 1
    exec (.trainingFail n) s = .next (withQueue s (if rd t (f_LNK_CTL_AUTO n) = 1 then
      modLnk t n (fun l => { l with retryAt := 1 + t.clk + 100000000 }) else t)) := by
  change execTrainingFail n s = _
  rw [execTrainingFail, if_neg (Classical.not_not.2 (show lnkState s n = lsTraining from ht)), keepQueue_of_next]
  rfl

/-- Training ends once a native link's lanes are locked and deskewed; an Ethernet link has locked its PCS. -/
theorem exec_trainingComplete_locked (ht : lnkState s n = 1)
    (hl : lnkNative s n = true → allLocked (lnkOf s n) = true ∧ deskewed (lnkOf s n) = true) (remap : LinkEnd) (grp sg : Bool)
    (node : BitVec 24) (credits : List (BitVec 16)) (rtt : BitVec 16) (off : BitVec 32) :
    let a := trainingShown s n remap.remap sg node
    let a := if lnkNative s n then groupTrained a n grp else a
    let a := portsRecovering (framingStarted a n (creditMap credits) rtt.toNat (if lnkNative s n then 0 else remap.pfc.toNat)) n
    exec (.trainingComplete n remap grp sg node credits rtt off) s =
      .next (withQueue s (if lnkNative s n then timeFrame (exchange a n off.toInt) n else a)) := by
  have hgo : ¬ (lnkState s n ≠ lsTraining ∨ (lnkNative s n && !(allLocked (lnkOf s n) && deskewed (lnkOf s n))) = true) := by
    rintro (h | h)
    · exact h ht
    · obtain ⟨hn, hbad⟩ := Bool.and_eq_true_iff.1 h
      obtain ⟨hlock, hskew⟩ := hl hn
      rw [hlock, hskew] at hbad
      cases hbad
  change execTrainingComplete n remap grp sg node credits rtt off s = _
  rw [execTrainingComplete, if_neg hgo, keepQueue_of_next]
  rfl

/-! ### DARK and the PCS lock (R279, R280) -/

theorem exec_linkDark_off (hb : barOpen s = true) :
    exec (.linkDark n true) s = .next (withQueue s (modLnk (wr (lnkLeave (wr s (f_LNK_CTL_DARK n) 1) n 4)
      (f_LNK_CTL_RETRAIN n) 0) n (fun l => { l with retryAt := 0 }))) := by
  change execLinkDark n true s = _
  rw [execLinkDark, hb]
  rfl

/-- Relighting leaves a DARK link DOWN, so that detected light can train it (log entry 39). -/
theorem exec_linkDark_relit (hb : barOpen s = true) :
    let t := wr s (f_LNK_CTL_DARK n) 0
    exec (.linkDark n false) s = .next (if lnkState t n = 4 then wr t (f_LNK_STAT_STATE n) 0 else t) := by
  intro t
  have hpend : (if lnkState t n = 4 then wr t (f_LNK_STAT_STATE n) 0 else t).pending = s.pending := by split <;> rfl
  rw [← withQueue_same hpend]
  change execLinkDark n false s = _
  rw [execLinkDark, hb]
  rfl

theorem exec_pcsLockLoss_active (ha : lnkState s n = 2) (hn : lnkNative s n = false) :
    let t := lnkLeave s n 0
    exec (.pcsLockLoss n) s = .next (withQueue s (if rd t (f_LNK_CTL_AUTO n) = 1 then startTraining t n else t)) := by
  have hgo : ¬ ((decide (lnkState s n ≠ lsActive) || lnkNative s n) = true) := by simp [ha, hn, lsActive]
  change execPcsLockLoss n s = _
  rw [execPcsLockLoss, if_neg hgo, keepQueue_of_next]
  rfl

/-! ### Alignment markers (R281, R282) -/

/-- A position moves its lane and the LOCK field; the loss of a lane's lock loses a link that is past its training. -/
theorem exec_alignmentMarker_lit (hn : lnkNative s n = true) (hs : lnkState s n = 1 ∨ lnkState s n = 2 ∨ lnkState s n = 3) (j : Fin 8)
    (pos : BitVec 64) (l : List Byte) :
    let r := laneStep j (sget Lane.search (lnkOf s n).lanes j) pos.toNat l
    let t := modLnk s n (fun k => { k with lanes := sput Lane.search k.lanes j r.1 })
    let u := wr t (f_LNK_STAT_LOCK n) (b2n (allLocked (lnkOf t n)))
    exec (.alignmentMarker n j pos l) s = .next (withQueue s (if r.2 = true ∧ lnkState s n ≠ 1 then linkLost u n 2 else u)) := by
  intro r t u
  have hgo : ¬ (!lnkNative s n || !(lnkState s n == lsTraining || lnkState s n == lsActive || lnkState s n == lsSleep)) = true := by
    rcases hs with h | h | h <;> rw [hn, h] <;> decide
  have hlost : (r.2 && lnkState s n != lsTraining) = true ↔ r.2 = true ∧ lnkState s n ≠ 1 := by simp [lsTraining]
  change execAlignmentMarker n j pos l s = _
  rw [execAlignmentMarker, if_neg hgo, ← ite_congr (propext hlost) (fun _ => rfl) (fun _ => rfl)]
  rfl

end

/-! ### The statement -/

/-- Settles O37: each row of a link outside framing by its rule. That a relit link goes from DARK to DOWN, and that what training found
comes with its command (log entry 39), as do the ports whose PFC is on (log entry 41), are the model's choices. -/
theorem linkStates : Obligations.LinkStates := by
  unfold Obligations.LinkStates
  refine fun s n => ⟨fun m => ⟨exec_elsLoss s m, exec_elsRestore s m⟩, exec_retrain_starts,
    fun ht => ⟨exec_trainingFail_training ht, ?found⟩,
    fun hb => ⟨exec_linkDark_off hb, exec_linkDark_relit hb⟩, exec_pcsLockLoss_active,
    fun j pos l hn hs => exec_alignmentMarker_lit hn hs j pos l⟩
  case found =>
    intro remap grp sg node credits rtt off hl
    exact exec_trainingComplete_locked ht hl remap grp sg node credits rtt off

end Sys2Proof.Machine
end

section
/-! Native frames, the timers of a native link, its sleep and its TIME exchanges (O38). -/

namespace Sys2Proof.Machine

/-! ### What an arriving frame does first (R283) -/

/-- A link in ACTIVE or SLEEP passes the guard of every native frame. -/
theorem frames_pass {st : Nat} (h : st = 2 ∨ st = 3) : (st == lsActive || st == lsSleep) = true := by
  rcases h with rfl | rfl <;> rfl

section
variable {s : State} {n : Nat} {fr : List Byte} (hn : lnkNative s n = true) (hl : lnkState s n = 2 ∨ lnkState s n = 3)
include hn hl

/-- A valid frame of the command's type acts on the state that its ACK, NAK and CREDIT leave. -/
theorem rxFrame_valid {h : FrameHdr} {ty : Nat} (hp : parseFrame fr = some h) (hty : h.ty = ty) (k : FrameHdr → State → State) :
    rxFrame s n ty fr k = .next (k h (ackIn s n h)) := by
  have hgo : (!lnkNative s n || !(lnkState s n == lsActive || lnkState s n == lsSleep)) = false := by rw [hn, frames_pass hl]; rfl
  simp only [rxFrame, hgo, hp, hty, Bool.false_eq_true, if_false, ne_eq, not_true_eq_false]

/-- An invalid frame is counted and has no other effect. -/
theorem rxFrame_invalid (hp : parseFrame fr = none) (ty : Nat) (k : FrameHdr → State → State) :
    rxFrame s n ty fr k = .next (incF s (f_LNK_CRC_V n) 1) := by
  have hgo : (!lnkNative s n || !(lnkState s n == lsActive || lnkState s n == lsSleep)) = false := by rw [hn, frames_pass hl]; rfl
  simp only [rxFrame, hgo, hp, Bool.false_eq_true, if_false]

end

/-! ### DATA frames (R284, R287) -/

/-- The state after a DATA frame's ACK, NAK and CREDIT with the arrival of DATA noted. -/
def dataNoted (s : State) (n : Nat) : State := modLnk s n (fun l => { l with dataAt := s.clk, sleepReq := false })

/-- How far a frame lies ahead of the one expected, modulo the sequence space. -/
def seqAhead (s : State) (n : Nat) (h : FrameHdr) : Nat := (h.seq + 4096 - (lnkOf s n).exp) % 4096

/-- The frame expected is taken and its credit goes back to the partner. -/
def dataTaken (s : State) (n : Nat) (h : FrameHdr) : State :=
  modLnk s n (fun l => { l with
    exp := (l.exp + 1) % 4096, nakOut := false
    back := sput 0 l.back h.vc (sget 0 l.back h.vc + slotsFor h.data.length) })

section
variable {s : State} {n : Fin 36} {fr : List Byte} {h : FrameHdr} (hn : lnkNative s n = true)
  (hp : parseFrame fr = some h) (hl : lnkState s n = 2 ∨ lnkState s n = 3)
include hn hp hl

section
variable (hty : h.ty = 1) (ha : lnkState (ackIn s n h) n = 2) (slot : DWord)
include hty ha

/-- What a DATA frame does on a link that is still ACTIVE, by its place in the sequence. -/
theorem exec_dataFrame_active :
    let u := dataNoted (ackIn s n h) n
    exec (.dataFrame ⟨n, slot⟩ fr) s = .next (withQueue s (
      if seqAhead u n h = 0 then
        if h.vc = 1 ∨ h.vc = 2 then dataIn (dataTaken u n h) n slot.toNat h.data else dataTaken u n h
      else if 2048 ≤ seqAhead u n h then modLnk (incF u (f_LNK_DUP_V n) 1) n (fun l => { l with ackDue := true })
      else if (lnkOf u n).nakOut = true then u else modLnk u n (fun l => { l with nakOut := true, nakDue := true }))) := by
  have ha' : ¬ lnkState (ackIn s n h) n ≠ lsActive := Classical.not_not.2 ha
  change execDataFrame ⟨n, slot⟩ fr s = _
  rw [execDataFrame, rxFrame_valid hn hl hp hty, keepQueue_of_next, if_neg ha']
  rfl

theorem exec_dataFrame_expected (hd : seqAhead (dataNoted (ackIn s n h) n) n h = 0) :
    let v := dataTaken (dataNoted (ackIn s n h) n) n h
    exec (.dataFrame ⟨n, slot⟩ fr) s = .next (withQueue s (if h.vc = 1 ∨ h.vc = 2 then dataIn v n slot.toNat h.data else v)) := by
  rw [exec_dataFrame_active hn hp hl hty ha, if_pos hd]

theorem exec_dataFrame_again (hd : 2048 ≤ seqAhead (dataNoted (ackIn s n h) n) n h) :
    exec (.dataFrame ⟨n, slot⟩ fr) s = .next (withQueue s
      (modLnk (incF (dataNoted (ackIn s n h) n) (f_LNK_DUP_V n) 1) n (fun l => { l with ackDue := true }))) := by
  rw [exec_dataFrame_active hn hp hl hty ha, if_neg (by omega), if_pos hd]

theorem exec_dataFrame_ahead (h0 : 0 < seqAhead (dataNoted (ackIn s n h) n) n h)
    (hd : seqAhead (dataNoted (ackIn s n h) n) n h < 2048) :
    let u := dataNoted (ackIn s n h) n
    exec (.dataFrame ⟨n, slot⟩ fr) s = .next (withQueue s
      (if (lnkOf u n).nakOut = true then u else modLnk u n (fun l => { l with nakOut := true, nakDue := true }))) := by
  rw [exec_dataFrame_active hn hp hl hty ha, if_neg (by omega), if_neg (by omega)]

end

/-- CTRL carries nothing but its header. -/
theorem exec_ctrlFrame_valid (hty : h.ty = 2) : exec (.ctrlFrame n fr) s = .next (withQueue s (ackIn s n h)) := by
  change execCtrlFrame n fr s = _
  rw [execCtrlFrame, rxFrame_valid hn hl hp hty, keepQueue_of_next]

/-! ### SLEEP frames (R288) -/

section
variable (hty : h.ty = 5) (hsw : peerSwitch (ackIn s n h) n = false)
include hty hsw

theorem exec_sleepFrame_ends (hs : lnkState (ackIn s n h) n = 3) (hc : le h.data 0 1 = 3) :
    exec (.sleepFrame n fr) s = .next (withQueue s (wakeLink (ackIn s n h) n)) := by
  change execSleepFrame n fr s = _
  simp only [execSleepFrame, rxFrame_valid hn hl hp hty, hsw, hc, hs, lsSleep, Bool.false_eq_true, if_false, if_true,
    keepQueue_of_next]

theorem exec_sleepFrame_answers (ha : lnkState (ackIn s n h) n = 2) (hc : le h.data 0 1 = 2)
    (hr : (lnkOf (ackIn s n h) n).sleepReq = true) :
    exec (.sleepFrame n fr) s = .next (withQueue s (enterSleep (ackIn s n h) n)) := by
  change execSleepFrame n fr s = _
  simp only [execSleepFrame, rxFrame_valid hn hl hp hty, hsw, hc, ha, hr, lsActive, Bool.false_eq_true, if_false, and_self, if_true,
    keepQueue_of_next]

theorem exec_sleepFrame_asks (ha : lnkState (ackIn s n h) n = 2) (hc : le h.data 0 1 = 1)
    (hw : dataWaits (ackIn s n h) n = false) (hr : (lnkOf (ackIn s n h) n).replay = []) :
    exec (.sleepFrame n fr) s = .next (withQueue s (enterSleep (sendFrame (ackIn s n h) n 5 0 0 [2]) n)) := by
  change execSleepFrame n fr s = _
  simp only [execSleepFrame, rxFrame_valid hn hl hp hty, hsw, hc, ha, hw, hr, lsActive, Bool.false_eq_true, if_false, and_self,
    if_true, keepQueue_of_next]

end

end

/-! ### Frames that are counted (R283) -/

section
variable {s : State} {n : Fin 36} {fr : List Byte} (hn : lnkNative s n = true) (hp : parseFrame fr = none)
  (hl : lnkState s n = 2 ∨ lnkState s n = 3)
include hn hp hl

theorem exec_dataFrame_invalid (slot : DWord) : exec (.dataFrame ⟨n, slot⟩ fr) s = .next (incF s (f_LNK_CRC_V n) 1) := by
  change execDataFrame ⟨n, slot⟩ fr s = _
  rw [execDataFrame, rxFrame_invalid hn hl hp, keepQueue_of_pending (incF_pending ..)]

theorem exec_ctrlFrame_invalid : exec (.ctrlFrame n fr) s = .next (incF s (f_LNK_CRC_V n) 1) := by
  change execCtrlFrame n fr s = _
  rw [execCtrlFrame, rxFrame_invalid hn hl hp, keepQueue_of_pending (incF_pending ..)]

theorem exec_sleepFrame_invalid : exec (.sleepFrame n fr) s = .next (incF s (f_LNK_CRC_V n) 1) := by
  change execSleepFrame n fr s = _
  rw [execSleepFrame, rxFrame_invalid hn hl hp, keepQueue_of_pending (incF_pending ..)]

end

/-- A slot of TYPE 0h is IDLE where it holds zeros, and counted where it does not. -/
theorem exec_idleSlot_type0 {s : State} {n : Fin 36} {b : List Byte} (h0 : lef b 0 1 7 4 = 0) :
    exec (.idleSlot n b) s = .next (if (b.take 64).any (fun x => x != 0) then incF s (f_LNK_CRC_V n) 1 else s) := by
  change execIdleSlot n b s = _
  simp only [execIdleSlot, h0, true_and]
  split
  · exact keepQueue_of_pending (incF_pending ..)
  · rfl

/-! ### The timers (R284, R285, R288) -/

section
variable {s : State} {n : Fin 36} (hn : lnkNative s n = true) (ha : lnkState s n = 2)

include ha in
theorem exec_replayTimeout_passed (hr : (lnkOf s n).replay ≠ []) (ht : (lnkOf s n).ackAt + (lnkOf s n).rtt + 2000 < s.clk) :
    exec (.replayTimeout n) s = .next (withQueue s (replay s n)) := by
  have ha' : lnkState s n = lsActive := ha
  have hlate : overdue s ((lnkOf s n).ackAt + (lnkOf s n).rtt + 2000) = true := decide_eq_true ht
  change execReplayTimeout n s = _
  rw [execReplayTimeout, keepQueue_of_next, if_pos ⟨ha', hr, hlate⟩]

include hn ha

theorem exec_keepaliveSend_active (ht : (lnkOf s n).txAt + 1000 ≤ s.clk) :
    exec (.keepaliveSend n) s = .next (withQueue s (sendFrame s n 2 0 0 [])) := by
  change execKeepaliveSend n s = _
  simp [execKeepaliveSend, hn, ha, ht, lsActive, lsSleep]

theorem exec_keepaliveTimeout_active (ht : (lnkOf s n).rxAt + 8000 < s.clk) :
    exec (.keepaliveTimeout n) s = .next (withQueue s (linkLost s n 0)) := by
  change execKeepaliveTimeout n s = _
  simp [execKeepaliveTimeout, hn, ha, ht, overdue, lsActive, lsSleep]

theorem exec_sleepEntry_idle (hi : rd s (f_LNK_CTL_SLEEP_IDLE n) ≠ 0) (hsw : peerSwitch s n = false) (hr : (lnkOf s n).replay = [])
    (ht : (lnkOf s n).dataAt + 1000 * rd s (f_LNK_CTL_SLEEP_IDLE n) ≤ s.clk) (hq : (lnkOf s n).sleepReq = false)
    (hw : dataWaits s n = false) :
    exec (.sleepEntry n) s = .next (withQueue s (modLnk (sendFrame s n 5 0 0 [1]) n (fun l => { l with sleepReq := true }))) := by
  have ha' : lnkState s n = lsActive := ha
  change execSleepEntry n s = _
  rw [execSleepEntry, if_pos ⟨ha', hn, hi, hsw, hr, ht, hq, hw⟩, keepQueue_of_next]

end

/-- DATA that waits ends the sleep. -/
theorem exec_sleepExit_waits {s : State} {n : Fin 36} (hs : lnkState s n = 3) (hw : dataWaits s n = true) :
    exec (.sleepExit n) s = .next (withQueue s (wakeLink (sendFrame s n 5 0 0 [3]) n)) := by
  have hs' : lnkState s n = lsSleep := hs
  change execSleepExit n s = _
  rw [execSleepExit, if_pos ⟨hs', hw⟩, keepQueue_of_next]

/-! ### TIME exchanges (R292) -/

/-- What the arrival of a TIME frame leaves: its instant, and with a t2 the times that complete this side's exchange. -/
def timesTaken (u : State) (n : Nat) (t2 : Option DWord) (t3 : DWord) : State :=
  modLnk u n (fun l => { l with
    rxTime := some (now u)
    t234 := match t2 with
      | some t => some (t.toNat, t3.toNat, now u)
      | none => l.t234 })

section
variable {s : State} {n : Fin 36} (hn : lnkNative s n = true) (ha : lnkState s n = 2)
include hn ha

theorem exec_timeFrame_active (nak : Bool) (ack : BitVec 12) (cr : List Byte) (t2 : Option DWord) (t3 : DWord) :
    let u := ackIn s n ⟨4, 0, 0, nak, ack.toNat, cr.map BitVec.toNat, []⟩
    lnkState u n = 2 → exec (.timeFrame ⟨n, nak, ack, cr⟩ t2 t3) s = .next (withQueue s (timesTaken u n t2 t3)) := by
  intro u hu
  have hu' : ¬ lnkState u n ≠ lsActive := Classical.not_not.2 hu
  change execTimeFrame ⟨n, nak, ack, cr⟩ t2 t3 s = _
  rw [execTimeFrame, rxNat_active (p := ⟨n, nak, ack, cr⟩) hn (.inl ha), keepQueue_of_next, if_neg hu']
  rfl

/-- With TIME exchanges enabled, one that is done leaves its result, and the next begins 10 µs after the last began. -/
theorem exec_timeExchange_enabled (he : rd s (f_LNK_CTL_TS_EN n) = 1) :
    exec (.timeExchange n) s = .next (withQueue s
      (if (lnkOf (timeDone s n) n).timeAt + 10000 ≤ (timeDone s n).clk then timeFrame (timeDone s n) n else timeDone s n)) := by
  have hgo : (!lnkNative s n || lnkState s n != lsActive || rd s (f_LNK_CTL_TS_EN n) == 0) = false := by rw [hn, ha, he]; rfl
  change execTimeExchange n s = _
  simp only [execTimeExchange, hgo, Bool.false_eq_true, if_false, keepQueue_of_next]

end

section
variable {s : State} {n : Nat}

/-- An exchange whose answer has come gives the delay and the offset. -/
theorem timeDone_answered {t1 t2 t3 t4 : Nat} {o : Int} {u : State} (h1 : (lnkOf s n).t1 = some t1)
    (h2 : (lnkOf s n).t234 = some (t2, t3, t4)) (hm : measure s n t1 t2 t3 t4 = (o, u)) :
    timeDone s n = exchange (modLnk u n (fun l => { l with
      t1 := none, t234 := none, delay := (((t4 : Int) - t1) - ((t3 : Int) - t2)) / 2 })) n o := by
  simp only [timeDone, h1, h2, hm]

/-- An exchange without an answer is not done. -/
theorem timeDone_unanswered (h : (lnkOf s n).t234 = none) : timeDone s n = s := by
  unfold timeDone
  rw [h]
  cases (lnkOf s n).t1 <;> rfl

end

/-! ### The statement -/

/-- Settles O38: the frames by what `rxFrame` makes of a valid and of an invalid one, and the timers and exchanges each by its row. That
DATA_FRAME gives the partner's transmit slot as an operand, by which a group's receiver delivers, and that TIME_EXCHANGE completes an
exchange whose answer is in before it begins the next, are the model's choices (log entry 98). -/
theorem linkFrames : Obligations.LinkFrames := by
  unfold Obligations.LinkFrames
  refine fun s n hn => ⟨fun fr h hp hl => ⟨fun slot hty ha => ⟨exec_dataFrame_expected hn hp hl hty ha slot,
      exec_dataFrame_again hn hp hl hty ha slot, exec_dataFrame_ahead hn hp hl hty ha slot⟩, exec_ctrlFrame_valid hn hp hl, fun hty hsw =>
      ⟨exec_sleepFrame_ends hn hp hl hty hsw, exec_sleepFrame_answers hn hp hl hty hsw, exec_sleepFrame_asks hn hp hl hty hsw⟩⟩,
    fun slot fr hp hl => ⟨exec_dataFrame_invalid hn hp hl slot, exec_ctrlFrame_invalid hn hp hl, exec_sleepFrame_invalid hn hp hl⟩,
    fun b => exec_idleSlot_type0, fun ha => ⟨exec_replayTimeout_passed ha, exec_keepaliveSend_active hn ha,
      exec_keepaliveTimeout_active hn ha, exec_sleepEntry_idle hn ha, exec_timeFrame_active hn ha, fun he => ⟨?answered, ?unanswered⟩⟩,
    exec_sleepExit_waits⟩
  case answered =>
    intro t1 t2 t3 t4 o u h1 h2 hm
    rw [exec_timeExchange_enabled hn ha he, timeDone_answered h1 h2 hm]
  case unanswered =>
    intro h
    rw [exec_timeExchange_enabled hn ha he, timeDone_unanswered h]

end Sys2Proof.Machine
end

section
/-! The time base (O39). -/

namespace Sys2Proof.Machine

/-! ### Rate and time (R290, R291) -/

/-- Rate and time are open to writes in roles FREE and PTP. -/
theorem tmbOpen_iff {s : State} : tmbOpen s = true ↔ rd s f_TMB_CTL_ROLE = 0 ∨ rd s f_TMB_CTL_ROLE = 3 := by
  simp only [tmbOpen, tmbRole, Bool.or_eq_true, beq_iff_eq]

/-- In roles PPS and LINK they are not. -/
theorem tmbOpen_of_sourced {s : State} (h : rd s f_TMB_CTL_ROLE = 1 ∨ rd s f_TMB_CTL_ROLE = 2) : ¬ tmbOpen s = true := by
  rw [tmbOpen_iff]
  omega

section
variable {s : State} (hb : barOpen s = true)
include hb

theorem exec_tmbSet_open (ho : tmbOpen s = true) (v : DWord) :
    exec (.tmbSet v) s = .next { setReg s f_TMB_SET_V.key v with tb := { s.tb with set := some v.toNat } } := by
  change execTmbSet v s = _
  rw [execTmbSet, hb, if_pos ho]
  rfl

theorem exec_tmbRate_open (ho : tmbOpen s = true) (w : Word) :
    exec (.tmbRate w) s = .next (wr s f_TMB_RATE_PPB ((max (-200000) (min 200000 w.toInt) % 2 ^ 32).toNat)) := by
  change execTmbRate w s = _
  rw [execTmbRate, hb, if_pos ho]
  rfl

theorem exec_tmbSet_closed (ho : ¬ tmbOpen s = true) (v : DWord) : exec (.tmbSet v) s = .next (writeIgnored s) := by
  change execTmbSet v s = _
  rw [execTmbSet, hb, if_neg ho]
  rfl

theorem exec_tmbRate_closed (ho : ¬ tmbOpen s = true) (w : Word) : exec (.tmbRate w) s = .next (writeIgnored s) := by
  change execTmbRate w s = _
  rw [execTmbRate, hb, if_neg ho]
  rfl

theorem exec_tmbTimeCapture :
    exec .tmbTimeCapture s = .next (emit (wr (wr s f_TMB_TIME_HI_V (s.tb.ns.toNat / 2 ^ 32)) f_TMB_TIME_FRAC_V s.tb.frac.toNat)
      (.rdata 4 (natLE 4 s.tb.ns.toNat))) := by
  change execTmbTimeCapture s = _
  rw [execTmbTimeCapture, hb]
  rfl

/-! ### The source (R291) -/

/-- A new role whose source fits starts anew: not synchronised, out of HOLDOVER, and with no edge to count from. -/
theorem exec_tmbCtlWrite_newRole (w : Word) :
    let role := bits w.toNat 31 30
    let t := wr (wr s f_TMB_CTL_PPS_W (bits w.toNat 15 8)) f_TMB_CTL_SYNC_TOL (bits w.toNat 7 0)
    bits w.toNat 29 24 ≤ 35 → sourceFits t role (bits w.toNat 29 24) (bits w.toNat 23 21) = true → role ≠ rd t f_TMB_CTL_ROLE →
    let u := timeBack (wr (wr (wr (wr t f_TMB_CTL_ROLE role) f_TMB_CTL_SRC_LINK (bits w.toNat 29 24)) f_TMB_CTL_SRC_MEMBER
      (bits w.toNat 23 21)) f_TMB_STAT_SYNCED 0)
    exec (.tmbCtlWrite w) s = .next (withQueue s { u with tb := { u.tb with
      good := 0
      edge := 0 } }) := by
  intro role t hlink hfits hrole
  have hgood : decide (bits w.toNat 29 24 > 35) = false := decide_eq_false (by omega)
  have hchanged : decide (role ≠ tmbRole t) = true := decide_eq_true hrole
  change execTmbCtlWrite w s = _
  simp only [execTmbCtlWrite, hb, hgood, Bool.not_true, Bool.false_eq_true, if_false]
  change keepQueue s (if (!sourceFits t role _ _) = true then _ else if (!(decide (role ≠ tmbRole t) || _)) = true then _ else _) = _
  rw [hfits, hchanged]
  rfl

end

/-! ### Pulses (R290, R291) -/

section
variable {s : State}

theorem exec_ppsOutPulse_second (h : s.tb.sec < s.tb.ns.toNat / 1000000000) :
    exec .ppsOutPulse s = .next { s with tb := { s.tb with
      sec := s.tb.ns.toNat / 1000000000
      ppsOut := decide (0 < rd s f_TMB_CTL_PPS_W)
      ppsFall := s.clk + 1000000 * rd s f_TMB_CTL_PPS_W } } := by
  have hpast : ¬ now s / 1000000000 ≤ s.tb.sec := Nat.not_le.2 h
  change execPpsOutPulse s = _
  rw [execPpsOutPulse, if_neg hpast]
  rfl

section
variable (hr : rd s f_TMB_CTL_ROLE = 1)
include hr

/-- An edge of no written time lies one second after the last. -/
theorem exec_ppsInEdge_next (hd : s.tb.tod = false) (he : s.tb.edge ≠ 0) :
    exec .ppsInEdge s = .next (withQueue s (servo { s with tb := { s.tb with edge := s.tb.edge + 1000000000 } }
      (((s.tb.edge - 1 + 1000000000 : Nat) : Int) - (s.tb.ns.toNat : Int)))) := by
  have hrole : ¬ tmbRole s ≠ 1 := Classical.not_not.2 hr
  have hedge : s.tb.edge - 1 + 1000000000 + 1 = s.tb.edge + 1000000000 := by omega
  change execPpsInEdge s = _
  simp only [execPpsInEdge, hrole, hd, he, hedge, Bool.false_eq_true, if_false, keepQueue_of_next]
  rw [← hd]
  rfl

/-- An edge after a write of TMB_TOD_NEXT has the time written. -/
theorem exec_ppsInEdge_tod (hd : s.tb.tod = true) :
    exec .ppsInEdge s = .next (withQueue s (servo { s with tb := { s.tb with
      edge := (regv s f_TMB_TOD_NEXT_V.key).toNat + 1
      tod := false } } (((regv s f_TMB_TOD_NEXT_V.key).toNat : Int) - (s.tb.ns.toNat : Int)))) := by
  have hrole : ¬ tmbRole s ≠ 1 := Classical.not_not.2 hr
  change execPpsInEdge s = _
  simp only [execPpsInEdge, hrole, hd, if_true, if_false, keepQueue_of_next]
  rfl

end

/-! ### Loss of the source (R293) -/

theorem exec_timeSourceLost_sourced (hr : rd s f_TMB_CTL_ROLE = 1 ∨ rd s f_TMB_CTL_ROLE = 3) :
    exec .timeSourceLost s = .next (withQueue s (timeLost s)) := by
  have hrole : tmbRole s = 1 ∨ tmbRole s = 3 := hr
  change execTimeSourceLost s = _
  rw [execTimeSourceLost, if_pos hrole, keepQueue_of_next]

@[simp] theorem holdover_pending (s : State) : (holdover s).pending = s.pending := rfl

/-- The first loss records its event. -/
theorem timeLost_first (h : lossHeld s = false) : timeLost s = condEvent (holdover s) 0x19A 0x0C 0 := by
  simp only [timeLost, h, Bool.false_eq_true, if_false]

/-- A loss that is recorded records nothing more. -/
theorem timeLost_held (h : lossHeld s = true) : timeLost s = holdover s := by
  simp only [timeLost, h, if_true]

end

/-! ### The statement -/

/-- Settles O39: each row of the time base by its role. How the servo takes an offset is the model's choice (log entry 40); the statement
names the offset that it takes. -/
theorem timeBase : Obligations.TimeBase := by
  unfold Obligations.TimeBase
  refine fun s => ⟨fun hb => ⟨fun hr v w => ?opened, fun hr v w => ?closed, exec_tmbTimeCapture hb, exec_tmbCtlWrite_newRole hb⟩,
    exec_ppsOutPulse_second, exec_ppsInEdge_next, exec_ppsInEdge_tod, fun hr => ⟨fun hh => ?first, fun hh => ?held⟩⟩
  case opened =>
    have ho := tmbOpen_iff.2 hr
    exact ⟨exec_tmbSet_open hb ho v, exec_tmbRate_open hb ho w⟩
  case closed =>
    have ho := tmbOpen_of_sourced hr
    exact ⟨exec_tmbSet_closed hb ho v, exec_tmbRate_closed hb ho w⟩
  case first => rw [exec_timeSourceLost_sourced hr, timeLost_first hh]
  case held => rw [exec_timeSourceLost_sourced hr, timeLost_held hh, withQueue_same (holdover_pending s)]

end Sys2Proof.Machine
end

section
/-! Reception of Ethernet frames, their steering, and the rule tables (O40). -/

namespace Sys2Proof.Machine

/-! ### Arrival (R289, R297, R299) -/

section
variable {s : State} {p : Fin 288} {fr : List Byte} (hl : lnkState s (p / 8) = 2) (hn : lnkNative s (p / 8) = false)
  (hp : portAssigned s p = true) (hlo : 64 ≤ fr.length) (hhi : fr.length ≤ 9216)
include hl hn hp hlo hhi

/-- A frame of legal length on an ACTIVE Ethernet port passes the guard of its arrival. -/
theorem ethFrame_passes : ¬ (decide (lnkState s (p.val / 8) ≠ lsActive) || lnkNative s (p.val / 8) || !portAssigned s p ||
    decide (fr.length < 64) || decide (fr.length > 9216)) = true := by
  rw [hn, hp, decide_eq_false (Classical.not_not.2 (show lnkState s (p.val / 8) = lsActive from hl)), decide_eq_false (Nat.not_lt.2 hlo),
    decide_eq_false (Nat.not_lt.2 hhi)]
  decide

theorem exec_ethFrameArrival_badFcs (hbad : ¬ fr.drop (fr.length - 4) = natLE 4 (crc32 (fr.take (fr.length - 4)))) :
    exec (.ethFrameArrival p fr) s = .next { s with par := { s.par with badFcs := smod 0 s.par.badFcs p (fun k => k + 1) } } := by
  have hbad' : fr.drop (fr.length - 4) ≠ fcsOf (fr.take (fr.length - 4)) := hbad
  change execEthFrameArrival p fr s = _
  rw [execEthFrameArrival, if_neg (ethFrame_passes hl hn hp hlo hhi), if_pos hbad']
  rfl

section
variable (hgood : fr.drop (fr.length - 4) = natLE 4 (crc32 (fr.take (fr.length - 4))))
include hgood

/-- A good frame joins its link's buffer while there is room for it. -/
theorem exec_ethFrameArrival_buffered
    (hroom : (rxBuf s (p / 8)).foldl (fun a r => a + r.data.length) 0 + (fr.take (fr.length - 4)).length ≤ 1048576) :
    let data := fr.take (fr.length - 4)
    let r : RxFrame := ⟨p, now s, s.par.seq, pcpOf data, data, none, 0⟩
    exec (.ethFrameArrival p fr) s = .next (withQueue s (pfcCheck
      (setRxBuf { s with par := { s.par with seq := s.par.seq + 1 } } (p / 8) (rxBuf s (p / 8) ++ [r])) (p / 8) r.prio)) := by
  have hgood' : ¬ fr.drop (fr.length - 4) ≠ fcsOf (fr.take (fr.length - 4)) := Classical.not_not.2 hgood
  change execEthFrameArrival p fr s = _
  rw [execEthFrameArrival, if_neg (ethFrame_passes hl hn hp hlo hhi), if_neg hgood', if_neg (Nat.not_lt.2 hroom), keepQueue_of_next]

/-- A good frame without room is dropped and counted. -/
theorem exec_ethFrameArrival_noRoom
    (hfull : 1048576 < (rxBuf s (p / 8)).foldl (fun a r => a + r.data.length) 0 + (fr.take (fr.length - 4)).length) :
    exec (.ethFrameArrival p fr) s = .next (incF s (f_PAR_RXDROP_V (p / 8)) 1) := by
  have hgood' : ¬ fr.drop (fr.length - 4) ≠ fcsOf (fr.take (fr.length - 4)) := Classical.not_not.2 hgood
  change execEthFrameArrival p fr s = _
  rw [execEthFrameArrival, if_neg (ethFrame_passes hl hn hp hlo hhi), if_neg hgood', if_pos hfull, keepQueue_of_pending (incF_pending ..)]

end

end

/-- A PFC frame on a port that has 802.1Qbb on sets or ends the pause of each priority that it enables (R289). -/
theorem exec_pfcFrame_on {s : State} {p : Fin 288} (ho : pfcOn s p = true) (hl : lnkState s (p / 8) = 2) (en : BitVec 8)
    (times : List (BitVec 16)) :
    let rate := 1600 / max 1 (members (lnkMode s (p / 8)))
    exec (.pfcFrame p en times) s = .next (withQueue s ((List.range 8).foldl (fun s k =>
      let q := ((times.getD k 0).toNat * 512 + rate - 1) / rate
      if bit en.toNat k then { s with sch := { s.sch with pause := sput 0 s.sch.pause (8 * p.val + k) (if q = 0 then 0 else now s + q) } }
      else s) s)) := by
  have hgo : ¬ (!pfcOn s p || lnkState s (p.val / 8) != lsActive) = true := by
    rw [ho, show lnkState s (p.val / 8) = lsActive from hl]
    decide
  change execPfcFrame p en times s = _
  rw [execPfcFrame, if_neg hgo, keepQueue_of_next]

/-! ### Parsing and posting (R296–R301, R305) -/

/-- The oldest unparsed frame takes the parse's result. -/
theorem exec_frameParse_oldest {s s' : State} {n : Fin 36} {err : TabErr} {i : Nat} {r : RxFrame} {res : Parsed}
    (hi : (rxBuf s n).findIdx? (fun r => r.res.isNone) = some i) (hr : (rxBuf s n)[i]? = some r) (hres : parseOne s r err = (res, s')) :
    exec (.frameParse n err) s = .next (withQueue s (setRxBuf s' n ((rxBuf s n).set i { r with res := some res }))) := by
  change execFrameParse n err s = _
  simp only [execFrameParse, hi, hr, hres, keepQueue_of_next]

theorem exec_post_offers {s : State} {f : Fin 262144} {i : Fin 65536} {e : Entry} (he : entryOf s f i = some e) (hph : e.ph = .fetched)
    (hop : e.op = 1) (hc : furClass s f = clRx ∨ furClass s f = clExc) :
    exec (.post f i) s = .next (modEntry s f i (fun e => { e with ph := .running })) := by
  change execPost f i s = _
  simp only [execPost, he]
  rw [if_pos ⟨hph, hc, hop⟩, keepQueue_of_pending (modEntry_pending ..)]

/-! ### Release of the frame at the head (R299, R305, R307, R308) -/

section
variable {s : State} {n : Fin 36} {r : RxFrame} {q : List RxFrame} (hq : rxBuf s n = r :: q)
include hq

theorem exec_frameRelease_drop {dei : Bool} {dscp : Nat} (hr : r.res = some (.drop none dei dscp)) :
    exec (.frameRelease n) s = .next (withQueue s (dropHead s n r)) := by
  change execFrameRelease n s = _
  simp only [execFrameRelease, hq, hr, keepQueue_of_next]

theorem exec_frameRelease_lateral {l : List Byte} (hr : r.res = some (.lateral l)) :
    exec (.frameRelease n) s = .next (withQueue s (latArrive (dropHead s n r) l)) := by
  change execFrameRelease n s = _
  simp only [execFrameRelease, hq, hr, keepQueue_of_next]

theorem exec_frameRelease_deliver {f : Nat} {exc : Bool} {reason : Nat} {dei : Bool} {dscp : Nat}
    (hr : r.res = some (.deliver f exc reason none dei dscp)) :
    exec (.frameRelease n) s = .next (withQueue s (deliver s n r f exc reason r.colour)) := by
  change execFrameRelease n s = _
  simp only [execFrameRelease, hq, hr, keepQueue_of_next]

/-- A frame that its rule drops is metered in its turn all the same (log entry 43). -/
theorem exec_frameRelease_dropMetered {i : Nat} {dei : Bool} {dscp : Nat} (hr : r.res = some (.drop (some i) dei dscp)) :
    exec (.frameRelease n) s =
      .next (withQueue s (if meterWaits s i r = true then s else dropHead (meterFrame s i r dei dscp).2.2 n r)) := by
  change execFrameRelease n s = _
  simp only [execFrameRelease, hq, hr, keepQueue_of_next]

section
variable {f i reason dscp : Nat} {exc dei : Bool} (hr : r.res = some (.deliver f exc reason (some i) dei dscp))
include hr

/-- A metered frame stays while an earlier frame may use its meter. -/
theorem exec_frameRelease_meterWaits (hw : meterWaits s i r = true) : exec (.frameRelease n) s = .next s := by
  change execFrameRelease n s = _
  simp only [execFrameRelease, hq, hr, hw, if_true, keepQueue_of_next, withQueue_self]

/-- In its turn it is metered, and its colour drops it or marks it for delivery. -/
theorem exec_frameRelease_metered (hw : meterWaits s i r = false) :
    let u := meterFrame s i r dei dscp
    let r' : RxFrame := { r with res := some (.deliver f exc reason none dei dscp), colour := u.1 }
    exec (.frameRelease n) s = .next (withQueue s (if u.2.1 = true then dropHead u.2.2 n r
      else deliver (setRxBuf u.2.2 n (r' :: (rxBuf u.2.2 n).drop 1)) n r' f exc reason u.1)) := by
  change execFrameRelease n s = _
  simp only [execFrameRelease, hq, hr, hw, Bool.false_eq_true, if_false]
  split <;> rfl

end

end

/-! ### The rule tables (R302–R304) -/

/-- The state with entry `i` of the ternary table replaced. -/
def setTern (s : State) (i : Nat) (r : Tern) : State := { s with par := { s.par with tern := sput Tern.none s.par.tern i r } }

/-- The state with place `j` of the exact table replaced. -/
def setExact (s : State) (j : Nat) (x : Option (Nat × Nat)) : State :=
  { s with par := { s.par with exact_ := sput none s.par.exact_ j x } }

/-- The state with meter `i` replaced. -/
def setMeter (s : State) (i : Nat) (m : Meter) : State := { s with par := { s.par with meters := sput Meter.none s.par.meters i m } }

section
variable {s : State} {i : BitVec 14} (hb : barOpen s = true)
include hb

theorem exec_ruleWrite_tern (hw : ruleOk (stg s 12) = true) :
    exec (.ruleWrite 0 i) s = .next (ruleResult (setTern s i.toNat
      { sget Tern.none s.par.tern i.toNat with valid := true, key := stgWide s 0, mask := stgWide s 6, res := stg s 12 }) 0) := by
  change execRuleWrite 0 i s = _
  rw [execRuleWrite, hb]
  simp only [hw]
  rfl

theorem exec_ruleWrite_exact (hw : ruleOk (stg s 12) = true) {j : Nat} (hj : exactFind s (stgWide s 0) = some j) :
    exec (.ruleWrite 1 i) s = .next (ruleResult (setExact s j (some (stgWide s 0, stg s 12))) 0) := by
  change execRuleWrite 1 i s = _
  rw [execRuleWrite, hb]
  simp only [hw, hj]
  rfl

theorem exec_ruleWrite_meter (hw : meterOk (stg s 12) = true) :
    exec (.ruleWrite 2 i) s = .next (ruleResult (setMeter s i.toNat
      ⟨true, stg s 12, stg s 0 % 2 ^ 24, stg s 1 % 2 ^ 24, 8000 * (stg s 0 % 2 ^ 24), 8000 * (stg s 1 % 2 ^ 24), now s,
        (sget Meter.none s.par.meters i.toNat).cnt⟩) 0) := by
  change execRuleWrite 2 i s = _
  rw [execRuleWrite, hb]
  simp only [hw]
  rfl

/-- A malformed result word ends a WRITE of either rule table. -/
theorem exec_ruleWrite_malformed (hw : ruleOk (stg s 12) = false) :
    exec (.ruleWrite 0 i) s = .next (ruleResult s 1) ∧ exec (.ruleWrite 1 i) s = .next (ruleResult s 1) := by
  constructor
  · change execRuleWrite 0 i s = _
    rw [execRuleWrite, hb]
    simp only [hw]
    rfl
  · change execRuleWrite 1 i s = _
    rw [execRuleWrite, hb]
    simp only [hw]
    rfl

theorem exec_ruleDelete_tern :
    exec (.ruleDelete 0 i) s = .next (ruleResult (setTern s i.toNat { sget Tern.none s.par.tern i.toNat with valid := false }) 0) := by
  change execRuleDelete 0 i s = _
  rw [execRuleDelete, hb]
  rfl

theorem exec_ruleDelete_meter :
    exec (.ruleDelete 2 i) s = .next (ruleResult (setMeter s i.toNat { sget Meter.none s.par.meters i.toNat with valid := false }) 0) := by
  change execRuleDelete 2 i s = _
  rw [execRuleDelete, hb]
  rfl

theorem exec_ruleDelete_exact {j : Nat} (hj : exactFind s (stgWide s 0) = some j) :
    exec (.ruleDelete 1 i) s = .next (ruleResult (setExact s j none) 0) := by
  change execRuleDelete 1 i s = _
  rw [execRuleDelete, hb]
  simp only [hj]
  rfl

theorem exec_ruleDelete_absent (hj : exactFind s (stgWide s 0) = none) : exec (.ruleDelete 1 i) s = .next (ruleResult s 1) := by
  change execRuleDelete 1 i s = _
  rw [execRuleDelete, hb]
  simp only [hj]
  rfl

end

/-- What a READ of entry `j` of a table leaves: the entry as it is, corrected, or made invalid (R304). -/
def tableSeen (s : State) (err : Fin 3) (table j : Nat) : State := if err = 0 then s else tableErr s table j (err == 2)

section
variable {s : State} {i : BitVec 14} {err : Fin 3} (hb : barOpen s = true)
include hb

theorem exec_ruleRead_tern :
    let t := tableSeen s err 0 i.toNat
    let rule := sget Tern.none t.par.tern i.toNat
    exec (.ruleRead 0 i err) s = .next (withQueue s
      (ruleResult (setStg (setStg (setStgWide (setStgWide t 0 rule.key) 6 rule.mask) 12 rule.res) 13 rule.hits) 0)) := by
  change execRuleRead 0 i err s = _
  rw [execRuleRead, hb]
  rfl

theorem exec_ruleRead_meter :
    let t := tableSeen s err 2 i.toNat
    let m := sget Meter.none t.par.meters i.toNat
    let t := setStg (setStg (setStg t 12 m.rec_) 0 m.cbs) 1 m.ebs
    exec (.ruleRead 2 i err) s = .next (withQueue s
      (ruleResult ((List.range 3).foldl (fun s k => setStg s (2 + k) (m.cnt.getD k 0)) t) 0)) := by
  change execRuleRead 2 i err s = _
  rw [execRuleRead, hb]
  rfl

theorem exec_ruleRead_absent (hj : exactFind s (stgWide s 0) = none) : exec (.ruleRead 1 i err) s = .next (ruleResult s 1) := by
  change execRuleRead 1 i err s = _
  rw [execRuleRead, hb]
  simp only [hj]
  rfl

section
variable {j : Nat} (hj : exactFind s (stgWide s 0) = some j)
include hj

theorem exec_ruleRead_exact {k : Nat × Nat} (hk : sget none (tableSeen s err 1 j).par.exact_ j = some k) :
    exec (.ruleRead 1 i err) s = .next (withQueue s (ruleResult (setStg (tableSeen s err 1 j) 12 k.2) 0)) := by
  change execRuleRead 1 i err s = _
  unfold tableSeen at hk ⊢
  rw [execRuleRead, hb]
  simp [hj, hk, stOk]

/-- An exact entry that the read has made invalid is absent (R304). -/
theorem exec_ruleRead_lost (hk : sget none (tableSeen s err 1 j).par.exact_ j = none) :
    exec (.ruleRead 1 i err) s = .next (withQueue s (ruleResult (tableSeen s err 1 j) 1)) := by
  change execRuleRead 1 i err s = _
  unfold tableSeen at hk ⊢
  rw [execRuleRead, hb]
  simp [hj, hk, stField]

end

/-- Table 3 is a reserved code. -/
theorem exec_ruleCommand_reserved : exec (.ruleWrite 3 i) s = .next (writeIgnored s) ∧
    exec (.ruleDelete 3 i) s = .next (writeIgnored s) ∧ exec (.ruleRead 3 i err) s = .next (writeIgnored s) := by
  refine ⟨?_, ?_, ?_⟩
  · change execRuleWrite 3 i s = _
    rw [execRuleWrite, hb]
    rfl
  · change execRuleDelete 3 i s = _
    rw [execRuleDelete, hb]
    rfl
  · change execRuleRead 3 i err s = _
    rw [execRuleRead, hb]
    rfl

end

/-! ### The statement -/

/-- Settles O40: a frame's way from its port to its furrow, one row after the other, and the commands of the rule tables by table. The count
of bad frames per port (log entry 42), the PFC enables (log entry 41), that a WRITE keeps hit and frame counts and that a dropped frame is
metered (log entry 43), and the free values of an invalid entry (log entry 74) are the model's choices. -/
theorem reception : Obligations.Reception := by
  unfold Obligations.Reception
  refine ⟨⟨fun s p fr hl hn hp hlo hhi => ⟨exec_ethFrameArrival_badFcs hl hn hp hlo hhi, exec_ethFrameArrival_buffered hl hn hp hlo hhi,
      exec_ethFrameArrival_noRoom hl hn hp hlo hhi⟩, fun s p en times ho hl => exec_pfcFrame_on ho hl en times,
    fun s s' n err i r res => exec_frameParse_oldest, fun s f i e => exec_post_offers, fun s n r q hq => ?release⟩, fun s i err hb => ?tables⟩
  case release =>
    refine ⟨fun dei dscp => exec_frameRelease_drop hq, fun i dei dscp hr => ⟨fun hw => ?stays, fun hw => ?metered⟩,
      fun l => exec_frameRelease_lateral hq, fun f exc reason dei dscp => exec_frameRelease_deliver hq, fun f exc reason i dei dscp hr =>
        ⟨exec_frameRelease_meterWaits hq hr, fun hw hd => ?dropped, fun hw hd => ?delivered⟩⟩
    case stays => rw [exec_frameRelease_dropMetered hq hr, if_pos hw, withQueue_self]
    case metered => rw [exec_frameRelease_dropMetered hq hr, if_neg (Bool.eq_false_iff.1 hw)]
    case dropped => exact (exec_frameRelease_metered hq hr hw).trans (by rw [if_pos hd])
    case delivered => exact (exec_frameRelease_metered hq hr hw).trans (by rw [if_neg (Bool.eq_false_iff.1 hd)])
  case tables =>
    exact ⟨exec_ruleWrite_tern hb, exec_ruleWrite_malformed hb, fun hw j => exec_ruleWrite_exact hb hw, exec_ruleWrite_meter hb,
      exec_ruleDelete_tern hb, exec_ruleDelete_meter hb, fun j hj => ⟨exec_ruleDelete_exact hb hj, fun k => exec_ruleRead_exact hb hj,
        exec_ruleRead_lost hb hj⟩, fun hj => ⟨exec_ruleDelete_absent hb hj, exec_ruleRead_absent hb hj⟩, exec_ruleRead_tern hb,
      exec_ruleRead_meter hb, exec_ruleCommand_reserved hb⟩

end Sys2Proof.Machine
end

section
/-! The packet scheduler: SEND, frame boundaries, services, gates and histograms (O41). -/

namespace Sys2Proof.Machine

/-! ### SEND (R306) -/

/-- A SEND in its turn, whose data have been read in `s'`, joins the class queue of its furrow's SCHED. -/
theorem exec_send_queued {s s' : State} {f : Fin 262144} {i : Fin 65536} {e : Entry} {d : List Byte} (he : EntryReady s f i clTx 1 e)
    (hturn : s.infl.any (fun x => x.f == e.f && decide (x.seq < e.seq) && (decide (x.ph = .fetched) || decide (x.ph = .paging))) = false)
    (hport : portAssigned s (txPort e.b) = true) (heth : portNative s (txPort e.b) = false)
    (hd : runMM s (readSp (ioOf e) (furOwner s f) (le e.b 48 8) (txLen e.b)) = (.ok d, s')) :
    exec (.send f i) s = .next (withQueue s (enqueue (modEntry s' f i (fun e => { e with ph := .running })) (txPort e.b)
      (((furOf s' f).map Furrow.sched).getD 0) ⟨d, 0, some (f.val, i.val), now s', 0⟩)) := by
  have hopen : ¬ (!portAssigned s (txPort e.b) || portNative s (txPort e.b)) = true := by
    rw [hport, heth]
    decide
  change execSend f i s = _
  rw [execSend, runEntry_ready he, if_neg (Bool.eq_false_iff.1 hturn), if_neg hopen, withData_ok _ hd, keepQueue_of_next]

/-! ### Frame boundaries (R306, R309–R313) -/

/-- What a frame boundary brings up to date before it selects: gates, stale frames, weirs and the service. -/
def boundaryState (s : State) (p : Nat) : State := takeService (accrue (staleDrop (gateSync s p) p) p) p

/-- Has a class a frame that may be sent. -/
def classReady (s : State) (p c : Nat) : Bool := (eligible s p c).isSome

/-- The classes of the weighted group. -/
def weightedGroup : List Nat := (List.range 12).map (fun c => c + 4)

/-- What the weighted rounds find from the class whose turn it is, and the deficits that they leave. -/
def weightedRounds (s : State) (p : Nat) : Option Nat × SMap Int :=
  dwrr s p (weightedGroup.any (fun c => classReady s p c && quantum s p c != 0)) 120000 (sget 4 s.sch.ptr p) s.sch.deficit

/-- An ACTIVE port is not asleep. -/
theorem active_awake {s : State} {n : Nat} (hact : lnkState s n = 2) : ¬ lnkState s n = lsSleep := by
  rw [hact]
  decide

/-- An ACTIVE port that MODE assigns passes the guard of its frame boundary. -/
theorem active_assigned {s : State} {p : Nat} (hact : lnkState s (p / 8) = 2) (hport : portAssigned s p = true) :
    ¬ (decide (lnkState s (p / 8) ≠ lsActive) || !portAssigned s p) = true := by
  rw [hact, hport]
  decide

section
variable {s : State} {p : Fin 288} (hfree : sget 0 s.sch.busy p ≤ 1000 * s.clk)
include hfree

/-- At its frame boundary a port that is not asleep, and not both ACTIVE and assigned, aborts what its queues hold. -/
theorem exec_frameSelect_drop (hawake : lnkState s (p / 8) ≠ 3) (hclosed : lnkState s (p / 8) ≠ 2 ∨ portAssigned s p = false) :
    exec (.frameSelect p) s = .next (withQueue s (portDrop s p)) := by
  have hawake' : ¬ lnkState s (p.val / 8) = lsSleep := hawake
  have hclosed' : (decide (lnkState s (p.val / 8) ≠ lsActive) || !portAssigned s p) = true := by
    rwa [Bool.or_eq_true, decide_eq_true_iff, Bool.not_eq_true']
  change execFrameSelect p s = _
  rw [execFrameSelect, if_neg (Nat.not_lt.2 hfree), if_neg hawake', if_pos hclosed', keepQueue_of_next]

section
variable (hact : lnkState s (p / 8) = 2) (hport : portAssigned s p = true)
include hact hport

/-- The first eligible class of strict priority is served. -/
theorem exec_frameSelect_strict {c : Nat} {it : QItem} (hc : (List.range 4).find? (classReady (boundaryState s p) p) = some c)
    (hit : eligible (boundaryState s p) p c = some it) :
    exec (.frameSelect p) s = .next (withQueue s (sendOut (boundaryState s p) p c it)) := by
  unfold classReady at hc
  unfold boundaryState at hc hit ⊢
  change execFrameSelect p s = _
  rw [execFrameSelect, if_neg (Nat.not_lt.2 hfree), if_neg (active_awake hact), if_neg (active_assigned hact hport)]
  simp only [hc, hit, keepQueue_of_next]

/-- With no class of strict priority eligible, the class that the weighted rounds find is served, and the next rounds start there. -/
theorem exec_frameSelect_weighted {c : Nat} {it : QItem} {d : SMap Int}
    (hstrict : (List.range 4).any (classReady (boundaryState s p) p) = false)
    (hgrp : weightedGroup.any (classReady (boundaryState s p) p) = true)
    (hround : weightedRounds (boundaryState s p) p = (some c, d))
    (hit : eligible { boundaryState s p with sch := { (boundaryState s p).sch with deficit := d } } p c = some it) :
    exec (.frameSelect p) s = .next (withQueue s (sendOut { boundaryState s p with sch := { (boundaryState s p).sch with
      deficit := d
      ptr := sput 4 (boundaryState s p).sch.ptr p c } } p c it)) := by
  have hnone : (List.range 4).find? (classReady (boundaryState s p) p) = none := by
    simpa only [List.find?_eq_none, List.any_eq_false] using hstrict
  unfold weightedRounds weightedGroup boundaryState classReady at *
  change execFrameSelect p s = _
  rw [execFrameSelect, if_neg (Nat.not_lt.2 hfree), if_neg (active_awake hact), if_neg (active_assigned hact hport)]
  simp only [hnone, hgrp, hround, hit, Bool.not_true, Bool.false_eq_true, if_false, keepQueue_of_next]

end

end

/-! ### Services (R311) -/

section
variable {s : State} {p : Fin 288} {v : BitVec 2} (hb : barOpen s = true)
include hb

/-- SERVICE takes a value other than 3, and 0 only outside TRAINING. -/
theorem exec_serviceWrite_taken (hv : v.toNat = 1 ∨ v.toNat = 2 ∨ v.toNat = 0 ∧ lnkState s (p / 8) ≠ 1) :
    exec (.serviceWrite p v) s = .next (wr s (f_SCH_SVC_SERVICE p) v.toNat) := by
  have hok : ¬ (v.toNat = 3 ∨ (v.toNat = 0 ∧ lnkState s (p.val / 8) = lsTraining)) := by
    simp only [lsTraining]
    omega
  change execServiceWrite p v s = _
  rw [execServiceWrite, hb, if_neg (by decide), if_neg hok, keepQueue_of_pending (wr_pending ..)]

/-- 3, and 0 in TRAINING, are ignored. -/
theorem exec_serviceWrite_ignored (hv : v.toNat = 3 ∨ v.toNat = 0 ∧ lnkState s (p / 8) = 1) :
    exec (.serviceWrite p v) s = .next (writeIgnored s) := by
  have hbad : v.toNat = 3 ∨ (v.toNat = 0 ∧ lnkState s (p.val / 8) = lsTraining) := hv
  change execServiceWrite p v s = _
  rw [execServiceWrite, hb, if_neg (by decide), if_pos hbad, keepQueue_of_pending (writeIgnored_pending s)]

end

/-! ### Gates (R294, R312) -/

/-- With an OPER list the gates become those of its entry in force, and a hold whose exchange has decided ends (R294). -/
theorem gateStep_of_oper {s : State} {p : Nat} {g : GateList} (hg : operOf (accrue s p) p = some g) :
    let t := accrue s p
    let u : State := { t with sch := { t.sch with gates := sput 0xFFFF t.sch.gates p (gatesAt g (now t)).1 } }
    gateStep s p = if (lnkOf u (p / 8)).hold = 3 then modLnk u (p / 8) (fun l => { l with hold := 0 }) else u := by
  simp only [gateStep, hg]

theorem exec_gateEntryBoundary (s : State) (p : Fin 288) : exec (.gateEntryBoundary p) s = .next (withQueue s (gateStep s p)) := rfl

/-- ADMIN becomes OPER; an empty list opens every gate. -/
theorem listStep_eq (s : State) (p : Nat) :
    let t := accrue s p
    listStep s p = { t with sch := { t.sch with
      armed := ndel t.sch.armed p
      oper := sput none t.sch.oper p (if (adminOf t p).ents = [] then none else some (adminOf t p))
      gates := sput 0xFFFF t.sch.gates p (if (adminOf t p).ents = [] then 0xFFFF else (gatesAt (adminOf t p) (now t)).1) } } := by
  by_cases he : (adminOf (accrue s p) p).ents = []
  · simp only [listStep, if_pos he]
  · simp only [listStep, if_neg he]

theorem changeDue_iff {s : State} {p : Nat} : changeDue s p = true ↔ nin s.sch.armed p = true ∧ changeInstant s p ≤ now s := by
  simp [changeDue]

theorem exec_gateListChange_due {s : State} {p : Fin 288} (hd : changeDue s p = true) :
    exec (.gateListChange p) s = .next (withQueue s (listStep s p)) := by
  change execGateListChange p s = _
  rw [execGateListChange, if_pos hd, keepQueue_of_next]

/-! ### Histograms (R314) -/

/-- Once the multiple of SAMPLE last sampled has passed, every class queue of the port samples. -/
theorem exec_queueHistogramSample_due {s : State} {p : Fin 288} (hs : rd s (f_SCH_SAMPLE_V p) ≠ 0)
    (hn : sget 0 s.sch.sampled p < now s / (1000 * rd s (f_SCH_SAMPLE_V p))) :
    let t := (List.range 16).foldl (fun s c => histSample s p c) s
    exec (.queueHistogramSample p) s = .next (withQueue s (histShow { t with sch := { t.sch with
      sampled := sput 0 t.sch.sampled p (now s / (1000 * rd s (f_SCH_SAMPLE_V p))) } })) := by
  have hmax : max 1 (rd s (f_SCH_SAMPLE_V p)) = rd s (f_SCH_SAMPLE_V p) := Nat.max_eq_right (Nat.one_le_iff_ne_zero.2 hs)
  have hgo : ¬ (decide (now s / (1000 * rd s (f_SCH_SAMPLE_V p)) ≤ sget 0 s.sch.sampled p) || rd s (f_SCH_SAMPLE_V p) == 0) = true := by
    simpa using ⟨hn, hs⟩
  change execQueueHistogramSample p s = _
  simp only [execQueueHistogramSample, hmax]
  rw [if_neg hgo, keepQueue_of_next]

/-- The queue that SCH_HSEL selects is cleared and shown; a sample of the same ns is taken again. -/
theorem exec_histogramClear {s : State} (hb : barOpen s = true) (q : BitVec 13) (sh : Bool) :
    let t := wr (wr s f_SCH_HSEL_QUEUE q.toNat) f_SCH_HSEL_SHADOW (b2n sh)
    let t : State := { t with sch := { t.sch with hist := sclear t.sch.hist (34 * q.toNat) 34 } }
    exec (.histogramClear q sh) s = .next (withQueue s (histShow
      (if sampledNow t (q.toNat / 16) then histSample t (q.toNat / 16) (q.toNat % 16) else t))) := by
  change execHistogramClear q sh s = _
  rw [execHistogramClear, hb, if_neg (by decide), keepQueue_of_next]

/-! ### The statement -/

/-- Settles O41: a SEND's way into its queue, what a frame boundary does by the port's state and by the class that is found, and the rows
of services, gates and histograms. That a frame ends its entry as its transmission starts, and that a frame boundary first brings the gates
up to the time base (both log entry 44), are the model's choices. -/
theorem scheduler : Obligations.Scheduler := by
  unfold Obligations.Scheduler
  refine fun s p => ⟨fun f i e d s' he hph hcl hop => exec_send_queued ⟨he, hph, hcl, hop⟩, fun hfree =>
    ⟨exec_frameSelect_drop hfree, fun hact hport => ⟨fun c it => exec_frameSelect_strict hfree hact hport,
      fun hstrict hgrp c it hc => exec_frameSelect_weighted hfree hact hport hstrict hgrp (Prod.ext hc rfl)⟩⟩,
    fun hb v => ⟨exec_serviceWrite_taken hb, exec_serviceWrite_ignored hb⟩, fun g hg => ?boundary, fun harm hcome => ?change,
    exec_queueHistogramSample_due, exec_histogramClear⟩
  case boundary => rw [exec_gateEntryBoundary, gateStep_of_oper hg]
  case change => rw [exec_gateListChange_due (changeDue_iff.2 ⟨harm, hcome⟩), listStep_eq]

end Sys2Proof.Machine
end

section
/-! Every meaning answers a next state with the queue that it was given (O2, O3, O4). -/

namespace Sys2Proof.Machine

/-- The answer is a next state, neither a fault nor a refusal. -/
def IsNext (a : Ans) : Prop := ∃ t, a = .next t

/-- The answer is a next state with the queue of `s`. -/
def Answers (s : State) (a : Ans) : Prop := ∃ t, a = .next t ∧ t.pending = s.pending

/-- A meaning whose body answers a next state answers it with the queue that it was given. -/
theorem answers_keepQueue {s : State} {a : Ans} (h : IsNext a) : Answers s (keepQueue s a) := by
  obtain ⟨t, rfl⟩ := h
  exact ⟨withQueue s t, rfl, rfl⟩

/-! ### The frames of rows of one engine -/

theorem isNext_start0 (s : State) (c : Nat) (mac : Bool) (run : Nat → CopEntry CP0Op → Option State) :
    IsNext (start0 s c mac run) := by
  unfold start0
  repeat' split
  all_goals exact ⟨_, rfl⟩

theorem isNext_start1 (s : State) (c : Nat) (run : CopEntry CP1Op → Option State) : IsNext (start1 s c run) := by
  unfold start1
  repeat' split
  all_goals exact ⟨_, rfl⟩

theorem isNext_serve (s : State) (op : Nat) (k : TCmd → State) : IsNext (serve s op k) := by
  unfold serve
  repeat' split
  all_goals exact ⟨_, rfl⟩

theorem isNext_dbgCmd (s : State) (k : Nat → Cell → State → State) : IsNext (dbgCmd s k) := by
  unfold dbgCmd
  extract_lets
  repeat' split
  all_goals exact ⟨_, rfl⟩

theorem isNext_takeRx (s : State) (ty : Nat) (k : List Byte → State → State) : IsNext (takeRx s ty k) := by
  unfold takeRx
  repeat' split
  all_goals exact ⟨_, rfl⟩

theorem isNext_rxFrame (s : State) (n ty : Nat) (fr : List Byte) (k : FrameHdr → State → State) : IsNext (rxFrame s n ty fr k) := by
  unfold rxFrame
  extract_lets
  repeat' split
  all_goals exact ⟨_, rfl⟩

theorem isNext_rxNat (s : State) (p : RxNat) (k : State → State) : IsNext (rxNat s p k) := by
  unfold rxNat
  extract_lets
  split
  all_goals exact ⟨_, rfl⟩

/-! ### Every row -/

/-- Every command answers a next state and keeps the queue: the rows of an engine by its frame, the others outright or in each of their
branches. -/
theorem exec_answers (i : Instr) (s : State) : Answers s (exec i s) := by
  cases i
  case tld | tldt | tlds | tmma | tclr | trnd | txp | tim | tmtc | tsig | twait => exact answers_keepQueue (isNext_start0 ..)
  case vld | vst | vbc | vadd | vsub | vmul | vmax | vmin | vfma | vsel | vcmp | vhmax | vcvt | vfnExp2 | vfnExp | vfnLog2
      | vfnLog | vfnRcp | vfnRsqrt | vexpd | vexp2d | vred | vdot | vxclr | vxrnd | vquot | vxp | vxim | vmtc | vsig | vwait =>
    exact answers_keepQueue (isNext_start1 ..)
  case turnoutCreate | turnoutDestroy | turnoutReset | keyLoad | keyFree => exact answers_keepQueue (isNext_serve ..)
  case debugRelease | halt | resume | step | rdReg | wrReg | rdMem | wrMem | debugReset =>
    exact answers_keepQueue (isNext_dbgCmd ..)
  case writePacket | readReqPacket | atomicPacket | ackPacket | readRspPacket | atomicRspPacket =>
    exact answers_keepQueue (isNext_takeRx ..)
  case dataFrame | ctrlFrame | sleepFrame => exact answers_keepQueue (isNext_rxFrame ..)
  case barrierArriveFrame | barrierReleaseFrame | timeFrame => exact answers_keepQueue (isNext_rxNat ..)
  case ppsInEdge | ruleWrite | packetRetransmit =>
    refine answers_keepQueue ?_
    dsimp only
    repeat' split
    all_goals exact ⟨_, rfl⟩
  any_goals exact ⟨_, rfl, rfl⟩
  all_goals
    refine answers_keepQueue ?_
    repeat' first | split | extract_lets
    all_goals exact ⟨_, rfl⟩

/-! ### The statements -/

/-- Settles O2: a command that waits is taken and answers a next state with the rest of the queue; time leaves the empty queue empty. -/
theorem stepsAnswer : Obligations.StepsAnswer := by
  unfold Obligations.StepsAnswer
  intro s
  match hq : s.pending with
  | [] => exact ⟨withQueue s (tick s), step_of_pending_nil hq, hq⟩
  | c :: q =>
    rw [step_of_pending_cons hq]
    exact exec_answers c { s with pending := q }

/-- Settles O3: the queue after a step is the tail of the queue before it. -/
theorem queueStaysSound : Obligations.QueueStaysSound := by
  unfold Obligations.QueueStaysSound
  intro s t hs ht c hc
  obtain ⟨u, hu, hp⟩ := stepsAnswer s
  obtain rfl : t = u := by
    rw [ht] at hu
    exact Host.Outcome.next.inj hu
  rw [hp] at hc
  exact hs c (List.mem_of_mem_tail hc)

/-- Settles O4: no command waits at reset. -/
theorem queueSoundAtReset : Obligations.QueueSoundAtReset :=
  ⟨fun _ h => absurd h List.not_mem_nil, rfl⟩

end Sys2Proof.Machine
end

section
/-! The SMBus target, I2C and PMBus, HEALTH and the pads (O59). -/

namespace Sys2Proof.Machine

/-! ### The SMBus target (R451, R452) -/

section
variable {s : State} (hi : s.boot.inRst = false)
include hi

section
variable (hp : s.boot.powered = true) (hst : rd s f_GEN_STATE_STATE ≠ 0)
include hp hst

/-- While the boot ROM serves, an MCTP control message is answered. -/
theorem exec_smbusRequest_mctp (hb : afterBoot s = false) (c a : Byte) :
    exec (.smbusRequest (.mctp c a)) s = .next (withQueue s (serveMctp s c a)) := by
  change execSmbusRequest (.mctp c a) s = _
  simp [execSmbusRequest, hi, hp, hst, hb]

variable {r : SideReq} (ho : r ≠ .other)
include ho

/-- While the boot ROM serves, a PLDM or SPDM request finds the target busy. -/
theorem exec_smbusRequest_romBusy (hb : afterBoot s = false) (hm : ∀ c a, r ≠ .mctp c a) (ht : ∀ v, r ≠ .setTod v) :
    exec (.smbusRequest r) s = .next (emit s (.side 0 1 [])) := by
  change execSmbusRequest r s = _
  cases r with
  | other => exact absurd rfl ho
  | mctp c a => exact absurd rfl (hm c a)
  | setTod v => exact absurd rfl (ht v)
  | _ => simp [execSmbusRequest, hi, hp, hst, hb, sideAnswer, withQueue_emit]

/-- The firmware's target: an error while its component stands, busy during an activation or with sixteen requests, else the request
queues. -/
theorem exec_smbusRequest_firmware (hb : afterBoot s = true) : exec (.smbusRequest r) s = .next (withQueue s
    (if compStopped s 6 = true then sideAnswer s 2 []
      else if s.boot.activating = true ∨ 16 ≤ s.side.queue.length then sideAnswer s 1 []
      else { s with side := { s.side with queue := s.side.queue ++ [r] } })) := by
  have hst' : (rd s f_GEN_STATE_STATE == 0) = false := by simpa using hst
  change execSmbusRequest r s = _
  cases r with
  | other => exact absurd rfl ho
  | _ =>
    simp only [execSmbusRequest, hi, hp, hst', hb, Bool.not_true, Bool.or_false, Bool.false_eq_true, if_false, Bool.or_eq_true, decide_eq_true_eq]
    split
    · rfl
    · split <;> rfl

end

/-- SET_TOD as the firmware serves it. -/
theorem exec_setTod_served (hf : fwServes s = true) (hc : compStopped s 6 = false) (v : DWord) :
    exec (.setTod v) s = .next (sideAnswer (setTod s v) 0 []) := by
  change execSetTod v s = _
  simp only [execSetTod, hi, hf, hc, Bool.not_true, Bool.or_false, Bool.false_eq_true, if_false]
  rfl

end

/-! ### I2C and PMBus (R453–R455) -/

/-- The I2C controller with `n` failures of the transaction, to be retried at `t`. -/
def i2cSet (s : State) (n t : Nat) : State := { s with side := { s.side with i2cFails := n, i2cRetry := t } }

/-- What a transaction leaves: nothing to retry, the retry after a first failure, an event after the second. -/
def i2cOutcome (s : State) : Nat → State
  | 0 => i2cSet s 0 0
  | 1 => s
  | _ => if s.side.i2cFails = 0 then i2cSet s 1 (s.clk + 1000000) else busFault (i2cSet s 0 0) 1 3 0

section
variable {s : State} (hc : clocksRun s = true)
include hc

theorem exec_i2cTransaction (hr : s.side.i2cFails = 0 ∨ s.side.i2cRetry ≤ s.clk) (o : Fin 3) :
    exec (.i2cTransaction o) s = .next (withQueue s (i2cOutcome s o)) := by
  have hr' : ¬ (!clocksRun s || (s.side.i2cFails != 0 && decide (s.clk < s.side.i2cRetry))) = true := by
    simp only [hc, Bool.not_true, Bool.false_or, Bool.and_eq_true, bne_iff_ne, decide_eq_true_eq]
    omega
  change execI2cTransaction o s = _
  rw [execI2cTransaction]
  simp only [if_neg hr']
  match o with
  | 0 => rfl
  | 1 => rfl
  | 2 =>
    simp only [i2cOutcome]
    split <;> rfl

/-- SCL held low by another party. -/
theorem exec_i2cBusClear_sclLow (b : Fin 2) (n : Fin 10) :
    exec (.i2cBusClear b n 2) s = .next (withQueue s (busFault s (1 + b.val) 1 0)) := by
  change execI2cBusClear b n 2 s = _
  simp [execI2cBusClear, hc]

/-- A clear whose second has passed sends its pulses and notes when, where it fails, it may be repeated. -/
theorem exec_i2cBusClear_due {b : Fin 2} (hl : sget 0 s.side.clear b = 0 ∨ sget 0 s.side.clear b - 1 + 1000000000 ≤ s.clk) (n : Fin 10)
    {k : Fin 3} (hk : k ≠ 2) : exec (.i2cBusClear b n k) s = .next (withQueue s
      (let u := emit s (.side 2 (1 + b.val) (natLE 1 (if k = 0 then n.val else 9)))
       let v := { u with side := { u.side with clear := sput 0 u.side.clear b (if k = 0 then 0 else 1 + u.clk) } }
       if k = 0 then v else busFault v (1 + b.val) 0 0)) := by
  have hl' : ¬ (sget 0 s.side.clear b ≠ 0 ∧ s.clk < sget 0 s.side.clear b - 1 + 1000000000) := by omega
  change execI2cBusClear b n k s = _
  simp only [execI2cBusClear, hc, Bool.not_true, Bool.false_eq_true, if_false, if_neg hk, if_neg hl', keepQueue_of_next]

end

/-! ### HEALTH and the pads (R457–R459) -/

theorem exec_healthToggle_dead {s : State} (h : healthy s = false) :
    exec .healthToggle s = .next { s with side := { s.side with health := false, healthAt := 0 } } := by
  change execHealthToggle s = _
  simp only [execHealthToggle, h, Bool.not_false, if_true]
  rfl

theorem exec_healthToggle_due {s : State} (h : healthy s = true) (hd : s.side.healthAt = 0 ∨ s.side.healthAt - 1 + 500000 ≤ s.clk) :
    exec .healthToggle s = .next (emit { s with side := { s.side with health := !s.side.health, healthAt := 1 + s.clk } }
      (.side 3 0 (natLE 1 (b2n (!s.side.health))))) := by
  have hd' : ¬ (s.side.healthAt ≠ 0 ∧ s.clk < s.side.healthAt - 1 + 500000) := by omega
  change execHealthToggle s = _
  simp only [execHealthToggle, h, Bool.not_true, Bool.false_eq_true, if_false, if_neg hd']
  rfl

theorem exec_pullupTest {s : State} {p : Fin 48} {b : Nat} (hb : pullBus p = some b) (fell : Bool) :
    exec (.pullupTest p fell) s = .next (withQueue s (if fell && clocksRun s then busFault s b 2 p else s)) := by
  change execPullupTest p fell s = _
  simp only [execPullupTest, hb, keepQueue_of_next]

theorem exec_padShortDetect_driven {s : State} {p : Fin 48} (hc : clocksRun s = true) (hp : drivenPin p = true) :
    exec (.padShortDetect p) s = .next (withQueue s
      (let t := busFault s (if p.val = 24 ∨ p.val = 25 then 3 else if p.val = 15 then 0 else 4) 4 p
       if p.val = 29 then slotBad t else t)) := by
  change execPadShortDetect p s = _
  simp [execPadShortDetect, hc, hp]

/-! ### The statement -/

/-- Settles O59: a request by who serves the target, and each row of a bus, of HEALTH and of a pad by its rule. That the boot ROM leaves the
vendor's message unanswered, the bus numbers of pad faults and the times of I2C are the model's (log entry 64). -/
theorem sidebands : Obligations.Sidebands := by
  unfold Obligations.Sidebands
  refine fun s => ⟨fun hi hp hst r ho => ⟨fun hb => ⟨?mctp, fun hm ht => exec_smbusRequest_romBusy hi hp hst ho hb hm ht⟩,
    fun hb hc => ?stopped, fun hb hc ha => ?firmware⟩, fun hi hf hc v => exec_setTod_served hi hf hc v, fun hc hr => ?i2c,
    fun hc b n => ⟨exec_i2cBusClear_sclLow hc b n, ?clear⟩,
    exec_healthToggle_dead, exec_healthToggle_due, fun p b hb => ?pullup, fun hc p hp => exec_padShortDetect_driven hc hp⟩
  case mctp =>
    rintro c a rfl
    exact exec_smbusRequest_mctp hi hp hst hb c a
  case i2c =>
    have h := exec_i2cTransaction hc hr
    refine ⟨h 0, h 1, fun h0 => (h 2).trans ?_, fun h0 => (h 2).trans ?_⟩
    · rw [show i2cOutcome s (2 : Fin 3) = i2cSet s 1 (s.clk + 1000000) from if_pos h0]
      rfl
    · rw [show i2cOutcome s (2 : Fin 3) = busFault (i2cSet s 0 0) 1 3 0 from if_neg h0]
      rfl
  case clear => exact fun hl => ⟨exec_i2cBusClear_due hc hl n (by decide), exec_i2cBusClear_due hc hl n (by decide)⟩
  case stopped =>
    rw [exec_smbusRequest_firmware hi hp hst ho hb, if_pos hc]
    rfl
  case firmware =>
    rw [exec_smbusRequest_firmware hi hp hst ho hb, if_neg (by simp [hc])]
    refine ⟨fun hq => ?_, fun hq => ?_⟩
    · rw [if_pos (.inr hq)]
      rfl
    · rw [if_neg (by simp [ha, hq])]
      rfl
  case pullup =>
    have h := exec_pullupTest (s := s) hb
    refine ⟨fun hc => ?_, h false⟩
    rw [h true, hc]
    rfl

end Sys2Proof.Machine
end

section
/-! The fault controller's windows, clears, recovery and injection, and telemetry (O56). -/

namespace Sys2Proof.Machine

/-! ### Windows and clears (R425, R426) -/

section
variable {s : State} {src : Fin 512}

theorem exec_faultWindowClose_over (h : windowOver s src = true) :
    exec (.faultWindowClose src) s = .next (closeWindow s src) := by
  change execFaultWindowClose src s = _
  simp only [execFaultWindowClose, h, if_true]
  rfl

section
variable (hb : barOpen s = true) (ha : rd s (f_FLT_STAT_ACTIVE src) = 1)
include hb ha

/-- A condition that has ended: ACTIVE and its pins are released. -/
theorem exec_faultClearActive_ended (hp : rd s (f_FLT_STAT_PRESENT src) = 0) : exec (.faultClearActive src) s = .next (withQueue s
    (alertPin (errPin (wr (wr s (f_FLT_STAT_ACTIVE src) 0) (f_FLT_STAT_PINNED src) 0)))) := by
  change execFaultClearActive src s = _
  simp [execFaultClearActive, hb, ha, hp]

variable (hp : rd s (f_FLT_STAT_PRESENT src) ≠ 0)
include hp

/-- A condition that persists within 10 ms of its last repeat is only counted. -/
theorem exec_faultClearActive_dropped (h0 : sget 0 s.flt.rep src ≠ 0) (ht : s.clk < sget 0 s.flt.rep src - 1 + 10000000) :
    exec (.faultClearActive src) s = .next (withQueue s (incF s f_FLT_HIST_DROP_V 1)) := by
  change execFaultClearActive src s = _
  simp [execFaultClearActive, hb, ha, hp, h0, ht]

/-- A condition that persists is recorded again. -/
theorem exec_faultClearActive_repeated (ht : sget 0 s.flt.rep src = 0 ∨ sget 0 s.flt.rep src - 1 + 10000000 ≤ s.clk) :
    exec (.faultClearActive src) s = .next (withQueue s (uncorr { s with flt := { s.flt with rep := sput 0 s.flt.rep src (1 + s.clk) } } src
      (condOf s src / 2 ^ 24) (condOf s src % 2 ^ 24) 0 true)) := by
  have ht' : ¬ (sget 0 s.flt.rep src ≠ 0 ∧ s.clk < sget 0 s.flt.rep src - 1 + 10000000) := by omega
  have hc : condOf { s with flt := { s.flt with rep := sput 0 s.flt.rep src (1 + s.clk) } } src = condOf s src := rfl
  change execFaultClearActive src s = _
  simp only [execFaultClearActive, hb, ha, if_neg hp, if_neg ht', hc]
  rfl

end

/-- LASTING cleared closes the window, and may bring the device back. -/
theorem exec_faultClearLasting (hb : barOpen s = true) (hl : rd s (f_FLT_STAT_LASTING src) = 1) :
    exec (.faultClearLasting src) s = .next (withQueue s
      (let t := closeWindow (wr s (f_FLT_STAT_LASTING src) 0) src
       if rd t f_GEN_STATE_STATE = 6 ∧ (List.range 0x1A0).any (fun k => rd t (f_FLT_STAT_LASTING k) == 1) = false ∧ partsLost t = false
        then wr t f_GEN_STATE_STATE 5 else t)) := by
  change execFaultClearLasting src s = _
  simp only [execFaultClearLasting, hb, hl]
  rfl

end

/-! ### Recovery and injection (R427–R429) -/

theorem exec_recoveryEnd_done {s : State} (hr : rd s f_FLT_PIN_RECOVERY = 1) (hp : rstPending s = false) :
    exec .recoveryEnd s = .next (wr { s with flt := { s.flt with nmi := 0, rsts := [] } } f_FLT_PIN_RECOVERY 0) := by
  change execRecoveryEnd s = _
  simp only [execRecoveryEnd, hr, hp]
  rfl

/-- An event of a source that exists and is not in reset is injected by its class. -/
theorem inject_of_awake {s : State} {src : Nat} (h : src ≤ 0x19F) (hr : srcInReset s src = false) (code detail : Nat) :
    inject s src 0 code detail = corr s src code detail 1 ∧ inject s src 1 code detail = uncorr s src code detail 1 false ∧
    inject s src 2 code detail = promoted s src code detail 1 ∧ inject s src 3 code detail = infoEvent s src code detail 1 := by
  have hn : ¬ (decide (src > 0x19F) || srcInReset s src) = true := by simp [hr, h]
  simp only [inject, if_neg hn, and_self]

/-- The fields of FLT_INJ written. -/
def injWritten (s : State) (cls : Fin 4) (src : BitVec 9) (code : Byte) (d : BitVec 24) : State :=
  wr (wr (wr (wr s f_FLT_INJ_CLASS cls) f_FLT_INJ_SOURCE src.toNat) f_FLT_INJ_CODE code.toNat) f_FLT_INJ_DETAIL d.toNat

section
variable {s : State} (hb : barOpen s = true) (cls : Fin 4) (src : BitVec 9) (code : Byte) (d : BitVec 24)
include hb

theorem exec_faultInject_absent (ha : rd s f_FLT_INJ_AVAIL = 0) :
    exec (.faultInject cls src code d) s = .next (withQueue s (writeIgnored s)) := by
  change execFaultInject cls src code d s = _
  simp [execFaultInject, hb, ha]

theorem exec_faultInject_available (ha : rd s f_FLT_INJ_AVAIL = 1) : exec (.faultInject cls src code d) s = .next (withQueue s
    (inject (injWritten s cls src code d) src.toNat cls code.toNat d.toNat)) := by
  change execFaultInject cls src code d s = _
  simp only [execFaultInject, hb, ha]
  rfl

end

/-! ### Telemetry (R430–R432) -/

section
variable {s : State} (hb : barOpen s = true) (ha : rd s f_TEL_SNAP_CTL_ARM = 0)
include hb ha

theorem exec_telSnapArm_late (hl : (regv s f_TEL_SNAP_AT_V.key).toNat < now s) : exec .telSnapArm s = .next (withQueue s
    (snapshot (wr (wr { s with flt := { s.flt with snap := 0 } } f_TEL_SNAP_CTL_ARM 1) f_TEL_SNAP_CTL_LATE 1))) := by
  change execTelSnapArm s = _
  simp [execTelSnapArm, hb, ha, hl, b2n]

theorem exec_telSnapArm_early (hl : now s ≤ (regv s f_TEL_SNAP_AT_V.key).toNat) : exec .telSnapArm s = .next
    (wr (wr { s with flt := { s.flt with snap := 0 } } f_TEL_SNAP_CTL_ARM 1) f_TEL_SNAP_CTL_LATE 0) := by
  change execTelSnapArm s = _
  simp only [execTelSnapArm, hb, ha, Nat.not_lt.2 hl, decide_false]
  rfl

end

theorem exec_snapshotCopy_due {s : State} (ha : rd s f_TEL_SNAP_CTL_ARM = 1) (ht : (regv s f_TEL_SNAP_AT_V.key).toNat ≤ now s) :
    exec .snapshotCopy s = .next (withQueue s (snapshot s)) := by
  change execSnapshotCopy s = _
  simp [execSnapshotCopy, ha, ht]

theorem exec_ditchRiderPoll_due {s : State} (hf : s.boot.fw.isSome = true) (hc : compStopped s 7 = false) (hd : pollDue s = true) :
    exec .ditchRiderPoll s = .next (emit { s with flt := { s.flt with polled := 1 + s.clk } }
      (.side 0 3 (catalogue.flatMap (fun p => natLE 8 (regv s p.1).toNat)))) := by
  have hn : s.boot.fw.isNone = false := by simpa [Option.isSome_iff_ne_none] using hf
  change execDitchRiderPoll s = _
  simp only [execDitchRiderPoll, hn, hc, hd]
  rfl

/-! ### The statement -/

/-- Settles O56: a clear by the condition's state, an injection by its class, a snapshot by its instant. That a poll before its time does
nothing and that RECOVERY_END waits for the resets of reactions is the model's choice (log entry 60). -/
theorem faultsAndTelemetry : Obligations.FaultsAndTelemetry := by
  unfold Obligations.FaultsAndTelemetry
  refine fun s => ⟨fun src => ⟨exec_faultWindowClose_over, fun hb ha => ⟨exec_faultClearActive_ended hb ha, fun hp =>
    ⟨exec_faultClearActive_dropped hb ha hp, exec_faultClearActive_repeated hb ha hp⟩⟩, exec_faultClearLasting⟩, exec_recoveryEnd_done,
    fun hb cls src code d => ⟨exec_faultInject_absent hb cls src code d, fun ha => ?inject⟩,
    fun hb ha => ⟨exec_telSnapArm_late hb ha, exec_telSnapArm_early hb ha⟩, exec_snapshotCopy_due, exec_ditchRiderPoll_due⟩
  case inject =>
    intro t hs hr
    rw [exec_faultInject_available hb cls src code d ha]
    obtain ⟨hcorr, huncorr, hpromoted, hinfo⟩ := inject_of_awake (s := t) hs hr code.toNat d.toNat
    refine ⟨?_, ?_, ?_, ?_⟩
    all_goals rintro rfl
    · rw [← hcorr]
      rfl
    · rw [← huncorr]
      rfl
    · rw [← hpromoted]
      rfl
    · rw [← hinfo]
      rfl

end Sys2Proof.Machine
end

section
/-! The release of PROCHOT_N where the register store is out of order (O58). -/

namespace Sys2Proof.Machine

/-- A running machine with PROCHOT_N low and every other field of PWR_STAT at its reset value, in whose register store a higher register
stands before PWR_STAT. -/
def unorderedRegs : State := { State.reset with regs := [(0x300009, 1), (f_PWR_STAT_PROCHOT.key, regReset f_PWR_STAT_PROCHOT.key + 32)] }

theorem unorderedRegs_prochot : rd unorderedRegs f_PWR_STAT_PROCHOT = 1 := by decide +kernel

/-- A write of the reset value stops at the higher register, so that PROCHOT still reads 1 after it is cleared. -/
theorem unorderedRegs_cleared : rd (wr unorderedRegs f_PWR_STAT_PROCHOT 0) f_PWR_STAT_PROCHOT = 1 := by decide +kernel

/-- What a meaning's answer holds of the thermal source's condition: 0 where none is present. -/
def thermCond : Ans → Option Nat
  | .next t => some (sget 0 t.flt.cond 0x19C)
  | _ => none

/-- In the model the release then repeats the condition of PROCHOT_N. -/
theorem exec_prochotRelease_unordered : thermCond (exec .prochotRelease unorderedRegs) = some (1 + 0x13 * 2 ^ 24 + 0xFF) := by decide +kernel

/-- Refutes O58: the statement clears PRESENT on every release of PROCHOT_N without a hot sensor, where the model reads PROCHOT back after
clearing it; in a register store whose keys do not rise the cleared field can still read 1. The statement takes every state, not only those
whose register store is in order. -/
theorem not_powerManagement : ¬ Obligations.PowerManagement := by
  unfold Obligations.PowerManagement
  intro h
  obtain ⟨-, ⟨-, -, -, hrelease⟩, -⟩ := h unorderedRegs
  obtain ⟨hcold, -⟩ := hrelease unorderedRegs_prochot
  have hcond := congrArg thermCond (hcold rfl)
  rw [exec_prochotRelease_unordered] at hcond
  exact absurd hcond (by decide +kernel)

end Sys2Proof.Machine
end

section
/-! The TAP, the debug commands and the debug lock (O57). -/

namespace Sys2Proof.Machine

/-! ### The TAP (R433) -/

theorem exec_samplePreload {s t : State} {d pins : List Byte} (h : freshBytes (tapIr s 1) d.length = (pins, t)) :
    exec (.samplePreload d) s = .next (withQueue s (emit { t with dbg := { t.dbg with bscan := d } } (.side 4 1 pins))) := by
  change execSamplePreload d s = _
  simp only [execSamplePreload, h, keepQueue_of_next]

theorem exec_bypass {s : State} {code : Byte} (h : code.toNat ∉ [0x00, 0x01, 0x10, 0x11, 0x12]) :
    exec (.bypass code) s = .next (tapIr s code.toNat) := by
  change execBypass code s = _
  rw [execBypass, if_neg h]
  rfl

/-! ### Who may command (R433, R434) -/

/-- The machine whose TAP holds a debug command. -/
abbrev commanded (s : State) : State := tapIr s 0x11

/-- The cell that a command is for. -/
abbrev selected (s : State) : Cell := cellOf (commanded s) s.dbg.sel

/-- While STATUS is busy a command is ignored. -/
theorem dbgCmd_busy {s : State} (h : dbgBusy (commanded s) = true) (k : Nat → Cell → State → State) :
    dbgCmd s k = .next (commanded s) := by
  simp only [dbgCmd, h, if_true]

section
variable {s : State} (hb : dbgBusy (commanded s) = false)
include hb

/-- Without a claim in the unlock's scope a command is refused. -/
theorem dbgCmd_refused (h : dbgOpen (commanded s) = false ∨ cellInScope (commanded s) s.dbg.sel = false ∨ (selected s).dbg.claimed = false)
    (k : Nat → Cell → State → State) : dbgCmd s k = .next (dbgRefuse (commanded s)) := by
  have h' : ¬ (dbgOpen (commanded s) && cellInScope (commanded s) s.dbg.sel && (selected s).dbg.claimed) = true := by
    rcases h with h | h | h <;> simp [h]
  simp only [dbgCmd, hb, Bool.false_eq_true, if_false]
  exact if_neg h'

/-- Refused or not, STATUS answers what the cell shows. -/
theorem exec_debugStatus_idle : exec .debugStatus s = .next (dbgEnd (commanded s) 0 (BitVec.ofNat 64 (dstat (selected s)))) := by
  change execDebugStatus s = _
  simp only [execDebugStatus, hb, Bool.false_eq_true, if_false]
  rfl

variable (ho : dbgOpen (commanded s) = true) (hi : cellInScope (commanded s) s.dbg.sel = true)
include ho hi

/-- A cell in scope can be claimed. -/
theorem exec_claim_open : exec .claim s = .next (withQueue s
    (dbgEnd (modCell (commanded s) s.dbg.sel (fun x => { x with dbg := { x.dbg with claimed := true } })) 0 0)) := by
  change execClaim s = _
  have h : (dbgOpen (commanded s) && cellInScope (commanded s) s.dbg.sel) = true := by rw [ho, hi]; rfl
  simp only [execClaim, hb, Bool.false_eq_true, if_false]
  exact congrArg (keepQueue s) (if_pos h)

variable (hc : (selected s).dbg.claimed = true)
include hc

/-- On a claimed cell in scope a command has its effect. -/
theorem dbgCmd_claimed (k : Nat → Cell → State → State) : dbgCmd s k = .next (k s.dbg.sel (selected s) (commanded s)) := by
  have h' : (dbgOpen (commanded s) && cellInScope (commanded s) s.dbg.sel && (selected s).dbg.claimed) = true := by rw [ho, hi, hc]; rfl
  simp only [dbgCmd, hb, Bool.false_eq_true, if_false]
  exact if_pos h'

/-! ### Resets from the debug port (R403, R434) -/

theorem exec_debugReset_cell (hl : sourceLevel (commanded s) 15 = 2) :
    exec .debugReset s = .next (withQueue s (dbgEnd (reqCellReset (seen (commanded s) 15) 0x19F s.dbg.sel) 0 0)) := by
  change execDebugReset s = _
  rw [execDebugReset, dbgCmd_claimed hb ho hi hc]
  simp [hl, hi]

theorem exec_debugReset_block (hl : sourceLevel (commanded s) 15 = 3)
    (hs : (List.range 4).all (fun i => cellInScope (commanded s) (s.dbg.sel / 4 * 4 + i)) = true) :
    exec .debugReset s = .next (withQueue s (dbgEnd (reqBlockReset (seen (commanded s) 15) 0x19F (s.dbg.sel / 4)) 0 0)) := by
  change execDebugReset s = _
  rw [execDebugReset, dbgCmd_claimed hb ho hi hc]
  simp only [hl, if_pos hs, keepQueue_of_next]

theorem exec_debugReset_region (hl : sourceLevel (commanded s) 15 = 4)
    (hs : (List.range 16).all (fun i => cellInScope (commanded s) (s.dbg.sel / 16 * 16 + i)) = true) :
    exec .debugReset s = .next (withQueue s (dbgEnd (reqRegionReset (seen (commanded s) 15) 0x19F (s.dbg.sel / 16)) 0 0)) := by
  change execDebugReset s = _
  rw [execDebugReset, dbgCmd_claimed hb ho hi hc]
  simp only [hl, if_pos hs, keepQueue_of_next]

theorem exec_debugReset_chip (hl : sourceLevel (commanded s) 15 = 6) (hs : (liveTurns (commanded s)).all (turnInScope (commanded s)) = true) :
    exec .debugReset s = .next (withQueue s (chipSource (commanded s) 15 (commanded s).clk)) := by
  change execDebugReset s = _
  rw [execDebugReset, dbgCmd_claimed hb ho hi hc]
  simp only [hl, if_pos hs, keepQueue_of_next]

/-! ### Registers and memory of a halted cell (R434, R435) -/

/-- A command that needs the cell halted ends with an error where it is not. -/
theorem haltedCmd_running (hr : (selected s).k.run ≠ .debug) (k : Nat → Cell → State → State) :
    haltedCmd s k = .next (dbgEnd (commanded s) 3 0) := by
  rw [haltedCmd, dbgCmd_claimed hb ho hi hc, if_neg (by simpa using hr)]

variable (hr : (selected s).k.run = .debug)
include hr

theorem haltedCmd_halted (k : Nat → Cell → State → State) :
    haltedCmd s k = .next (k s.dbg.sel (selected s) (commanded s)) := by
  rw [haltedCmd, dbgCmd_claimed hb ho hi hc, if_pos (by simp [hr])]

theorem exec_rdReg_halted (a : Word) : exec (.rdReg a) s = .next (withQueue s
    (match rdReg (commanded s) s.dbg.sel (selected s) a.toNat with
      | some v => dbgEnd (commanded s) 0 (v.zeroExtend 64)
      | none => dbgEnd (commanded s) 3 0)) := by
  change execRdReg a s = _
  rw [execRdReg, haltedCmd_halted hb ho hi hc hr]
  rfl

theorem exec_wrReg_halted (a : Word) : exec (.wrReg a) s = .next (withQueue s
    (match wrReg (commanded s) (selected s) a.toNat ((commanded s).dbg.wdata.truncate 32) with
      | some y => dbgEnd (setCell (commanded s) s.dbg.sel y) 0 0
      | none => dbgEnd (commanded s) 3 0)) := by
  change execWrReg a s = _
  rw [execWrReg, haltedCmd_halted hb ho hi hc hr]
  rfl

theorem exec_rdMem_halted (a : Word) : exec (.rdMem a) s = .next (withQueue s
    (if a.toNat % 8 ≠ 0 then dbgEnd (commanded s) 3 0 else dbgRead (commanded s) s.dbg.sel a.toNat)) := by
  change execRdMem a s = _
  rw [execRdMem, haltedCmd_halted hb ho hi hc hr]
  rfl

theorem exec_wrMem_halted (a : Word) : exec (.wrMem a) s = .next (withQueue s
    (if a.toNat % 8 ≠ 0 then dbgEnd (commanded s) 3 0
      else dbgEnd (dbgStore (commanded s) s.dbg.sel a.toNat (natLE 8 (commanded s).dbg.wdata.toNat)).2
        (if (dbgStore (commanded s) s.dbg.sel a.toNat (natLE 8 (commanded s).dbg.wdata.toNat)).1 then 0 else 3) 0)) := by
  change execWrMem a s = _
  rw [execWrMem, haltedCmd_halted hb ho hi hc hr]
  rfl

end

/-- A read sent through a port leaves the debug port. -/
theorem askPort_dbg (s : State) (q : PortAsk) : (askPort s q).dbg = s.dbg :=
  foldl_keeps State.dbg (fun t c => by
    dsimp only
    repeat' split
    all_goals rfl) s _

section
variable {s u : State} {c a : Nat}

/-- A load that is done ends its command with the bytes read. -/
theorem dbgRead_done {l : List Byte} (h : dbgLoad s c a = (.ok l, u)) : dbgRead s c a =
    (let v := dropAsks u (fun x => decide (x = .debug))
     dbgEnd { v with dbg := { v.dbg with wait := none } } 0 (BitVec.ofNat 64 (leNat l))) := by
  simp only [dbgRead, h]

/-- A load whose answer is out leaves STATUS busy. -/
theorem dbgRead_waits {q : PortAsk} (h : dbgLoad s c a = (.error (.wait q), u)) : dbgRead s c a =
    (let v := askPort u q
     dbgEnd { v with dbg := { v.dbg with wait := some (c, a) } } 1 0) := by
  simp only [dbgRead, h, askPort_dbg]

/-- A load that the map or the owners deny ends its command with an error. -/
theorem dbgRead_denied (h : dbgLoad s c a = (.error .denied, u)) : dbgRead s c a =
    (let v := dropAsks u (fun x => decide (x = .debug))
     dbgEnd { v with dbg := { v.dbg with wait := none } } 3 0) := by
  simp only [dbgRead, h]

end

/-! ### The lock (R436) -/

section
variable {s : State} (hb : barOpen s = true)
include hb

section
variable (hf : s.boot.fw.isSome = true)
include hf

theorem fwUp_of_open : fwUp s = true := by rw [fwUp, hb, hf]; rfl

theorem exec_debugNonceRequest_up {n : List Byte} {t : State} (h : freshBytes s 32 = (n, t)) :
    exec .debugNonceRequest s = .next (withQueue s
      (let u := (List.range 8).foldl (fun s i => wr s (f_DBG_CHAL_V i) (le n (4 * i) 4)) t
       let v := if rd u f_DBG_CTL_STATE = 2 then u else wr u f_DBG_CTL_STATE 1
       { v with dbg := { v.dbg with nonceAt := 1 + v.clk } })) := by
  change execDebugNonceRequest s = _
  simp only [execDebugNonceRequest, fwUp_of_open hb hf, h, Bool.not_true, Bool.false_eq_true, if_false, keepQueue_of_next]

/-- A response that passes its checks unlocks the port for its DURATION. -/
theorem exec_debugVerify_unlocks (h : dbgCheck s (regBytes s f_DBG_RESP_V 64) = 1) : exec .debugVerify s = .next (withQueue s
    (let t := wr s f_DBG_CTL_RESULT 1
     let u := wr { t with dbg := { t.dbg with nonceAt := 0, until_ := t.clk + 1000000000 * le (regBytes s f_DBG_RESP_V 64) 4 4 } } f_DBG_CTL_STATE 2
     if rd t f_DBG_CTL_STATE = 2 then u else event u 0x19F 3 0x16 0)) := by
  change execDebugVerify s = _
  simp only [execDebugVerify, fwUp_of_open hb hf, h]
  rfl

/-- A response without a nonce that stands leaves the port as it was, and takes back a challenge. -/
theorem exec_debugVerify_stale (h : dbgCheck s (regBytes s f_DBG_RESP_V 64) = 5) : exec .debugVerify s = .next
    (let t := wr s f_DBG_CTL_RESULT 5
     if rd t f_DBG_CTL_STATE = 1 then wr t f_DBG_CTL_STATE 0 else t) := by
  change execDebugVerify s = _
  simp only [execDebugVerify, fwUp_of_open hb hf, h, Bool.not_true, Bool.false_eq_true, if_false, if_true]
  split <;> rfl

/-- A response that fails a check leaves its RESULT alone. -/
theorem exec_debugVerify_fails {k : Nat} (h : dbgCheck s (regBytes s f_DBG_RESP_V 64) = k) (h1 : k ≠ 1) (h5 : k ≠ 5) :
    exec .debugVerify s = .next (wr s f_DBG_CTL_RESULT k) := by
  change execDebugVerify s = _
  simp only [execDebugVerify, fwUp_of_open hb hf, h, Bool.not_true, Bool.false_eq_true, if_false, if_neg h5, ne_eq, h1, not_false_eq_true, if_true]
  rfl

end

theorem exec_debugLock_unlocked (h : rd s f_DBG_CTL_STATE = 2) : exec .debugLock s = .next (withQueue s (relock s)) := by
  change execDebugLock s = _
  simp [execDebugLock, hb, h]

theorem exec_debugLock_locked (h : rd s f_DBG_CTL_STATE ≠ 2) :
    exec .debugLock s = .next { wr s f_DBG_CTL_STATE 0 with dbg := { s.dbg with nonceAt := 0 } } := by
  change execDebugLock s = _
  simp only [execDebugLock, hb, if_neg h]
  rfl

end

theorem exec_debugUnlockExpiry_over {s : State} (h : rd s f_DBG_CTL_STATE = 2) (ht : s.dbg.until_ ≤ s.clk) :
    exec .debugUnlockExpiry s = .next (withQueue s (relock s)) := by
  change execDebugUnlockExpiry s = _
  simp [execDebugUnlockExpiry, h, ht]

theorem exec_nonceVoid_over {s : State} (hn : s.dbg.nonceAt ≠ 0) (ht : s.dbg.nonceAt - 1 + 60000000000 < s.clk) : exec .nonceVoid s = .next
    { (if rd s f_DBG_CTL_STATE = 1 then wr s f_DBG_CTL_STATE 0 else s) with dbg := { s.dbg with nonceAt := 0 } } := by
  have ho : overdue s (s.dbg.nonceAt - 1 + 60000000000) = true := by simpa [overdue] using ht
  change execNonceVoid s = _
  simp only [execNonceVoid, if_pos (And.intro hn ho)]
  split <;> rfl

theorem exec_breakpointHit_matched {s : State} {c : Fin 256} {i : Nat} (hc : canIssue s c = true) (hf : fetchCheck s c = .bp i) :
    exec (.breakpointHit c) s = .next (withQueue s (dbgHalt s c 2 i)) := by
  change execBreakpointHit c s = _
  simp [execBreakpointHit, hc, hf]

/-! ### The statement -/

/-- While STATUS is busy, no command of the debug port does anything. -/
theorem exec_debugCommand_busy {s : State} (h : dbgBusy (commanded s) = true) :
    ∀ cmd ∈ [Instr.debugStatus, .claim, .debugRelease, .halt, .resume, .step, .debugReset], exec cmd s = .next (commanded s) := by
  have hcmd (k) : keepQueue s (dbgCmd s k) = .next (commanded s) := by
    rw [dbgCmd_busy h]
    rfl
  have hstatus : exec .debugStatus s = .next (commanded s) := by
    change execDebugStatus s = _
    simp only [execDebugStatus, h, if_true]
    rfl
  have hclaim : exec .claim s = .next (commanded s) := by
    change execClaim s = _
    simp only [execClaim, h, if_true]
    rfl
  simp only [List.forall_mem_cons, List.not_mem_nil, false_imp_iff, implies_true, and_true]
  exact ⟨hstatus, hclaim, hcmd _, hcmd _, hcmd _, hcmd _, hcmd _⟩

/-- Without a claim in the unlock's scope every command that needs one is refused. -/
theorem exec_debugCommand_refused {s : State} (hb : dbgBusy (commanded s) = false)
    (h : dbgOpen (commanded s) = false ∨ cellInScope (commanded s) s.dbg.sel = false ∨ (selected s).dbg.claimed = false) :
    (∀ cmd ∈ [Instr.debugRelease, .halt, .resume, .step, .debugReset], exec cmd s = .next (withQueue s (dbgRefuse (commanded s)))) ∧
    (∀ a : Word, ∀ cmd ∈ [Instr.rdReg a, .wrReg a, .rdMem a, .wrMem a], exec cmd s = .next (withQueue s (dbgRefuse (commanded s)))) := by
  have hcmd (k) : keepQueue s (dbgCmd s k) = .next (withQueue s (dbgRefuse (commanded s))) := by
    rw [dbgCmd_refused hb h]
    rfl
  simp only [List.forall_mem_cons, List.not_mem_nil, false_imp_iff, implies_true, and_true]
  exact ⟨⟨hcmd _, hcmd _, hcmd _, hcmd _, hcmd _⟩, fun a => ⟨hcmd _, hcmd _, hcmd _, hcmd _⟩⟩

/-- Settles O57: the TAP and the lock row by row; a debug command by whether STATUS is busy, whether the cell is claimed in scope, and whether
it is halted. The cases of status 3, and what a second response does to a port that is unlocked, are the model's reading (log entries 61
and 62). -/
theorem debug : Obligations.Debug := by
  unfold Obligations.Debug
  refine ⟨fun s => ⟨rfl, fun d pins t h => exec_samplePreload h, fun code h => exec_bypass h, fun c => rfl, fun w => rfl,
    fun hb => ⟨fun hf => ⟨fun n t h => exec_debugNonceRequest_up hb hf h, ?verify⟩, exec_debugLock_unlocked hb, exec_debugLock_locked hb⟩,
    exec_debugUnlockExpiry_over, exec_nonceVoid_over⟩, fun s => ?commands, fun s c i => exec_breakpointHit_matched⟩
  case verify =>
    refine ⟨fun h => ?_, fun h => ?_, fun h => ?_⟩
    · rw [h]
      exact exec_debugVerify_unlocks hb hf h
    · rw [h]
      exact exec_debugVerify_stale hb hf h
    · exact exec_debugVerify_fails hb hf rfl (by omega) (by omega)
  case commands =>
    refine ⟨exec_debugCommand_busy, fun hb => exec_debugStatus_idle hb, exec_debugCommand_refused,
      fun hb ho hi => ⟨exec_claim_open hb ho hi, fun hc => ?claimed⟩⟩
    case claimed =>
      have hcmd (k) : keepQueue s (dbgCmd s k) = .next (withQueue s (k s.dbg.sel (selected s) (commanded s))) := by
        rw [dbgCmd_claimed hb ho hi hc]
        rfl
      refine ⟨hcmd _, hcmd _, hcmd _, hcmd _, exec_debugReset_cell hb ho hi hc, exec_debugReset_block hb ho hi hc,
        exec_debugReset_region hb ho hi hc, exec_debugReset_chip hb ho hi hc, fun hr a => ?running, fun hr => ?halted⟩
      case running =>
        have hbad (k) : keepQueue s (haltedCmd s k) = .next (withQueue s (dbgEnd (commanded s) 3 0)) := by
          rw [haltedCmd_running hb ho hi hc hr]
          rfl
        simp only [List.forall_mem_cons, List.not_mem_nil, false_imp_iff, implies_true, and_true]
        exact ⟨hbad _, hbad _, hbad _, hbad _⟩
      case halted =>
        refine ⟨fun a => ?registers, fun a ha => ?unaligned, fun a ha u => ?memory⟩
        case registers =>
          have hrd := exec_rdReg_halted hb ho hi hc hr a
          have hwr := exec_wrReg_halted hb ho hi hc hr a
          refine ⟨fun v h => ?_, fun h => ?_, fun y h => ?_, fun h => ?_⟩
          · rw [hrd, h]
            rfl
          · rw [hrd, h]
            rfl
          · rw [hwr, h]
            rfl
          · rw [hwr, h]
            rfl
        case unaligned =>
          simp only [List.forall_mem_cons, List.not_mem_nil, false_imp_iff, implies_true, and_true]
          rw [exec_rdMem_halted hb ho hi hc hr, exec_wrMem_halted hb ho hi hc hr, if_pos ha, if_pos ha]
          exact ⟨rfl, rfl⟩
        case memory =>
          have ha' : ¬ a.toNat % 8 ≠ 0 := not_not.2 ha
          have hrd := exec_rdMem_halted hb ho hi hc hr a
          have hwr := exec_wrMem_halted hb ho hi hc hr a
          rw [if_neg ha'] at hrd hwr
          refine ⟨fun l h => ?_, fun q h => ?_, fun h => ?_, fun h => ?_, fun h => ?_⟩
          · rw [hrd, dbgRead_done h]
            rfl
          · rw [hrd, dbgRead_waits h]
            rfl
          · rw [hrd, dbgRead_denied h]
            rfl
          · rw [hwr, h]
            rfl
          · rw [hwr, h]
            rfl

end Sys2Proof.Machine
end

section
/-! Chip resets and the start (O54). -/

namespace Sys2Proof.Machine

/-! ### Sources of a CHIP or FULL reset (R403–R406) -/

/-- A source acts at the level of its reach entry, and holds until `u` at the earliest. -/
def raisedUntil (s : State) (i l u : Nat) : State :=
  { raiseChip s i l with boot := { (raiseChip s i l).boot with rstUntil := max (raiseChip s i l).boot.rstUntil u } }

theorem chipSource_reaching {s : State} {i l : Nat} (h : sourceLevel s i = l) (hl : l = 6 ∨ l = 7) (u : Nat) :
    chipSource s i u = raisedUntil s i l u := by
  subst h
  simp only [chipSource, if_pos hl, raisedUntil]

/-- A pulse of SYS_RST_N that its filter lets pass. -/
theorem exec_sysRst_passed {s v : State} {d l : Nat} {w : DWord} (hd : freshBelow s 81 = (d, v)) (h : sourceLevel v 1 = l) (hl : l = 6 ∨ l = 7)
    (hw : 960 + d ≤ w.toNat) :
    exec (.sysRst w) s = .next (withQueue s (raisedUntil v 1 l (v.clk + max (w.toNat - (960 + d)) 10000))) := by
  change execSysRst w s = _
  simp only [execSysRst, hd, if_neg (Nat.not_lt.2 hw), chipSource_reaching h hl, keepQueue_of_next]

section
variable {s : State} {l : Nat} (hl : l = 6 ∨ l = 7)
include hl

theorem exec_rstSw_key (h : sourceLevel s 9 = l) : exec (.rstSw 0x5A) s = .next (withQueue s (raisedUntil s 9 l s.clk)) := by
  change execRstSw 0x5A s = _
  rw [execRstSw, if_pos rfl, chipSource_reaching h hl, keepQueue_of_next]

theorem exec_managementWatchdog_reaching (h : sourceLevel s 10 = l) :
    exec .managementWatchdog s = .next (withQueue s (raisedUntil s 10 l s.clk)) := by
  change execManagementWatchdog s = _
  rw [execManagementWatchdog, chipSource_reaching h hl, keepQueue_of_next]

/-- What a source leaves beside the reset: the hold of a trip or fault, and the start of the power-on time. -/
def sourceMarks (j : Fin 16) (u : State) : State :=
  { u with boot := { u.boot with hold := u.boot.hold || j == 13 || j == 14, goodAt := if j = 0 then u.clk else u.boot.goodAt } }

theorem sourceAt_reaching {j : Fin 16} (h : sourceLevel s j = l) : sourceAt j l s = sourceMarks j (raisedUntil s j l s.clk) := by
  rw [sourceAt, if_pos h, chipSource_reaching h hl]
  rfl

end

theorem exec_rstSw_other {s : State} {key : Byte} (h : key ≠ 0x5A) : exec (.rstSw key) s = .next (withQueue s (writeIgnored s)) := by
  change execRstSw key s = _
  rw [execRstSw, if_neg h, keepQueue_of_next]

theorem exec_thermalTrip_powered {s : State} (hp : s.boot.powered = true) (k : Fin 24) : exec (.thermalTrip k) s = .next (withQueue s
    (let t := chipSource (auxLog s 1 k) 13 s.clk
     { t with boot := { t.boot with hold := true, trip := true } })) := by
  change execThermalTrip k s = _
  simp only [execThermalTrip, hp, if_true, tripReset, Bool.or_true, keepQueue_of_next]

theorem exec_supplyFault_watched {s : State} (hp : s.boot.powered = true)
    (hq : (List.range 9).all (fun q => decide (sget 0 s.pwr.quiet q ≤ s.clk)) = true) (r : Fin 9) :
    exec (.supplyFault r) s = .next (withQueue s
      (let t := chipSource (auxLog { s with pcie := { s.pcie with cold := allInL2 s } } 2 r) 14 s.clk
       { t with boot := { t.boot with hold := true, trip := t.boot.trip } })) := by
  change execSupplyFault r s = _
  simp only [execSupplyFault, hp, hq, Bool.and_self, if_true, tripReset, Bool.or_false, keepQueue_of_next]

/-! ### Releases (R404–R407) -/

section
variable {s : State} (hm : mayRelease s = true) (locked : BitVec 16)
include hm

theorem exec_powerOnRelease_due (hs : s.boot.rstSrc = 0) (ht : s.boot.goodAt + 2000000 ≤ s.clk) (straps : BitVec 3) :
    exec (.powerOnRelease straps locked) s = .next (withQueue s
      (releaseReset { s with side := { s.side with addr := 0x20 + straps.toNat } } locked)) := by
  change execPowerOnRelease straps locked s = _
  simp [execPowerOnRelease, hm, hs, ht]

theorem exec_resetRelease_due (hs : s.boot.rstSrc ≠ 0) (ht : s.boot.rstUntil ≤ s.clk) :
    exec (.resetRelease locked) s = .next (withQueue s (releaseReset s locked)) := by
  change execResetRelease locked s = _
  simp [execResetRelease, hm, hs, ht]

end

/-! ### The start (R397–R402, R409–R412) -/

theorem atStage_of {s : State} {x : Stage} (hr : s.boot.inRst = false) (hs : s.boot.stage = x) : atStage s x = true := by
  simp [atStage, hr, hs]

section
variable {s : State} (hr : s.boot.inRst = false)
include hr

section
variable (hs : s.boot.stage = .option) (nor : Bool) (a b : List Byte)
include hs

/-- One copy of the option bytes is chosen, or the safe defaults. -/
theorem exec_optionFetchDone_stage : exec (.optionFetchDone nor a b) s = .next (withQueue s
    (let t := toStage s .image
     if (nor && optValid b && optUsesB a b) = true then { wr t f_CFG_STAT_OPT 1 with boot := { t.boot with opt := b } }
     else if (nor && optValid a) = true then { wr t f_CFG_STAT_OPT 0 with boot := { t.boot with opt := a } }
     else fallback (wr t f_CFG_STAT_OPT 3))) := by
  change execOptionFetchDone nor a b s = _
  simp only [execOptionFetchDone, atStage_of hr hs, Bool.not_true, Bool.false_eq_true, if_false]
  split
  · rfl
  · split <;> rfl

end

/-- FETCH ends: the ports are released and self-test begins at its set point. -/
def fetchEnds (u : State) : State :=
  let w := wr (releasePorts (toStage u .test)) f_GEN_STATE_STATE 2
  if bistMode w = .off then w else (List.range 4).foldl (fun s r => setPoint s r (bistMv s)) w

/-- An image is applied whole, rejected or absent. -/
def imageTaken (s : State) (data : List Byte) : State :=
  if imgMax s = 0 then wr s f_CFG_STAT_IMG 1
  else match imgOk (imgMax s) data with
    | some l => applyImage l { wr s f_CFG_STAT_IMG 0 with boot := { s.boot with img := data.take (le data 8 4) } }
    | none => fallback (wr s f_CFG_STAT_IMG 2)

theorem exec_imageApplyDone_stage (hs : s.boot.stage = .image) (data : List Byte) :
    exec (.imageApplyDone data) s = .next (withQueue s (fetchEnds (imageTaken s data))) := by
  change execImageApplyDone data s = _
  simp only [execImageApplyDone, atStage_of hr hs, Bool.not_true, Bool.false_eq_true, if_false]
  rfl

section
variable (hs : s.boot.stage = .test)
include hs

theorem exec_selfTestDone_stage (recs : List BistRec) : exec (.selfTestDone recs) s = .next (withQueue s
    (bistEnd s (recs.filter (bistSees (bistMode s))) (bistResult (recs.filter (bistSees (bistMode s))) (bistMode s)))) := by
  change execSelfTestDone recs s = _
  simp only [execSelfTestDone, atStage_of hr hs, Bool.not_true, Bool.false_eq_true, if_false, keepQueue_of_next]

theorem exec_selfTestAbort_stage : exec .selfTestAbort s = .next (withQueue s (bistEnd s [] 3)) := by
  change execSelfTestAbort s = _
  simp only [execSelfTestAbort, atStage_of hr hs, Bool.not_true, Bool.false_eq_true, if_false, keepQueue_of_next]

end

end

/-- Settles O54: each source by the level that its reach entry gives, each release by its time, and each stage of the start in its place.
The state of the Reservoir and of the drives over power cycles, the free times and the fallback's event are the model's (log entries 25,
54–57). -/
theorem boot : Obligations.Boot := by
  unfold Obligations.Boot
  refine ⟨fun s => ⟨rfl, rfl, rfl, fun hm locked => ⟨fun straps hs ht => exec_powerOnRelease_due hm locked hs ht straps,
      exec_resetRelease_due hm locked⟩, fun i u l h hl => ⟨fun w d v hd h1 hw => exec_sysRst_passed hd h1 (.inl rfl) hw,
      ?rstSw, ?watchdog, ?source⟩,
      fun key => exec_rstSw_other, fun hp => ⟨exec_thermalTrip_powered hp, fun r hq => exec_supplyFault_watched hp hq r⟩⟩,
    fun s hr => ⟨fun hs reach k0 k1 k2 k3 rb test avs fac => ?fuses, fun hs nor a b => ?options, fun hs data => ?image,
      fun hs => ⟨exec_selfTestDone_stage hr hs, exec_selfTestAbort_stage hr hs⟩⟩⟩
  case rstSw =>
    rintro rfl rfl
    exact exec_rstSw_key hl h
  case watchdog =>
    rintro rfl rfl
    exact exec_managementWatchdog_reaching hl h
  case source =>
    rintro j rfl rfl
    have hj := sourceAt_reaching hl h
    refine ⟨?_, ?_⟩
    all_goals
      rintro rfl
      exact congrArg (fun u => keepQueue s (.next u)) hj
  case fuses =>
    change execFuseSenseDone reach k0 k1 k2 k3 rb test avs fac s = _
    simp only [execFuseSenseDone, atStage_of hr hs, Bool.not_true, Bool.false_eq_true, if_false]
    rfl
  case options =>
    rw [exec_optionFetchDone_stage hr hs]
    refine ⟨?_, ?_, fun h => ?_⟩
    · rintro rfl hv hu
      rw [if_pos (by simp [hv, hu])]
      rfl
    · rintro rfl hv hu
      rw [if_neg (by simp [hu]), if_pos (by simp [hv])]
      rfl
    · have ha : (nor && optValid a) = false := by rcases h with h | ⟨h, -⟩ <;> simp [h]
      have hb : (nor && optValid b && optUsesB a b) = false := by rcases h with h | ⟨-, h⟩ <;> simp [h]
      rw [if_neg (by simp [hb]), if_neg (by simp [ha])]
      rfl
  case image =>
    rw [exec_imageApplyDone_stage hr hs]
    refine ⟨fun h0 => ?_, fun h0 hi => ?_, fun h0 l hi => ?_⟩
    · rw [imageTaken, if_pos h0]
      rfl
    · rw [imageTaken, if_neg h0, hi]
      rfl
    · rw [imageTaken, if_neg h0, hi]
      rfl

end Sys2Proof.Machine
end

section
/-! The firmware and its components (O55). -/

namespace Sys2Proof.Machine

/-! ### Operations on the firmware (R413, R414, R418) -/

section
variable {s : State} {err : Bool} (rt : List Byte)

/-- The state in which an operation of the firmware has been asked for. -/
abbrev fwAsked (s : State) (op : Nat) : State := wr s f_GEN_FW_CTL_OP op

theorem exec_firmwareLoad_ignored (h : rd (fwAsked s 0) f_GEN_STATE_STATE ≠ 3 ∨ fwBusy (fwAsked s 0) = true) :
    exec (.firmwareLoad err rt) s = .next (withQueue s (writeIgnored (fwAsked s 0))) := by
  change execFirmwareLoad err rt s = _
  simp only [execFirmwareLoad]
  exact congrArg (keepQueue s) (if_pos h)

/-- A load that may start fetches its image: a check that fails leaves its result, else the firmware starts. -/
theorem exec_firmwareLoad_fetched (hst : rd (fwAsked s 0) f_GEN_STATE_STATE = 3) (hb : fwBusy (fwAsked s 0) = false) {b : List Byte} {r : Nat}
    (hf : fwFetch (fwAsked s 0) err = (b, r)) : exec (.firmwareLoad err rt) s = .next (withQueue s
      (if r ≠ 0 then fwResult (fwAsked s 0) r else
        let u := wr (wr (wr (fwAsked s 0) f_GEN_FW_CTL_RESULT 1) f_GEN_FW_CTL_GO 1) f_GEN_STATE_STATE 4
        { u with boot := { u.boot with fw := some (fwOf b rt), goAt := u.clk, comps := [] } })) := by
  have hn : ¬ (rd (fwAsked s 0) f_GEN_STATE_STATE ≠ 3 ∨ fwBusy (fwAsked s 0) = true) := by simp [hst, hb]
  change execFirmwareLoad err rt s = _
  simp only [execFirmwareLoad, hf, if_neg hn, fwStart]
  split
  · exact keepQueue_of_next s _
  · exact keepQueue_of_next s _

/-- An image that passes its checks is activated where its interface version fits. -/
theorem exec_firmwareActivate_fetched (ha : afterBoot (fwAsked s 1) = true) (hb : fwBusy (fwAsked s 1) = false) {b : List Byte}
    (hf : fwFetch (fwAsked s 1) err = (b, 0)) : exec (.firmwareActivate err rt) s = .next (withQueue s
      (if le b 14 2 ≠ ((fwAsked s 1).boot.fw.map Fw.fwif).getD 0 / 2 ^ 16 then fwResult (fwAsked s 1) 9 else
        let u := wr (wr (fwAsked s 1) f_GEN_FW_CTL_RESULT 1) f_GEN_FW_CTL_GO 1
        { u with boot := { u.boot with next := some (fwOf b rt) } })) := by
  change execFirmwareActivate err rt s = _
  simp only [execFirmwareActivate, hf, ha, hb, Bool.not_true, Bool.or_false, Bool.false_eq_true, if_false, ne_eq, not_true_eq_false]
  split <;> rfl

end

theorem exec_activationComplete_held {s : State} {f : Fw} (h : s.boot.next = some f) : exec .activationComplete s = .next (withQueue s
    (let u := { s with
      boot := { s.boot with fw := some f, next := none, comps := [] }
      trn := { s.trn with cmd := s.trn.cmd.map (fun c => { c with at_ := s.clk }) } }
     fwResult (setReg u f_GEN_FWIF_MAJOR.key (BitVec.ofNat 64 f.fwif)) 2)) := by
  change execActivationComplete s = _
  simp only [execActivationComplete, h]
  rfl

theorem exec_svnCommit_running {s : State} {f : Fw} (ha : afterBoot (fwAsked s 2) = true) (hb : fwBusy (fwAsked s 2) = false)
    (hf : (fwAsked s 2).boot.fw = some f) : exec .svnCommit s = .next (withQueue s
      (let t := fwAsked s 2
       fwResult { t with boot := { t.boot with rollback := max t.boot.rollback f.svn } } 2)) := by
  change execSvnCommit s = _
  simp only [execSvnCommit, ha, hb, hf, Bool.not_true, Bool.or_false, Bool.false_eq_true, if_false]
  rfl

/-! ### The end of BOOT (R398, R413) -/

section
variable {s : State} (hst : rd s f_GEN_STATE_STATE = 4)
include hst

theorem exec_firmwareReady_inTime (ht : s.clk ≤ s.boot.goAt + 2000000000) : exec .firmwareReady s = .next (withQueue s
    (fwResult (showFwif (wr s f_GEN_STATE_STATE (if partsLost s then 6 else 5))) 2)) := by
  have hn : ¬ (rd s f_GEN_STATE_STATE ≠ 4 ∨ s.boot.goAt + 2000000000 < s.clk) := by omega
  change execFirmwareReady s = _
  simp only [execFirmwareReady, if_neg hn, keepQueue_of_next]

theorem exec_bootTimeout_over (ht : s.boot.goAt + 2000000000 ≤ s.clk) : exec .bootTimeout s = .next (withQueue s
    (fwResult (wr { s with boot := { s.boot with fw := none, comps := [] } } f_GEN_STATE_STATE 3) 8)) := by
  have hn : ¬ (rd s f_GEN_STATE_STATE ≠ 4 ∨ s.clk < s.boot.goAt + 2000000000) := by omega
  change execBootTimeout s = _
  simp only [execBootTimeout, if_neg hn]
  rfl

end

/-! ### Components (R417) -/

/-- A component that runs crashes: its requests are dropped, and it is restarted, or stopped by the fourth crash within 60 s. -/
theorem compCrash_running {s : State} {k : Nat} (hf : s.boot.fw.isSome = true) (hs : (compOf s k).stopped = false)
    (ht : (sideDrops (compDrops s k) k).clk = s.clk) : compCrash s k =
      (let last := (compOf s k).crashes.take 3
       let t := sideDrops (compDrops s k) k
       if last.length = 3 ∧ s.clk ≤ last.getD 2 0 + 60000000000 then event (setComp t k ⟨s.clk :: last, true⟩) 0x19D 2 0x11 k
       else event (setComp t k ⟨s.clk :: last, false⟩) 0x19D 3 0x10 k) := by
  have hn : s.boot.fw.isNone = false := by simpa [Option.isSome_iff_ne_none] using hf
  simp only [compCrash, hn, hs, ht, Bool.or_self, Bool.false_eq_true, if_false]

/-- Settles O55: each operation on the firmware by the state in which it is asked for, the end of BOOT by its 2 s, and a crash by those before
it. That OP is written even where the operation is ignored, and GO and RESULT between an operation's start and its end, are the model's (log
entry 58). -/
theorem bootFirmware : Obligations.BootFirmware := by
  unfold Obligations.BootFirmware
  refine fun s => ⟨fun err rt => ⟨⟨exec_firmwareLoad_ignored rt, fun hst hb b r hf => ?load⟩, fun ha hb b hf => ?activate⟩,
    fun f => exec_activationComplete_held, fun ha hb f => exec_svnCommit_running ha hb, exec_firmwareReady_inTime, exec_bootTimeout_over,
    fun k hf hs => ?crash⟩
  case load =>
    rw [exec_firmwareLoad_fetched rt hst hb hf]
    refine ⟨fun h => ?_, fun h => ?_⟩
    · rw [if_pos h]
      rfl
    · rw [if_neg (not_not.2 h)]
  case activate =>
    rw [exec_firmwareActivate_fetched rt ha hb hf]
    refine ⟨fun h => ?_, fun h => ?_⟩
    · rw [if_pos h]
      rfl
    · rw [if_neg (not_not.2 h)]
  case crash =>
    intro last stays t c hc
    have hexec : exec c s = .next (withQueue s (compCrash s k)) := by rcases hc with rfl | rfl <;> rfl
    rw [hexec]
    refine ⟨fun h ht => ?_, fun h ht => ?_⟩
    · rw [compCrash_running hf hs ht]
      exact congrArg (fun u => keepQueue s (.next u)) (if_pos h)
    · rw [compCrash_running hf hs ht]
      exact congrArg (fun u => keepQueue s (.next u)) (if_neg h)

end Sys2Proof.Machine
end

section
/-! The lateral transport: its requester and its responder (O42, O43). -/

namespace Sys2Proof.Machine

/-! ### Messages that start (R321, R323) -/

/-- Every page of a list can be read by an owner. -/
def pagesReadable (o : Nat) (l : List (Nat × Nat)) : MM Unit :=
  l.forM (fun p => do
    let a ← ownerAddr ioWalker o p.1 false
    let s ← get
    if !rangeOk s o a p.2 then throw .denied)

/-- The pages of the `n` bytes at LADDR. -/
abbrev latPages (e : Entry) (n : Nat) : List (Nat × Nat) := pagePieces (n / 4096 + 2) (lAddr e.b) n

/-- The entry runs. -/
abbrev entryRuns (s : State) (e : Entry) : State := modEntry s e.f e.i (fun e => { e with ph := .running })

section
variable {s s' : State} {f : Fin 262144} {i : Fin 65536} {e : Entry}

/-- A WRITE whose pages can be read starts. -/
theorem latStart_write (hop : e.op = 1) (h : runMM s (pagesReadable (furOwner s e.f) (latPages e (lLen e.b))) = (.ok (), s')) :
    latStart s e = entryRuns s' e := by
  have hn : ¬ e.op = 3 := by omega
  simp only [latStart, if_pos hop, if_neg hn]
  exact withData_ok srcSend h _

/-- A READ or ATOMIC whose pages can be written starts. -/
theorem latStart_target (hop : e.op ≠ 1) {l : List (Nat × Nat)}
    (h : runMM s (writeTargets (ioOf e) (furOwner s e.f) (latPages e (if e.op = 3 then 8 else lLen e.b))) = (.ok l, s')) :
    latStart s e = entryRuns s' e := by
  have hr : runMM s (do
      let _ ← writeTargets (ioOf e) (furOwner s e.f) (latPages e (if e.op = 3 then 8 else lLen e.b))) = (.ok (), s') := by
    rw [runMM_bind, h]
    rfl
  simp only [latStart, if_neg hop]
  exact withData_ok srcSend hr _

theorem exec_lateralWrite_ready (he : EntryReady s f i clLateral 1 e)
    (h : runMM s (pagesReadable (furOwner s e.f) (latPages e (lLen e.b))) = (.ok (), s')) :
    exec (.lateralWrite f i) s = .next (withQueue s (entryRuns s' e)) := by
  obtain ⟨-, -, -, hop⟩ := id he
  change execLateralWrite f i s = _
  rw [execLateralWrite, runEntry_ready he, latStart_write hop h, keepQueue_of_next]

theorem exec_lateralRead_ready (he : EntryReady s f i clLateral 2 e) {l : List (Nat × Nat)}
    (h : runMM s (writeTargets (ioOf e) (furOwner s e.f) (latPages e (lLen e.b))) = (.ok l, s')) :
    exec (.lateralRead f i) s = .next (withQueue s (entryRuns s' e)) := by
  obtain ⟨-, -, -, hop⟩ := id he
  change execLateralRead f i s = _
  rw [execLateralRead, runEntry_ready he, latStart_target (by omega) (by rwa [if_neg (by omega)]), keepQueue_of_next]

/-- An ATOMIC of an AOP starts by the row of that AOP. -/
theorem latAtomic_ready (he : EntryReady s f i clLateral 3 e) {l : List (Nat × Nat)}
    (h : runMM s (writeTargets (ioOf e) (furOwner s e.f) (latPages e 8)) = (.ok l, s')) {aop : Nat} (ha : lAop e.b = aop) :
    latAtomic f i aop s = entryRuns s' e := by
  obtain ⟨-, -, -, hop⟩ := id he
  rw [latAtomic, runEntry_ready he, if_pos ha, latStart_target (by omega) (by rwa [if_pos hop])]

end

/-! ### Messages that are sent (R323–R325) -/

section
variable {s t : State} {f : Fin 262144} {i : Fin 65536} {e : Entry} {m : Msg} (hm : msgOf s f i = some (e, m))
include hm

theorem exec_firstTransmission_sent (hp : e.ph = .running) (h0 : m.t0 = 0)
    (ha : (txList e).findSome? (fun k => awaited s (reqPacket e m k false)) = none)
    (ht : sendPkts e false (txList e) (modMsg { s with lat := { s.lat with msgid := (s.lat.msgid + 1) % 2 ^ 32 } } f i
      (fun m => { m with t0 := 1 + now s, id := s.lat.msgid })) = some t) :
    exec (.firstTransmission f i) s = .next (withQueue s t) := by
  have hn : ¬ (e.ph ≠ .running ∨ m.t0 ≠ 0) := by simp [hp, h0]
  change execFirstTransmission f i s = _
  simp only [execFirstTransmission, hm, if_neg hn, ha, ht, keepQueue_of_next]

theorem exec_messageDeadline_over (h0 : m.t0 ≠ 0) (ht : msgEnd m < now s) :
    exec (.messageDeadline f i) s = .next (withQueue s (msgTimeout s e m)) := by
  have hn : ¬ (m.t0 = 0 ∨ now s ≤ msgEnd m) := by omega
  change execMessageDeadline f i s = _
  simp only [execMessageDeadline, hm, if_neg hn, keepQueue_of_next]

theorem exec_packetRetransmit_sent {k : Fin 128} {x : TxPkt}
    (hx : (if e.op = 2 then (m.pkts.filter (fun x => !x.done)).head? else m.pkts[if e.op = 1 then k.val else 0]?) = some x) (h0 : m.t0 ≠ 0)
    (hd : x.done = false) (hdue : x.due ≤ s.clk) (hin : now s < msgEnd m)
    (ha : awaited s (reqPacket e m (if e.op = 1 then k.val else 0) true) = none)
    (ht : sendPkt s e (if e.op = 1 then k.val else 0) true = some t) : exec (.packetRetransmit f i k) s = .next (withQueue s t) := by
  have hn : ¬ (m.t0 = 0 ∨ x.done = true ∨ s.clk < x.due ∨ msgEnd m ≤ now s) := by
    simp only [hd, Bool.false_eq_true, false_or]
    omega
  change execPacketRetransmit f i k s = _
  simp only [execPacketRetransmit, hm, hx, if_neg hn, ha, ht, keepQueue_of_next]

end

/-! ### Answers (R324, R325, R332) -/

/-- The state without the packet taken from the lateral inbox. -/
abbrev rxTaken (s : State) (j : Nat) : State := { s with lat := { s.lat with rx := s.lat.rx.eraseIdx j } }

section
variable {s : State} {j : Nat} {l : List Byte} (hl : s.lat.rx[j]? = some l)
include hl

/-- The oldest packet of a type is taken. -/
theorem takeRx_found {ty : Nat} (hj : s.lat.rx.findIdx? (fun l => lpType l == ty) = some j) (k : List Byte → State → State) :
    takeRx s ty k = .next (k l (rxTaken s j)) := by
  simp only [takeRx, hj, hl]

section
variable {e : Entry} {m : Msg} (hm : msgById (rxTaken s j) (lpId l) = some (e, m)) (ht : now s ≤ msgEnd m)
include hm ht

omit hl in
/-- An answer in time meets its message. -/
theorem onMsg_inTime (k : Entry → Msg → State → State) : onMsg (rxTaken s j) l k = k e m (rxTaken s j) := by
  have hn : ¬ msgEnd m < now (rxTaken s j) := Nat.not_lt.2 ht
  simp only [onMsg, hm, if_neg hn]

section
variable (hj : s.lat.rx.findIdx? (fun l => lpType l == 6) = some j) (hop : e.op = 1)
include hj hop

/-- An ACK in time marks the packets that it calls placed, and acts by its STATUS. -/
theorem exec_ackPacket_inTime : exec .ackPacket s = .next (withQueue s
    (let t := modMsg (rxTaken s j) e.f e.i (fun m => { m with
      pkts := m.pkts.mapIdx (fun j x => if bit (lpPlaced l) j then { x with done := true } else x) })
     match lpStatus l with
      | 3 => latEnd t e m stDenied
      | 1 => modMsg t e.f e.i (fun m => { m with pkts := m.pkts.mapIdx (fun j x =>
          if bit (lpOpnd l) j && !x.done then { x with ans := 1, due := t.clk + 50000 } else x) })
      | 2 => modMsg t e.f e.i (fun m => { m with pkts := m.pkts.mapIdx (fun j x =>
          if bit (lpOpnd l) j && !x.done then
            let w := if x.busy = 0 then 10 else min 160 (2 * x.busy)
            { x with ans := 2, busy := w, due := t.clk + 1000 * w }
          else x) })
      | _ => latCheck t e.f e.i)) := by
  change execAckPacket s = _
  rw [execAckPacket, takeRx_found hl hj, onMsg_inTime hm ht]
  simp only [if_pos hop]
  rfl

end

theorem exec_readRspPacket_inTime (hj : s.lat.rx.findIdx? (fun l => lpType l == 3) = some j) (hop : e.op = 2) (hk : lpPidx l < m.pkts.length)
    (hd : (m.pkts[lpPidx l]?).any TxPkt.done = false) (hn : lpDlen l = pktLen e.b (lpPidx l)) : exec .readRspPacket s =
      .next (withQueue s (latRespond (rxTaken s j) e m (lpPidx l) (lAddr e.b + 2048 * lpPidx l) (lpData l))) := by
  have hno : ¬ (e.op ≠ 2 ∨ lpPidx l ≥ m.pkts.length ∨ (m.pkts[lpPidx l]?).any TxPkt.done = true ∨ lpDlen l ≠ pktLen e.b (lpPidx l)) := by
    rw [hd]
    simp only [Bool.false_eq_true, false_or]
    omega
  change execReadRspPacket s = _
  rw [execReadRspPacket, takeRx_found hl hj, onMsg_inTime hm ht]
  simp only [if_neg hno, keepQueue_of_next]

theorem exec_atomicRspPacket_inTime (hj : s.lat.rx.findIdx? (fun l => lpType l == 5) = some j) (hop : e.op = 3) : exec .atomicRspPacket s =
      .next (withQueue s (latRespond (rxTaken s j) e m 0 (lAddr e.b) ((l.drop 48).take 8))) := by
  change execAtomicRspPacket s = _
  rw [execAtomicRspPacket, takeRx_found hl hj, onMsg_inTime hm ht, if_neg (not_not.2 hop), keepQueue_of_next]

end

/-! ### Requests at the responder (R326, R330) -/

section
variable (hj : s.lat.rx.findIdx? (fun l => lpType l == 1) = some j)
include hj

/-- A WRITE that closes no group passes the checks and is written. -/
theorem exec_writePacket_open (hc : lpClose l = false) : exec .writePacket s = .next (withQueue s (latSteps (rxTaken s j) l 1
    (fun ta s => latAccess s l (writeSp (ioFor .remote) (lpDstTrn l) ta (lpData l)) (fun _ s => placedNow s l)))) := by
  change execWritePacket s = _
  rw [execWritePacket, takeRx_found hl hj]
  simp only [hc, Bool.false_and, Bool.false_eq_true, if_false, keepQueue_of_next]

/-- A WRITE that closes a group which holds none passes the checks and is held. -/
theorem exec_writePacket_close (hc : lpClose l = true) (hh : (grpOf (latPurge (rxTaken s j)) l).bind Grp.held = none) :
    exec .writePacket s = .next (withQueue s (latSteps (rxTaken s j) l 1 (fun ta s => latAccess s l
      (writeTargets (ioFor .remote) (lpDstTrn l) (pagePieces 2 ta (lpDlen l))) (fun _ s => modGrp s l (fun g => { g with
        held := some l
        heldTa := ta
        at_ := now s }))))) := by
  change execWritePacket s = _
  rw [execWritePacket, takeRx_found hl hj]
  simp only [hc, hh, Bool.and_false, Bool.false_and, Bool.false_eq_true, if_false, if_true, keepQueue_of_next]

omit hl hj in
/-- A request sent too long ago is discarded and counted. -/
theorem latSteps_aged {u : State} {l : List Byte} (h : lpT0 l + 1900000 < now u) (perm : Nat) (k : Nat → State → State) :
    latSteps u l perm k = incF (latPurge u) f_LAT_AGED_V 1 := by
  have h' : lpT0 l + 1900000 < now (latPurge u) := h
  simp only [latSteps, if_pos h']

end

end

/-! ### Windows (R322) -/

section
variable {s : State} {f : Fin 262144} {i : Fin 65536} {e : Entry}

theorem exec_winReg_new (he : EntryReady s f i clLateral 8 e) (hw : winOf s (furOwner s f) (lKey e.b) = none)
    (hq : winCount s (furOwner s f) < (quotaOf s (furOwner s f)).windows) (hn : s.lat.wins.length < 1048576) :
    exec (.winReg f i) s = .next (endEntry { s with lat := { s.lat with
      wins := s.lat.wins ++ [⟨furOwner s f, lKey e.b, lOff e.b, lAddr e.b, lPerm e.b⟩] } } f i 0 0) := by
  have hno : ¬ (decide (furOwner s f < 512) && decide ((quotaOf s (furOwner s f)).windows ≤ winCount s (furOwner s f)) ||
      decide (1048576 ≤ s.lat.wins.length)) = true := by
    simp only [Bool.or_eq_true, Bool.and_eq_true, decide_eq_true_eq]
    omega
  change execWinReg f i s = _
  rw [execWinReg, runEntry_ready he, keepQueue_of_next]
  simp only [hw, Option.isSome_none, Bool.false_eq_true, if_false, if_neg hno]
  rw [withQueue_same (by simp)]
  rfl

theorem exec_winReg_taken (he : EntryReady s f i clLateral 8 e) (hw : (winOf s (furOwner s f) (lKey e.b)).isSome = true) :
    exec (.winReg f i) s = .next (endEntry s f i 1 0) := by
  change execWinReg f i s = _
  rw [execWinReg, runEntry_ready he, keepQueue_of_next]
  simp only [hw, if_true]
  rw [withQueue_same (by simp)]
  rfl

/-- No group of an owner holds a packet for a window. -/
def windowFree (s : State) (o key : Nat) : Prop := s.lat.grps.any (fun g => g.dst == o && match g.held with
  | some l => lpKey l == key
  | none => false) = false

theorem exec_winDereg_free (he : EntryReady s f i clLateral 9 e) (hw : windowFree s (furOwner s f) (lKey e.b)) :
    exec (.winDereg f i) s = .next (endEntry s f i 0 0) := by
  change execWinDereg f i s = _
  rw [execWinDereg, runEntry_ready he, keepQueue_of_next]
  dsimp only
  rw [if_neg (by exact Bool.eq_false_iff.1 hw), withQueue_same (by simp)]
  rfl

end

/-! ### ACKs, groups and what expires (R326, R327, R330, R331) -/

section
variable {s : State} {node : BitVec 24} {id : Word} {x : Filt} (hx : filtOf s node.toNat id.toNat = some x)
include hx

theorem exec_ackSend_due (ha : x.ack = true) : exec (.ackSend node id) s = .next (withQueue s
    (sendAck (modFilt s x.node x.id (fun x => { x with ack := false })) x.hdr x.placed)) := by
  change execAckSend node id s = _
  simp only [execAckSend, hx, ha, if_true, keepQueue_of_next]

theorem exec_filterEntryExpiry_old (ht : x.at_ + 2000000 < now s) : exec (.filterEntryExpiry node id) s = .next (withQueue s
    (latUse { s with lat := { s.lat with filt := s.lat.filt.filter (fun y => !(y.node == x.node && y.id == x.id)) } })) := by
  change execFilterEntryExpiry node id s = _
  simp only [execFilterEntryExpiry, hx, if_neg (Nat.not_le.2 ht), keepQueue_of_next]

end

section
variable {s : State} {node : BitVec 24} {src dst : Fin 512} {g : BitVec 16} {x : Grp} (hx : grpBy s node.toNat src dst g.toNat = some x)
include hx

theorem exec_groupEntryExpiry_old (ht : x.at_ + 100000000 < now s) :
    exec (.groupEntryExpiry node src dst g) s = .next (withQueue s (dropGrp s x)) := by
  change execGroupEntryExpiry node src dst g s = _
  simp only [execGroupEntryExpiry, hx, if_neg (Nat.not_le.2 ht), keepQueue_of_next]

variable {l : List Byte} (hl : x.held = some l)
include hl

/-- A held closing write of a whole group is written and acknowledged. -/
theorem exec_closingWriteRelease_whole (ht : now s ≤ lpT0 l + 1900000) (hn : lpGcount l ≤ x.placed) {t : State}
    (hw : runMM s (writeSp (ioFor .remote) dst x.heldTa (lpData l)) = (.ok (), t)) :
    exec (.closingWriteRelease node src dst g) s = .next (withQueue s
      (let u := modFilt (placedNow (dropGrp t x) l) (lpSrc l) (lpId l) (fun x => { x with ack := false })
       sendAck u l (((filtOf u (lpSrc l) (lpId l)).map Filt.placed).getD 1))) := by
  have hno : ¬ (x.placed < lpGcount l ∨ lpT0 l + 1900000 < now s) := by omega
  change execClosingWriteRelease node src dst g s = _
  simp only [execClosingWriteRelease, hx, hl, if_neg hno, hw, keepQueue_of_next]

theorem exec_closingWriteDiscard_late (ht : lpT0 l + 1900000 < now s) : exec (.closingWriteDiscard node src dst g) s =
    .next (withQueue s (modGrp s l (fun g => { g with held := none }))) := by
  change execClosingWriteDiscard node src dst g s = _
  simp only [execClosingWriteDiscard, hx, hl, if_neg (Nat.not_le.2 ht), keepQueue_of_next]

end

/-! ### The statements -/

/-- Settles O42: a message as it starts, as it is sent and as an answer in time meets it. How packets spray over the ports, and a retransmission
that waits for its data, are the model's (log entry 45). -/
theorem lateralRequester : Obligations.LateralRequester := by
  unfold Obligations.LateralRequester
  refine ⟨fun s s' f i e => ⟨fun he h hf => ?write, fun he h hf => ?read, fun he h hf => ?atomic⟩,
    fun s t f i e m hm => ⟨exec_firstTransmission_sent hm, exec_messageDeadline_over hm, fun k x => exec_packetRetransmit_sent hm⟩,
    fun s j l e m hl => fun hm ht => ⟨fun hj hop => ?ack, exec_readRspPacket_inTime hl hm ht, exec_atomicRspPacket_inTime hl hm ht⟩⟩
  case write =>
    rw [← hf] at h
    exact exec_lateralWrite_ready he h
  case read =>
    obtain ⟨l, h⟩ := h
    rw [← hf] at h
    exact exec_lateralRead_ready he h
  case atomic =>
    obtain ⟨l, h⟩ := h
    rw [← hf] at h
    have hrow {aop : Nat} (ha : lAop e.b = aop) := congrArg (fun u => keepQueue s (.next u)) (latAtomic_ready he h ha)
    exact ⟨hrow, hrow, hrow⟩
  case ack =>
    rw [exec_ackPacket_inTime hl hm ht hj hop]
    refine ⟨fun hs => ?_, fun hs => ?_⟩
    all_goals
      rw [hs]
      rfl

/-- Settles O43: a request by its type through the checks of R326, and the windows, ACKs, held writes and expiries by their rows. What a receiver's
own deadlines have ended when a packet arrives is the model's (log entry 45). -/
theorem lateralResponder : Obligations.LateralResponder := by
  unfold Obligations.LateralResponder
  refine ⟨fun s f i e => ⟨fun he hw _ hq hn => exec_winReg_new he hw hq hn, exec_winReg_taken, exec_winDereg_free⟩,
    fun s j l hl => ⟨exec_writePacket_open hl, exec_writePacket_close hl, fun hj => ?readReq, fun hj => ?atomic, fun hj hc ht => ?aged⟩,
    fun s node id x hx => ⟨exec_ackSend_due hx, exec_filterEntryExpiry_old hx⟩,
    fun s node src dst g x hx => ⟨exec_groupEntryExpiry_old hx, fun l t hl ht hn hw => exec_closingWriteRelease_whole hx hl ht hn hw,
      fun l hl ht => exec_closingWriteDiscard_late hx hl ht⟩⟩
  case readReq =>
    change execReadReqPacket s = _
    rw [execReadReqPacket, takeRx_found hl hj]
    rfl
  case atomic =>
    change execAtomicPacket s = _
    rw [execAtomicPacket, takeRx_found hl hj]
    rfl
  case aged => rw [exec_writePacket_open hl hj hc, latSteps_aged (u := rxTaken s j) ht]

end Sys2Proof.Machine
end

section
/-! Key slots and the cipher engine (O47, O48). -/

namespace Sys2Proof.Machine

/-! ### Key slots (R360, R361) -/

/-- A write of a slot reads back in a store whose keys rise. -/
theorem keySlotOf_setKeySlot_same {s : State} (h : rising s.cip.slots = true) (n : Nat) (k : KeySlot) :
    keySlotOf (setKeySlot s n k) n = k := sget_sput_rising h

theorem keySlotOf_setKeySlot_other (s : State) {m n : Nat} (h : m ≠ n) (k : KeySlot) : keySlotOf (setKeySlot s n k) m = keySlotOf s m :=
  sget_sput_other h

@[simp] theorem setKeySlot_infl (s : State) (n : Nat) (k : KeySlot) : (setKeySlot s n k).infl = s.infl := rfl

/-- A CHIP or FULL reset leaves no slot that differs from the reset one. -/
theorem keySlotOf_chipResetTo (s : State) (i lvl n : Nat) : keySlotOf (chipResetTo s i lvl) n = KeySlot.reset := rfl

/-- Settles O48: a release writes the reset slot's type, key and owner, and the reset empties the store of slots. -/
theorem keySlotRelease : Obligations.KeySlotRelease := by
  unfold Obligations.KeySlotRelease
  refine ⟨fun s n h => ?_, fun s i lvl n _ => ?_⟩
  · rw [releaseSlot, keySlotOf_setKeySlot_same h]
    exact ⟨rfl, fun b hb => absurd hb List.not_mem_nil, rfl, rfl, fun m hm => keySlotOf_setKeySlot_other s hm _⟩
  · rw [keySlotOf_chipResetTo]
    exact ⟨rfl, rfl, rfl⟩

/-! ### Requests (R355–R358, R362) -/

/-- An entry whose turn it is has the row's opcode. -/
theorem InTurn.op {s : State} {f i cls op : Nat} {e : Entry} (h : InTurn s f i cls op e) : e.op = op := by
  obtain ⟨⟨-, -, -, hop⟩, -⟩ := h
  exact hop

/-- Accesses that succeed go on with what was read. -/
theorem cipData_ok {α : Type} {s u : State} {e : Entry} {x : MM α} {r : α} (h : runMM s x = (.ok r, u)) (k : α → State → State) :
    cipData s e x k = k r u := by
  rw [cipData, h]

section
variable {s u : State} {f : Fin 262144} {i : Fin 65536} {e : Entry} (hf : e.f = f) (hi : e.i = i)
include hf hi

/-- A row whose entry's turn it is runs on the started entry. -/
theorem cipRun_inTurn {op : Nat} (h : InTurn s f i clCipher op e) (k : State → Entry → State) :
    cipRun f i op s k = .next (k (modEntry s f i fetchStart) (fetchStart e)) := by
  obtain ⟨hr, hb⟩ := h
  rw [cipRun, runEntry_ready hr, if_neg (ne_true_of_eq_false hb), ← hf, ← hi]
  rfl

/-- A row whose accesses succeed goes on with what they read. -/
theorem exec_cipRow {α : Type} {c : Instr} {op : Nat} {k : State → Entry → State} {g : α → State → State} {x : MM α} {r : α}
    (hc : exec c s = keepQueue s (cipRun f i op s k)) (h : InTurn s f i clCipher op e)
    (hm : runMM (modEntry s f i fetchStart) x = (.ok r, u))
    (hk : k (modEntry s f i fetchStart) (fetchStart e) = cipData (modEntry s f i fetchStart) (fetchStart e) x g) :
    exec c s = .next (withQueue s (g r u)) := by
  rw [hc, cipRun_inTurn hf hi h, hk, cipData_ok hm, keepQueue_of_next]

end

/-- The row of an XTS request on a started entry, its owner that of furrow `f`. -/
theorem xtsRun_eq (s : State) {f : Nat} {e : Entry} (hf : e.f = f) (enc : Bool) :
    xtsRun s e enc = cipData s e (do
      ready (ioOf e) (furOwner s f) (cDst e.b) (cLen e.b)
      let d ← readSp (ioOf e) (furOwner s f) (cSrc e.b) (cLen e.b)
      writeSp (ioOf e) (furOwner s f) (cDst e.b) (xtsUnit enc (e.data.take 32) (e.data.drop 32) ((e.b.drop 24).take 16) d)) fun _ u =>
        cipEnd u e stOk (cLen e.b) := by
  subst hf
  rfl

/-- The row of a SHA request on a started entry, its owner that of furrow `f`. -/
theorem shaRun_eq (s : State) {f op : Nat} {e : Entry} (hf : e.f = f) (hop : e.op = op) :
    shaRun s e = cipData s e (do
      ready (ioOf e) (furOwner s f) (cAux e.b) 80
      ready (ioOf e) (furOwner s f) (cDst e.b) (cOut e.b)
      let r ← if cFirst e.b then pure [] else readSp (ioOf e) (furOwner s f) (cAux e.b) 80
      let d ← readSp (ioOf e) (furOwner s f) (cSrc e.b) (cLen e.b)
      match shaStep op (cFirst e.b) (cLast e.b) r d with
      | none => return false
      | some x =>
        writeSp (ioOf e) (furOwner s f) (if cLast e.b then cDst e.b else cAux e.b) x
        return true) fun ok u =>
          if ok then cipEnd (if cLast e.b then scatter u (ioOf e) (furOwner s f) (cAux e.b) 80 else u) e stOk (cOut e.b)
          else cipAbort u e stField := by
  subst hf hop
  rfl

/-! ### The tag verdict (R362) -/

section
variable {s u : State} {f : Fin 262144} {i : Fin 65536} {e : Entry} (he : entryOf s f i = some e)
  (hg : furClass s f = clCipher ∧ e.op = 2 ∧ e.snap = [1, 1, 1] ∧ (e.ph = .running ∨ e.ph = .fetched))
include he hg

/-- The tags agree: the plaintext is released. -/
theorem exec_tagVerdict_equal (ht : (e.data.drop (cLen e.b)).take 16 = e.data.drop (cLen e.b + 16))
    (hm : runMM s (writeSp (ioOf e) (furOwner s f) (cDst e.b) (e.data.take (cLen e.b))) = (.ok (), u)) :
    exec (.tagVerdict f i) s = .next (withQueue s (cipEnd u e 0 (cLen e.b))) := by
  change execTagVerdict f i s = _
  simp only [execTagVerdict, he, if_pos hg, if_pos ht, cipData_ok hm, keepQueue_of_next]
  rfl

/-- The tags differ: the request ends with AUTH_FAIL. -/
theorem exec_tagVerdict_differ (ht : (e.data.drop (cLen e.b)).take 16 ≠ e.data.drop (cLen e.b + 16)) :
    exec (.tagVerdict f i) s = .next (withQueue s (cipEnd (incF s f_CIP_AUTHFAIL_V 1) e 0x06 0)) := by
  change execTagVerdict f i s = _
  simp only [execTagVerdict, he, if_pos hg, if_neg ht, keepQueue_of_next]
  rfl

end

/-- Settles O47: each row runs on its started entry, and its accesses are those of the statement. -/
theorem ciphers : Obligations.Ciphers := by
  unfold Obligations.Ciphers
  intro s u f i e hf hi
  refine ⟨?enc, ?dec, ?verdict, ?xtsEnc, ?xtsDec, ?sha256, ?sha256Bad, ?sha384Bad, ?sha384⟩
  case enc =>
    intro h hm
    exact exec_cipRow (c := .gcmEnc f i) (g := fun _ t => cipEnd t (fetchStart e) stOk (cLen e.b)) hf hi (execGcmEnc.eq_def f i s) h hm (by rfl)
  case dec =>
    intro h hn p t hm
    exact exec_cipRow (c := .gcmDec f i) hf hi
      (g := fun r t => modEntry t f i (fun x => { x with snap := [1, 1, 1], data := r.1 ++ r.2, ph := .running }))
      (execGcmDec.eq_def f i s) h hm (if_neg hn)
  case verdict =>
    intro he hc hop hs hp
    exact ⟨fun ht hm => exec_tagVerdict_equal (e := e) he ⟨hc, hop, hs, hp⟩ ht hm,
      fun ht => exec_tagVerdict_differ (e := e) he ⟨hc, hop, hs, hp⟩ ht⟩
  case xtsEnc => exact fun h hm => exec_cipRow (c := .xtsEnc f i) hf hi (execXtsEnc.eq_def f i s) h hm (xtsRun_eq _ hf true)
  case xtsDec => exact fun h hm => exec_cipRow (c := .xtsDec f i) hf hi (execXtsDec.eq_def f i s) h hm (xtsRun_eq _ hf false)
  case sha256 => exact fun h hm => exec_cipRow (c := .sha256 f i) hf hi (execSha256.eq_def f i s) h hm (shaRun_eq _ hf h.op)
  case sha256Bad => exact fun h hm => exec_cipRow (c := .sha256 f i) hf hi (execSha256.eq_def f i s) h hm (shaRun_eq _ hf h.op)
  case sha384Bad => exact fun h hm => exec_cipRow (c := .sha384 f i) hf hi (execSha384.eq_def f i s) h hm (shaRun_eq _ hf h.op)
  case sha384 => exact fun h hm => exec_cipRow (c := .sha384 f i) hf hi (execSha384.eq_def f i s) h hm (shaRun_eq _ hf h.op)

end Sys2Proof.Machine
end

section
/-! Storage commands, drives, and contexts (O44, O45, O46). -/

namespace Sys2Proof.Machine

/-! ### An entry that starts, and a command over its pieces -/

@[simp] theorem stoEntry_b (e : Entry) : (stoEntry e).b = e.b := by
  rw [stoEntry]
  split <;> rfl

@[simp] theorem stoEntry_f (e : Entry) : (stoEntry e).f = e.f := by
  rw [stoEntry]
  split <;> rfl

@[simp] theorem stoEntry_i (e : Entry) : (stoEntry e).i = e.i := by
  rw [stoEntry]
  split <;> rfl

@[simp] theorem nsOf_stoState (s : State) (e : Entry) (n : Nat) : nsOf (stoState s e) n = nsOf s n := by
  rw [stoState]
  split <;> rfl

/-- A row of opcode `op` runs on the entry `e` in the state `a`. -/
def StoRuns (s : State) (f : Fin 262144) (i : Fin 65536) (op : Nat) (a : State) (e : Entry) : Prop :=
  ∀ k, stoRun f i op s k = .next (k a e)

theorem StoReady.runs {s : State} {f : Fin 262144} {i : Fin 65536} {op : Nat} {e : Entry} (h : StoReady s f i op e) :
    StoRuns s f i op (stoState s e) (stoEntry e) := by
  obtain ⟨hr, hs⟩ := h
  intro k
  rw [stoRun, runEntry_ready hr]
  by_cases h1 : stoStarted e = true
  · rw [if_pos h1, stoState, if_pos h1, stoEntry, if_pos h1]
  · rw [if_neg h1, if_pos (hs.resolve_left h1), stoState, if_neg h1, stoEntry, if_neg h1]

/-- Answers of equal states under one queue are equal. -/
theorem next_withQueue_congr {s t u : State} (h : t = u) : (.next (withQueue s t) : Ans) = .next (withQueue s u) := by rw [h]

/-- A row that issues over its pieces goes on as the statement's word says. -/
theorem stoGoes_of_stoIssue {c : Instr} {s s0 u : State} {e : Entry} {ps : List (Nat × Nat × Nat)} {kind : NvKind} {data : Nat → List Byte}
    {ent : Option CtxRec} {res : Nat} {done : State → State}
    (h : exec c s = .next (withQueue s (stoIssue s0 u e ps kind (eNs e.b) data ent res done))) (h0 : ent = none → s0 = u) :
    StoGoes c s u e ps kind data ent res (done u) := by
  refine ⟨?empty, ?ready, ?notReady⟩
  case empty =>
    rintro rfl
    exact h
  case ready =>
    intro hne hr hd
    have hn : ps.find? (fun p => !drvReady u p.1) = none := by
      rw [List.find?_eq_none]
      intro p hp
      simp [List.all_eq_true.mp hr p hp]
    rw [h, stoIssue, hn]
    simp only [hd, Bool.not_true, Bool.false_eq_true, if_false, List.isEmpty_iff, hne]
    rfl
  case notReady =>
    intro p hp he
    rw [h, stoIssue, hp, h0 he]
    rfl

/-! ### Storage I/O commands (R339, R340, R343, R351) -/

section
variable {s a u v : State} {f : Fin 262144} {i : Fin 65536} {e : Entry} {x y : Ns}

theorem exec_read_goes (h : StoRuns s f i 0x01 a e) (hf : e.f = f) (hx : nsOf a (eNs e.b) = some x) {l : List (Nat × Nat)}
    (hm : runMM a (writeTargets (ioOf e) (furOwner a f) (pagePieces (4096 * eCount e.b / 4096 + 2) (eAddr e.b) (4096 * eCount e.b))) =
      (.ok l, u)) :
    StoGoes (.read f i) s u e (slabPieces x (4096 * eSlba e.b) (4096 * eCount e.b)) .read (fun _ => []) none 0 (readDone u e x) := by
  refine stoGoes_of_stoIssue (done := fun t => readDone t e x) ?_ (fun _ => rfl)
  rw [← hf] at hm
  change execRead f i s = _
  simp only [execRead, h _, hx, bufReady, withData_ok srcStorage hm, keepQueue_of_next]

section
variable (h : StoRuns s f i 0x02 a e) (hx : nsOf a (eNs e.b) = some x)
include h hx

theorem exec_write_readOnly (hro : x.ro = true) : exec (.write f i) s = .next (withQueue s (endEntry a f i 0x0B noResult)) := by
  change execWrite f i s = _
  rw [execWrite, h, keepQueue_of_next, hx]
  exact next_withQueue_congr (if_pos hro)

variable {k : Nat × Nat} (hk : unitRange (4096 * eSlba e.b) (4096 * eCount e.b) = k) (hro : x.ro = false)
  {d : List Byte} (hm : runMM a (readSp (ioOf e) (furOwner a f) (eAddr e.b) (4096 * eCount e.b)) = (.ok d, u))
include hk hro hm

theorem exec_write_noSpace (hg : giveSlabs (eNs e.b) k.2 k.1 u = none) :
    exec (.write f i) s = .next (withQueue s (noSpace u f i (eNs e.b))) := by
  change execWrite f i s = _
  rw [execWrite, h, keepQueue_of_next, hx]
  refine next_withQueue_congr (((if_neg (ne_true_of_eq_false hro)).trans (withData_ok srcStorage hm _)).trans ?_)
  rw [hk]
  simp only [hg]

theorem exec_write_goes (hg : giveSlabs (eNs e.b) k.2 k.1 u = some v) (hy : nsOf v (eNs e.b) = some y) :
    StoGoes (.write f i) s v e (slabPieces y (4096 * eSlba e.b) (4096 * eCount e.b)) .write (fun o => d.drop (o - 4096 * eSlba e.b)) none 0
      (endEntry v f i 0 (eCount e.b)) := by
  refine stoGoes_of_stoIssue (done := fun t => endEntry t f i stOk (eCount e.b)) ?_ (fun _ => rfl)
  change execWrite f i s = _
  rw [execWrite, h, keepQueue_of_next, hx]
  refine next_withQueue_congr (((if_neg (ne_true_of_eq_false hro)).trans (withData_ok srcStorage hm _)).trans ?_)
  rw [hk]
  simp only [hg, hy]

end

section
variable (h : StoRuns s f i 0x04 a e) (hx : nsOf a (eNs e.b) = some x)
include h hx

theorem exec_writeZeroes_readOnly (hro : x.ro = true) :
    exec (.writeZeroes f i) s = .next (withQueue s (endEntry a f i 0x0B noResult)) := by
  change execWriteZeroes f i s = _
  rw [execWriteZeroes, h, keepQueue_of_next, hx]
  exact next_withQueue_congr (if_pos hro)

variable {k : Nat × Nat} (hk : unitRange (4096 * eSlba e.b) (4096 * eCount e.b) = k) (hro : x.ro = false)
include hk hro

theorem exec_writeZeroes_noSpace (hg : giveSlabs (eNs e.b) k.2 k.1 a = none) :
    exec (.writeZeroes f i) s = .next (withQueue s (noSpace a f i (eNs e.b))) := by
  change execWriteZeroes f i s = _
  rw [execWriteZeroes, h, keepQueue_of_next, hx]
  refine next_withQueue_congr ((if_neg (ne_true_of_eq_false hro)).trans ?_)
  rw [hk]
  simp only [hg]

theorem exec_writeZeroes_goes (hg : giveSlabs (eNs e.b) k.2 k.1 a = some v) (hy : nsOf v (eNs e.b) = some y) :
    StoGoes (.writeZeroes f i) s v e (slabPieces y (4096 * eSlba e.b) (4096 * eCount e.b)) .zero (fun _ => []) none 0
      (endEntry v f i 0 (eCount e.b)) := by
  refine stoGoes_of_stoIssue (done := fun t => endEntry t f i stOk (eCount e.b)) ?_ (fun _ => rfl)
  change execWriteZeroes f i s = _
  rw [execWriteZeroes, h, keepQueue_of_next, hx]
  refine next_withQueue_congr ((if_neg (ne_true_of_eq_false hro)).trans ?_)
  rw [hk]
  simp only [hg, hy]

end

theorem exec_trim_readOnly (h : StoRuns s f i 0x05 a e) (hx : nsOf a (eNs e.b) = some x) (hro : x.ro = true) :
    exec (.trim f i) s = .next (withQueue s (endEntry a f i 0x0B noResult)) := by
  change execTrim f i s = _
  simp only [execTrim, h _, hx, hro, ↓reduceIte, keepQueue_of_next]
  rfl

theorem exec_trim_goes (h : StoRuns s f i 0x05 a e) (hx : nsOf a (eNs e.b) = some x) (hro : x.ro = false) :
    StoGoes (.trim f i) s a e (slabPieces x (4096 * eSlba e.b) (4096 * eCount e.b)) .dealloc (fun _ => []) none 0
      (endEntry a f i 0 (eCount e.b)) := by
  refine stoGoes_of_stoIssue (done := fun t => endEntry t f i stOk (eCount e.b)) ?_ (fun _ => rfl)
  change execTrim f i s = _
  simp only [execTrim, h _, hx, hro, Bool.false_eq_true, if_false, keepQueue_of_next]

theorem exec_flush_goes (h : StoRuns s f i 0x03 a e) (hx : nsOf a (eNs e.b) = some x) (hb : stoBefore a e = []) :
    StoGoes (.flush f i) s a e ((nsDrives x).map (fun d => (d, 0, 0))) .flush (fun _ => []) none 0 (endEntry a f i 0 0) := by
  refine stoGoes_of_stoIssue (done := fun t => endEntry t f i stOk 0) ?_ (fun _ => rfl)
  change execFlush f i s = _
  simp only [execFlush, h _, hx, hb, List.isEmpty_nil, Bool.not_true, Bool.false_eq_true, if_false, keepQueue_of_next]

theorem exec_rangeLockGrant_free {l : RLock} (hl : s.sto.locks.find? (fun l => l.f == f.val && l.i == i.val) = some l)
    (hb : lockBlocked s l = false) :
    exec (.rangeLockGrant f i) s = .next (modEntry s f i (fun e => { e with snap := e.snap.set 0 0 })) := by
  change execRangeLockGrant f i s = _
  simp only [execRangeLockGrant, hl, hb, Bool.false_eq_true, if_false, keepQueue_of_next]
  rfl

end

/-- Settles O44: each row runs on its started entry, and its command goes on over its pieces. -/
theorem storageCommands : Obligations.StorageCommands := by
  unfold Obligations.StorageCommands
  intro s f i e₀ x hx hf hi
  have hxa : nsOf (stoState s e₀) (eNs (stoEntry e₀).b) = some x := by simpa using hx
  refine ⟨?read, ?write, ?zeroes, ?trim, ?flush, ?grant⟩
  case read => exact fun h l u hm => exec_read_goes h.runs (by simpa using hf) hxa hm
  case write =>
    exact fun h => ⟨exec_write_readOnly h.runs hxa, fun hro d u hm =>
      ⟨exec_write_noSpace h.runs hxa rfl hro hm, fun v y hg hy => exec_write_goes h.runs hxa rfl hro hm hg hy⟩⟩
  case zeroes =>
    exact fun h => ⟨exec_writeZeroes_readOnly h.runs hxa, fun hro =>
      ⟨exec_writeZeroes_noSpace h.runs hxa rfl hro, fun v y hg hy => exec_writeZeroes_goes h.runs hxa rfl hro hg hy⟩⟩
  case trim => exact fun h => ⟨exec_trim_readOnly h.runs hxa, exec_trim_goes h.runs hxa⟩
  case flush => exact fun h hb => exec_flush_goes h.runs hxa hb
  case grant => exact fun l hl hb => exec_rangeLockGrant_free hl hb

end Sys2Proof.Machine
end

section
/-! The drives (O45). -/

namespace Sys2Proof.Machine

/-! ### Completions, deadlines and resets (R340, R346) -/

/-- A command that ends badly ends its entry, or leaves one that has other commands. -/
theorem nvEndBad_entry {s : State} {c : Nvme} {nvst st : Nat} {e : Entry}
    (he : entryOf (stoFail (nvFail (nvDrop s c) c) c nvst st) c.f c.i = some e) :
    nvEndBad s c nvst st = stoFinish (stoFail (nvFail (nvDrop s c) c) c nvst st) e := by
  simp only [nvEndBad, he]

/-- What the deadline of a command does before its entry ends: the abort, the event, the count, the entry's note (R346). -/
def nvAborted (s : State) (c : Nvme) : State :=
  stoFail (incF (event { s with sto := { s.sto with
    cmds := s.sto.cmds.map (fun q => if q.drive == c.drive && q.id == c.id then { q with aborted := true } else q) } }
    (0x182 + c.drive) 1 0x0B 1) f_CQS_CNT_TMO_V 1) c 0 stTimeout

/-- A deadline ends a running entry with TIMEOUT. -/
theorem nvExpire_running {s : State} {c : Nvme} {e : Entry} (he : entryOf (nvAborted s c) c.f c.i = some e) (hp : e.ph = .running) :
    nvExpire s c = endEntry (nvAborted s c) c.f c.i stTimeout noResult := by
  change (match entryOf (nvAborted s c) c.f c.i with
    | some e => if e.ph = EPhase.running then endEntry (nvAborted s c) c.f c.i stTimeout noResult else nvAborted s c
    | none => nvAborted s c) = _
  simp only [he, if_pos hp]

section
variable {s : State} {d : Fin 16} {id : Fin 16384} {c : Nvme} (hc : s.sto.cmds.find? (fun c => c.drive == d.val && c.id == id.val) = some c)
include hc

theorem exec_nvmeCompletion_inTime (hl : nvLate s c = false) (st : BitVec 15) :
    exec (.nvmeCompletion d id st) s = .next (withQueue s (nvComplete s c st.toNat)) := by
  change execNvmeCompletion d id st s = _
  simp only [execNvmeCompletion, hc, hl, Bool.not_false, if_true, keepQueue_of_next]

/-- A success in time commits the command. -/
theorem exec_nvmeCompletion_success (hl : nvLate s c = false) {st : BitVec 15} (hs : nvStatus st.toNat = 0) {e e' : Entry}
    (he : entryOf s c.f c.i = some e) (he' : entryOf (nvCommit (nvDrop s c) c e.seq) c.f c.i = some e') :
    exec (.nvmeCompletion d id st) s = .next (withQueue s (stoFinish (nvCommit (nvDrop s c) c e.seq) e')) := by
  have hn : ¬ nvStatus st.toNat ≠ stOk := not_not_intro hs
  rw [exec_nvmeCompletion_inTime hc hl]
  simp only [nvComplete, if_neg hn, he, Option.map_some, Option.getD_some, he']

/-- A failure in time ends the command badly. -/
theorem exec_nvmeCompletion_failure (hl : nvLate s c = false) {st : BitVec 15} (hs : nvStatus st.toNat ≠ 0) {e : Entry}
    (he : entryOf (stoFail (nvFail (nvDrop (if nvStatus st.toNat = 0x0C then incF s f_CQS_CNT_MEDIA_V 1 else s) c) c) c st.toNat
      (nvStatus st.toNat)) c.f c.i = some e) :
    exec (.nvmeCompletion d id st) s = .next (withQueue s (stoFinish (stoFail (nvFail (nvDrop
      (if nvStatus st.toNat = 0x0C then incF s f_CQS_CNT_MEDIA_V 1 else s) c) c) c st.toNat (nvStatus st.toNat)) e)) := by
  have hn : nvStatus st.toNat ≠ stOk := hs
  rw [exec_nvmeCompletion_inTime hc hl]
  simp only [nvComplete, if_pos hn]
  exact next_withQueue_congr (nvEndBad_entry he)

/-- The command found is the drive's. -/
theorem nvme_found : c.drive = d.val ∧ c.id = id.val := by
  simpa using List.find?_some hc

/-- A command whose TMO has passed is aborted, and its running entry ends with TIMEOUT. -/
theorem exec_nvmeTimeout_over (ha : c.aborted = false) (hact : rd s (f_CQS_DRV_ACTIVATING d) = 0) (ht : c.at_ + stoTmo s < s.clk) {e : Entry}
    (he : entryOf (nvAborted s c) c.f c.i = some e) (hp : e.ph = .running) :
    exec (.nvmeTimeout d id) s = .next (withQueue s (endEntry (nvAborted s c) c.f c.i 0x10 noResult)) := by
  obtain ⟨hd, -⟩ := nvme_found hc
  have hl : nvLate s c = true := by simp [nvLate, hd, hact, ha, overdue, ht]
  change execNvmeTimeout d id s = _
  simp only [execNvmeTimeout, hc, ha, hl, Bool.not_true, Bool.or_false, Bool.false_eq_true, if_false, keepQueue_of_next]
  exact next_withQueue_congr (nvExpire_running he hp)

end

section
variable {s : State} {d : Fin 16}

/-- A drive with a command a further TMO after its abort has its controller reset. -/
theorem exec_driveControllerReset_late (hact : rd s (f_CQS_DRV_ACTIVATING d) = 0)
    (h : s.sto.cmds.any (fun c => c.drive == d.val && c.aborted && decide (c.at_ + 2 * stoTmo s < s.clk)) = true) :
    exec (.driveControllerReset d) s = .next (withQueue s (ctlReset s d)) := by
  obtain ⟨c, hc, hd⟩ := List.any_eq_true.mp h
  simp only [Bool.and_eq_true, beq_iff_eq, decide_eq_true_eq] at hd
  obtain ⟨⟨hd, ha⟩, ht⟩ := hd
  have hl : s.sto.cmds.any (fun c => c.drive == d.val && c.aborted && nvLate s c) = true :=
    List.any_eq_true.mpr ⟨c, hc, by simp [nvLate, hd, hact, ha, overdue, ht]⟩
  change execDriveControllerReset d s = _
  simp only [execDriveControllerReset, hl, if_true, keepQueue_of_next]

theorem exec_driveControllerStart_ok (worn : Bool) (slabs : BitVec 24) :
    exec (.driveControllerStart d true worn slabs) s = .next (withQueue s (drvFree (wr (wr (clearPresent
      (wr (wr s (f_CQS_DRV_PRESENT d) 1) (f_CQS_DRV_READY d) 1) (0x182 + d)) (f_CQS_DRV_SLABS d) slabs.toNat) (f_CQS_DRV_WORN d) (b2n worn)) d)) := by
  change execDriveControllerStart d true worn slabs s = _
  simp only [execDriveControllerStart, Bool.not_true, Bool.false_eq_true, if_false, keepQueue_of_next]

theorem exec_driveControllerStart_lacking (worn : Bool) (slabs : BitVec 24) :
    exec (.driveControllerStart d false worn slabs) s = .next (withQueue s (condEvent
      (wr (wr s (f_CQS_DRV_PRESENT d) 1) (f_CQS_DRV_READY d) 0) (0x182 + d) 0x0B 0)) := by
  change execDriveControllerStart d false worn slabs s = _
  simp only [execDriveControllerStart, Bool.not_false, if_true, keepQueue_of_next]

/-- The SMART log of a ready drive says whether it is worn. -/
theorem exec_smartPoll_ready (hp : rd s (f_CQS_DRV_PRESENT d) = 1) (hr : rd s (f_CQS_DRV_READY d) = 1) (w : BitVec 8) :
    exec (.smartPoll d w) s = .next (wr s (f_CQS_DRV_WORN d) (if w.getLsbD 0 = true ∨ w.getLsbD 3 = true then 1 else 0)) := by
  have hb : b2n (w.getLsbD 0 || w.getLsbD 3) = if w.getLsbD 0 = true ∨ w.getLsbD 3 = true then 1 else 0 := by
    simp only [b2n, Bool.or_eq_true]
  change execSmartPoll d w s = _
  simp only [execSmartPoll, drvReady, hp, hr, beq_self_eq_true, Bool.and_self, if_true, hb, keepQueue_of_next, withQueue_wr]

theorem exec_driveActivationDone : exec (.driveActivationDone d) s = .next (wr s (f_CQS_DRV_ACTIVATING d) 0) := by
  change execDriveActivationDone d s = _
  rw [execDriveActivationDone, keepQueue_of_next, withQueue_wr]

theorem exec_storagePowerRequest_open (hb : barOpen s = true) (q : Fin 4) :
    exec (.storagePowerRequest q) s = .next (withQueue s (psStart (wr s f_CQS_PS_REQ q))) := by
  change execStoragePowerRequest q s = _
  simp only [execStoragePowerRequest, hb, Bool.not_true, Bool.false_eq_true, if_false, keepQueue_of_next]

theorem exec_storagePowerTransition_busy (hb : rd s f_CQS_PS_BUSY = 1) :
    exec .storagePowerTransition s = .next (withQueue s (psStart (wr (wr s f_CQS_PS_CUR s.sto.psTo) f_CQS_PS_BUSY 0))) := by
  have hn : ¬ rd s f_CQS_PS_BUSY = 0 := by omega
  change execStoragePowerTransition s = _
  simp only [execStoragePowerTransition, if_neg hn, keepQueue_of_next]

end

/-- Settles O45: one lemma for each row. -/
theorem storageDrives : Obligations.StorageDrives := by
  unfold Obligations.StorageDrives
  refine ⟨fun s d id c hc => ⟨fun hl st => ⟨?success, ?failure⟩, ?timeout⟩,
    fun s d => ⟨?reset, ?start, ?smart, exec_driveActivationDone, ?power, exec_storagePowerTransition_busy⟩⟩
  case success => exact fun hs e e' he he' => exec_nvmeCompletion_success hc hl hs he he'
  case failure => exact fun hs e he => exec_nvmeCompletion_failure hc hl hs he
  case timeout =>
    obtain ⟨hd, hid⟩ := nvme_found hc
    rw [← hd, ← hid]
    exact fun ha hact ht e he hp => exec_nvmeTimeout_over hc ha (by rwa [← hd]) ht he hp
  case reset => exact fun hact h => exec_driveControllerReset_late hact h
  case start => exact fun worn slabs => ⟨exec_driveControllerStart_ok worn slabs, exec_driveControllerStart_lacking worn slabs⟩
  case smart => exact fun w hp hr => exec_smartPoll_ready hp hr w
  case power => exact fun q hb => exec_storagePowerRequest_open hb q

end Sys2Proof.Machine
end

section
/-! Storage administration and the context store (O46). -/

namespace Sys2Proof.Machine

/-- How a discard of the entries of furrow `g`, of which `k` completed, leaves its command. -/
def discardEnds (u : State) (f i g : Nat) (x : Furrow) (k : Nat) : Discard → State
  | .all => endEntry (flushHeld u g) f i 0 k
  | .waits => modEntry u f i (fun e => { e with snap := [2, x.pi.toNat, k] })
  | .fault => endEntry u f i 0 k

/-- PFMT of a context's newest record; a free value where it has none (R353). -/
def putPfmt (v : State) (y : Ns) (t ctx : Nat) : Nat × State :=
  match (y.index.filter (fun r => r.t == t && r.ctx == ctx)).getLast? with
  | some r => (r.pfmt, v)
  | none => freshBelow v 0x14

/-! ### Logs, restarts and namespaces (R338, R344, R345) -/

section
variable {s a u : State} {f : Fin 262144} {i : Fin 65536} {e : Entry}

theorem exec_getLog_ends (h : StoRuns s f i 0x82 a e)
    (hm : runMM a (writeSp (ioOf e) (furOwner a f) (eAddr e.b) ((sget [] a.sto.logs (furOwner a f)).take (eCount e.b / 48)).flatten) = (.ok (), u)) :
    exec (.getLog f i) s = .next (withQueue s (endEntry u f i 0 ((sget [] a.sto.logs (furOwner a f)).take (eCount e.b / 48)).length)) := by
  change execGetLog f i s = _
  rw [execGetLog, h, keepQueue_of_next]
  exact next_withQueue_congr (withData_ok srcStorage hm _)

section
variable (h : StoRuns s f i 0x83 a e)
include h

section
variable (hm : lef e.b 42 1 0 0 = 0)
include hm

theorem exec_restartQueueResume_none (hr : restartTarget a (furOwner a f) (lef e.b 40 2 13 0) = none) :
    exec (.restartQueueResume f i) s = .next (withQueue s (endEntry a f i 1 noResult)) := by
  have hn : ¬ lef e.b 42 1 0 0 ≠ 0 := not_not_intro hm
  change execRestartQueueResume f i s = _
  simp only [execRestartQueueResume, h _, if_neg hn, hr, keepQueue_of_next]
  rfl

theorem exec_restartQueueResume_some {g : Nat} (hr : restartTarget a (furOwner a f) (lef e.b 40 2 13 0) = some g) :
    exec (.restartQueueResume f i) s = .next (withQueue s (endEntry (flushHeld a g) f i 0 0)) := by
  have hn : ¬ lef e.b 42 1 0 0 ≠ 0 := not_not_intro hm
  change execRestartQueueResume f i s = _
  simp only [execRestartQueueResume, h _, if_neg hn, hr, keepQueue_of_next]
  rfl

end

variable (hm : lef e.b 42 1 0 0 = 1)
include hm

theorem exec_restartQueueDiscard_none (hr : restartTarget a (furOwner a f) (lef e.b 40 2 13 0) = none) :
    exec (.restartQueueDiscard f i) s = .next (withQueue s (endEntry a f i 1 noResult)) := by
  have hn : ¬ lef e.b 42 1 0 0 ≠ 1 := not_not_intro hm
  change execRestartQueueDiscard f i s = _
  simp only [execRestartQueueDiscard, h _, if_neg hn, hr, keepQueue_of_next]
  rfl

/-- A discard that starts: what its entries gave decides how it goes on. -/
theorem exec_restartQueueDiscard_some {g : Nat} (hr : restartTarget a (furOwner a f) (lef e.b 40 2 13 0) = some g) (hs : e.snap = [2])
    {x : Furrow} (hx : furOf a g = some x) {k : Nat} {r : Discard} (hd : discardEntries g (x.pi - x.head).toNat a = (u, k, r)) :
    exec (.restartQueueDiscard f i) s = .next (withQueue s (discardEnds u f i g x k r)) := by
  have hn : ¬ lef e.b 42 1 0 0 ≠ 1 := not_not_intro hm
  change execRestartQueueDiscard f i s = _
  simp only [execRestartQueueDiscard, h _, if_neg hn, hr, hs, hx, Option.map_some, Option.getD_some, List.length_singleton, if_true, hd,
    keepQueue_of_next]
  simp only [List.getD_cons_succ, List.getD_nil, Nat.zero_add]
  cases r <;> rfl

end

theorem exec_nsCreate_full (h : StoRuns s f i 0x80 a e) (hq : (quotaOf a (furOwner a f)).namespaces ≤ nsCount a (furOwner a f)) :
    exec (.nsCreate f i) s = .next (withQueue s (endEntry a f i 0x03 noResult)) := by
  change execNsCreate f i s = _
  simp only [execNsCreate, h _, ge_iff_le, if_pos hq, keepQueue_of_next]
  rfl

theorem exec_nsCreate_made (h : StoRuns s f i 0x80 a e) (hq : nsCount a (furOwner a f) < (quotaOf a (furOwner a f)).namespaces) {n : Nat}
    (hn : findBelow (fun k => decide (0 < k) && (nsOf a k).isNone) 8193 = some n) :
    exec (.nsCreate f i) s = .next (withQueue s (endEntry (setNs a n (some
      ⟨furOwner a f, lef e.b 20 1 0 0 == 1, eSlba e.b, false, [], [], 1, 0, true, [], false⟩)) f i 0 n)) := by
  have hq' : ¬ nsCount a (furOwner a f) ≥ (quotaOf a (furOwner a f)).namespaces := by omega
  change execNsCreate f i s = _
  simp only [execNsCreate, h _, if_neg hq', hn, keepQueue_of_next]
  rfl

end

/-! ### Commands on a namespace (R338, R351–R354) -/

section
variable {s a u v : State} {f : Fin 262144} {i : Fin 65536} {e : Entry} {x y : Ns} (hx : nsOf a (eNs e.b) = some x)
include hx

theorem exec_nsDelete_goes (h : StoRuns s f i 0x81 a e)
    (hb : a.infl.any (fun x => furClass a x.f == clStorage && decide (x.seq < e.seq) && namesNs (eNs e.b) x) = false) :
    StoGoes (.nsDelete f i) s a e ((nsDrives x).map (fun d => (d, 0, 0))) .dealloc (fun _ => []) none 0
      (endEntry (dropNs a (eNs e.b)) f i 0 0) := by
  refine stoGoes_of_stoIssue (done := fun t => endEntry (dropNs t (eNs e.b)) f i stOk 0) ?_ (fun _ => rfl)
  change execNsDelete f i s = _
  simp only [execNsDelete, h _, hb, Bool.false_eq_true, if_false, hx, keepQueue_of_next]

section
variable (h : StoRuns s f i 0x06 a e)
include h

theorem exec_ctxPut_readOnly (hro : x.ro = true) : exec (.ctxPut f i) s = .next (withQueue s (endEntry a f i 0x0B noResult)) := by
  change execCtxPut f i s = _
  rw [execCtxPut, h, keepQueue_of_next]
  simp only [hx]
  exact next_withQueue_congr (if_pos hro)

variable (hro : x.ro = false) {d : List Byte} (hm : runMM a (readSp (ioOf e) (furOwner a f) (eAddr e.b) (eCount e.b)) = (.ok d, u))
include hro hm

theorem exec_ctxPut_noSpace (hr : ctxRoom u (eNs e.b) (64 + alignUp d.length 64) = none) :
    exec (.ctxPut f i) s = .next (withQueue s (noSpace u f i (eNs e.b))) := by
  change execCtxPut f i s = _
  rw [execCtxPut, h, keepQueue_of_next]
  simp only [hx]
  refine next_withQueue_congr (((if_neg (ne_true_of_eq_false hro)).trans (withData_ok srcStorage hm _)).trans ?_)
  simp only [hr]

/-- A record that has room goes to its drive, the log head past it. -/
theorem exec_ctxPut_goes {off k : Nat} (hr : ctxRoom u (eNs e.b) (64 + alignUp d.length 64) = some (v, off))
    (hy : nsOf v (eNs e.b) = some y) (hk : sget none y.units (off / unitBytes) = some k) {q : Nat × State}
    (hq : q = putPfmt v y (furOwner a f) (eCtx e.b)) {l : List Byte}
    (hl : l = ctxRecord 1 q.1 (furOwner a f) (eCtx e.b) (lef e.b 24 8 47 0) 64 y.seq d) {w : State}
    (hw : w = modNs q.2 (eNs e.b) (fun x => { x with seq := x.seq + 1, head := off + l.length })) :
    StoGoes (.ctxPut f i) s w e [(k / 2 ^ 24, off, l.length)] .write (fun _ => l)
      (some ⟨furOwner a f, eCtx e.b, lef e.b 24 8 47 0, y.seq, off, d.length, false, q.1⟩) (y.seq % 2 ^ 32) w := by
  refine stoGoes_of_stoIssue (s0 := q.2) (done := id) ?_ nofun
  change execCtxPut f i s = _
  rw [execCtxPut, h, keepQueue_of_next]
  simp only [hx]
  refine next_withQueue_congr (((if_neg (ne_true_of_eq_false hro)).trans (withData_ok srcStorage hm _)).trans ?_)
  simp only [hr, hy, hk]
  subst hq hl hw
  rfl

end

theorem exec_ctxGet_absent (h : StoRuns s f i 0x07 a e) (hr : ctxFind x (furOwner a f) (eCtx e.b) (lef e.b 24 8 47 0) = none) :
    exec (.ctxGet f i) s = .next (withQueue s (endEntry a f i 0x01 noResult)) := by
  change execCtxGet f i s = _
  simp only [execCtxGet, h _, hx, hr, keepQueue_of_next]
  rfl

section
variable (h : StoRuns s f i 0x07 a e) {r : CtxRec} (hr : ctxFind x (furOwner a f) (eCtx e.b) (lef e.b 24 8 47 0) = some r)
include h hr

theorem exec_ctxGet_refused (hb : r.tomb = true ∨ eCount e.b < r.len) :
    exec (.ctxGet f i) s = .next (withQueue s (endEntry a f i 0x01 noResult)) := by
  change execCtxGet f i s = _
  simp only [execCtxGet, h _, hx, hr, gt_iff_lt, if_pos hb, keepQueue_of_next]
  rfl

theorem exec_ctxGet_goes (hf : e.f = f) (ht : r.tomb = false) (hl : r.len ≤ eCount e.b) {l : List (Nat × Nat)}
    (hm : runMM a (writeTargets (ioOf e) (furOwner a f) (pagePieces (r.len / 4096 + 2) (eAddr e.b) r.len)) = (.ok l, u)) :
    StoGoes (.ctxGet f i) s u e (slabPieces x r.off (64 + r.len)) .read (fun _ => []) none r.seq (getDone u e x r.seq) := by
  have hb : ¬ (r.tomb = true ∨ r.len > eCount e.b) := by simp [ht, hl]
  refine stoGoes_of_stoIssue (done := fun t => getDone t e x r.seq) ?_ (fun _ => rfl)
  change execCtxGet f i s = _
  simp only [execCtxGet, h _, hx, hr, if_neg hb, keepQueue_of_next]
  rw [← hf] at hm
  exact next_withQueue_congr (withData_ok srcStorage hm _)

end

theorem exec_recover_goes (h : StoRuns s f i 0x84 a e) (hf : e.f = f) {l : List (Nat × Nat)}
    (hm : runMM a (writeTargets (ioOf e) (furOwner a f) (pagePieces (min (eCount e.b) 16 / 4096 + 2) (eAddr e.b) (min (eCount e.b) 16))) =
      (.ok l, u)) :
    StoGoes (.recover f i) s u e ((nsDrives x).map (fun d => (d, 0, 0))) .read (fun _ => []) none 0 (recoverDone u e x) := by
  refine stoGoes_of_stoIssue (done := fun t => recoverDone t e x) ?_ (fun _ => rfl)
  change execRecover f i s = _
  simp only [execRecover, h _, hx, keepQueue_of_next]
  rw [← hf] at hm
  exact next_withQueue_congr (withData_ok srcStorage hm _)

end

/-! ### Compaction (R352) -/

/-- A segment whose live records are few: they are copied to the log head, and the unit's slab goes back. -/
theorem exec_segmentCompaction_done {s v : State} {n : Fin 8193} {u : Fin 67108864} {x : Ns} (hx : nsOf s n = some x)
    (hc : x.ctx = true) (hi : x.indexed = true) (hro : x.ro = false) (hg : x.gone = false) (hu : (sget none x.units u).isSome = true)
    (hh : x.head / unitBytes ≠ u.val) (hb : 4 * (liveIn x u).foldl (fun a r => a + 64 + alignUp r.len 64) 0 < unitBytes)
    (hp : rd s f_CQS_PS_CUR = 0) (hr : (nsDrives x).all (drvReady s) = true) (hd : drvsFree s (nsDrives x) = true)
    (hq : s.sto.cmds.any (fun c => c.ns == n.val && (c.len == 0 || c.off / unitBytes == u.val)) = false)
    (hv : (liveIn x u).foldl (fun (o : Option State) r => o.bind (fun s => copyLive s n r)) (some s) = some v) :
    exec (.segmentCompaction n u) s = .next (withQueue s (freeUnit (modNs v n (fun y => { y with
      index := y.index.filter (fun r => r.off / unitBytes != u.val) })) n u)) := by
  have hun : (sget none x.units u).isNone = false := by simpa using hu
  have hhb : (x.head / unitBytes == u.val) = false := by simpa using hh
  have hbd : decide (4 * (liveIn x u).foldl (fun a r => a + 64 + alignUp r.len 64) 0 ≥ unitBytes) = false := by simpa using hb
  change execSegmentCompaction n u s = _
  simp only [execSegmentCompaction, hx, hc, hi, hro, hg, hun, hhb, hbd, hp, hr, hd, hq, hv, bne_self_eq_false, Bool.not_true, Bool.or_self,
    Bool.false_eq_true, if_false, keepQueue_of_next]

/-- Settles O46: each row runs on its started entry. -/
theorem storageContexts : Obligations.StorageContexts := by
  unfold Obligations.StorageContexts
  refine ⟨fun s f i e₀ hf hi => ⟨?log, ?restart, ?create, fun x hx => ⟨?delete, ?putReadOnly, ?put, ?get, ?recover⟩⟩, ?compact⟩
  case log => exact fun h u hm => exec_getLog_ends h.runs hm
  case restart =>
    refine fun h => ⟨fun hr => ⟨fun hm => exec_restartQueueResume_none h.runs hm hr, fun hm => exec_restartQueueDiscard_none h.runs hm hr⟩,
      fun g hr => ⟨fun hm => exec_restartQueueResume_some h.runs hm hr, fun hm hs x u k hx => ⟨?_, ?_, ?_⟩⟩⟩
    · exact exec_restartQueueDiscard_some h.runs hm hr hs hx
    · exact exec_restartQueueDiscard_some h.runs hm hr hs hx
    · exact exec_restartQueueDiscard_some h.runs hm hr hs hx
  case create => exact fun h => ⟨exec_nsCreate_full h.runs, fun hq n hn => exec_nsCreate_made h.runs hq hn⟩
  case delete => exact fun h hb => exec_nsDelete_goes hx h.runs hb
  case putReadOnly => exact fun h hro => exec_ctxPut_readOnly hx h.runs hro
  case put =>
    exact fun h hro d u hm => ⟨exec_ctxPut_noSpace hx h.runs hro hm,
      fun v off y k hr hy hk _ _ => exec_ctxPut_goes hx h.runs hro hm hr hy hk rfl rfl rfl⟩
  case get =>
    exact fun h => ⟨exec_ctxGet_absent hx h.runs, fun r hr =>
      ⟨exec_ctxGet_refused hx h.runs hr, fun ht hl l u hm => exec_ctxGet_goes hx h.runs hr (by simpa using hf) ht hl hm⟩⟩
  case recover => exact fun h l u hm => exec_recover_goes hx h.runs (by simpa using hf) hm
  case compact =>
    exact fun s v n u x hx hc hi hro hg hu hh hb hp hr hd hq hv => exec_segmentCompaction_done hx hc hi hro hg hu hh hb hp hr hd hq hv

end Sys2Proof.Machine
end

section
/-! The siphon's shards and manifests (O49). -/

namespace Sys2Proof.Machine

/-! ### Rows and accesses (R373) -/

/-- A computation after an access that succeeds. -/
theorem runMM_bind_ok {α β : Type} {s t : State} {x : MM α} {r : α} (h : runMM s x = (.ok r, t)) (k : α → MM β) :
    runMM s (x >>= k) = runMM t (k r) := by
  rw [runMM_bind, h]

/-- Accesses that succeed go on with what was read. -/
theorem sipData_ok {α : Type} {s u : State} {e : Entry} {x : MM α} {r : α} (h : runMM s x = (.ok r, u)) (k : α → State → State) :
    sipData s e x k = k r u := by
  simp only [sipData, h]
  exact withData_ok srcSiphon h k

/-- A row of opcode `op` runs on the entry `e` in the state `a`. -/
def SipRuns (s : State) (f i op : Nat) (a : State) (e : Entry) : Prop := ∀ k, sipRun f i op s k = k a e

/-- A row whose entry's turn it is runs on the started entry. -/
theorem InTurn.sipRuns {s : State} {f i op : Nat} {e : Entry} (h : InTurn s f i clSiphon op e) (hf : e.f = f) (hi : e.i = i) :
    SipRuns s f i op (modEntry s f i fetchStart) (fetchStart e) := by
  obtain ⟨hr, hb⟩ := h
  intro k
  rw [sipRun, runEntry_ready hr, if_neg (ne_true_of_eq_false hb), ← hf, ← hi]
  rfl

section
variable {s a u v : State} {f : Fin 262144} {i : Fin 65536} {e : Entry}

/-! ### SAVE (R374) -/

/-- The conversion of a SAVE's slice: codes, scales, flags. -/
def saveCodes (d l : List Byte) (x : Slice) (g : Fmt) : List Nat × List Nat × NumFlags :=
  if le d 11 1 = 0 then
    ((List.range x.vol).map (x.code l), if isMX x.fmt then (List.range (x.vol / 32)).map (fun k => x.scale l (32 * k)) else [], 0)
  else convertAll g ((List.range x.vol).map (fun k => (x.val l k, elemMode (le d 11 1 / 2) (le d 120 8) (le d 0 8) (x.coords k))))

section
variable (h : SipRuns s f i 1 a e)
include h

/-- Descriptor and slice are read: the sealed object goes to the store. -/
theorem exec_save_read (hst : e.stage = 0) {d : List Byte} {x : Slice} {g : Fmt} {l : List Byte}
    (hd : runMM a (readSp (ioOf e) (furOwner a f) (pDesc e.b) 128) = (.ok d, u)) (hx : saveDesc d = some (x, g))
    (hl : runMM u (readSp (ioOf e) (furOwner a f) (le d 112 8) (Slice.bytes x)) = (.ok l, v)) {z : List Byte × State}
    (hz : z = sliceBytes v { x with fmt := g, base := 0 } (saveCodes d l x g).1 (saveCodes d l x g).2.1) {obj : List Byte}
    (ho : obj = shardObject e.sipKey (shardHeader (pStep e.b) (pArg e.b) (le d 0 8) (le d 8 1) (le d 9 1) (le d 10 1) (le d 11 1)
      z.1.length) (pArg e.b) (pStep e.b) z.1) :
    exec (.save f i) s = .next (withQueue s (storeCmd (sipStage z.2 f i 0 .running (manifestEntry e.b d z.1.length (sha256 z.1) ++
      natLE 1 (saveCodes d l x g).2.2.toNat)) e (pTarget e.b) true (pLba e.b) (obj.length / 4096) obj)) := by
  have hn : ¬ e.stage = 1 := by omega
  change execSave f i s = _
  rw [execSave, h, keepQueue_of_next]
  refine next_withQueue_congr ((if_neg hn).trans ((sipData_ok (r := (d, some (x, g, l))) (u := v) ?_ _).trans ?_))
  · rw [runMM_bind_ok hd]
    simp only [hx]
    rw [runMM_bind_ok hl]
    rfl
  · subst hz ho
    rfl

/-- The blocks are at the store: the manifest entry is written. -/
theorem exec_save_stored (hst : e.stage = 1) (hw : runMM a (writeSp (ioOf e) (furOwner a f) (pEnt e.b) (e.staged.take 192)) = (.ok (), u)) :
    exec (.save f i) s = .next (withQueue s (endEntry (incF u f_SIP_CNT_SAVED_V 1) f i 0 (le e.staged 192 1))) := by
  change execSave f i s = _
  rw [execSave, h, keepQueue_of_next]
  exact next_withQueue_congr ((if_pos hst).trans (sipData_ok hw _))

end

/-! ### LOAD (R375) -/

section
variable (h : SipRuns s f i 2 a e)
include h

/-- A descriptor and a manifest entry that fit: the object is asked for. -/
theorem exec_load_read (hst : e.stage = 0) {d m : List Byte} {x y : Slice} {g : Fmt}
    (hd : runMM a (readSp (ioOf e) (furOwner a f) (pDesc e.b) 128) = (.ok d, u))
    (hm : runMM u (readSp (ioOf e) (furOwner a f) (pEnt e.b) 192) = (.ok m, v)) (hx : loadDesc d = some x) (hy : entrySlice m = some (y, g))
    (hfit : loadFits d m x y = true) :
    exec (.load f i) s = .next (withQueue s (storeCmd (sipStage v f i 0 .running (d ++ m)) e (le m 12 1) false (le m 16 8)
      (shardBlocks (le m 24 8)) [])) := by
  change execLoad f i s = _
  rw [execLoad, h, keepQueue_of_next]
  refine next_withQueue_congr ((if_pos hst).trans ((sipData_ok (r := (d, m)) (u := v) ?_ _).trans ?_))
  · rw [runMM_bind_ok hd, runMM_bind_ok hm]
    rfl
  · simp only [hx, hy, if_pos hfit]

section
variable (hst : e.stage ≠ 0) {x y : Slice} {g : Fmt} (hx : loadDesc (e.staged.take 128) = some x)
  (hy : entrySlice ((e.staged.drop 128).take 192) = some (y, g))
include hst hx hy

/-- An object that does not open: it is written to AUXADDR, and the entry ends with AUTH_FAIL. -/
theorem exec_load_sealed (ho : openShard e.sipKey ((e.staged.drop 128).take 192) (e.staged.drop 320) = none)
    (hw : runMM a (writeSp (ioOf e) (furOwner a f) (pAux e.b) (e.staged.drop 320)) = (.ok (), u)) :
    exec (.load f i) s = .next (withQueue s (endEntry (incF u f_SIP_CNT_AUTHFAIL_V 1) f i 0x06 noResult)) := by
  change execLoad f i s = _
  rw [execLoad, h, keepQueue_of_next]
  refine next_withQueue_congr ((if_neg hst).trans ?_)
  simp only [hx, hy, ho]
  exact sipData_ok hw _

/-- An object that opens: the intersection is written. -/
theorem exec_load_opened {pt : List Byte} {rows : List LoadRow} {fl : NumFlags}
    (ho : openShard e.sipKey ((e.staged.drop 128).take 192) (e.staged.drop 320) = some pt)
    (hr : loadRows a x y (le ((e.staged.drop 128).take 192) 11 1 == 0) pt = (rows, fl, v))
    (hw : runMM v (do
      writeSp (ioOf e) (furOwner a f) (pAux e.b) (e.staged.drop 320)
      rows.forM (fun r => do
        writeElems (ioOf e) (furOwner a f) (le (e.staged.take 128) 112 8) (fmtBits x.fmt) r.at_ r.codes
        r.scales.forM (fun k => writeSp (ioOf e) (furOwner a f) (le (e.staged.take 128) 112 8 + x.scales + k.1) (natLE 1 k.2)))) = (.ok (), u)) :
    exec (.load f i) s = .next (withQueue s (endEntry (incF u f_SIP_CNT_LOADED_V 1) f i 0 fl.toNat)) := by
  change execLoad f i s = _
  rw [execLoad, h, keepQueue_of_next]
  refine next_withQueue_congr ((if_neg hst).trans ?_)
  simp only [hx, hy, ho, hr]
  exact sipData_ok hw _

end
end

/-! ### Manifests (R377, R378) -/

section
variable (h : SipRuns s f i 3 a e)
include h

/-- The manifest is at the store: its token is written. -/
theorem exec_manWrite_stored (hst : e.stage = 1) (hw : runMM a (writeSp (ioOf e) (furOwner a f) (pEnt e.b) (e.staged.take 32)) = (.ok (), u)) :
    exec (.manWrite f i) s = .next (withQueue s (endEntry u f i 0 noResult)) := by
  change execManWrite f i s = _
  rw [execManWrite, h, keepQueue_of_next]
  exact next_withQueue_congr ((if_pos hst).trans (sipData_ok hw _))

/-- A manifest that holds goes to the store, with the interface version in it. -/
theorem exec_manWrite_read (hst : e.stage = 0) {d l : List Byte} (hd : runMM a (readSp (ioOf e) (furOwner a f) (pDesc e.b) 128) = (.ok d, u))
    (hok : manHeaderOk d = true) (hl : runMM u (readSp (ioOf e) (furOwner a f) (pDesc e.b) (manLen (nshards d))) = (.ok l, v))
    (hne : l ≠ []) (hen : manEntriesOk l = true) {m : List Byte} (hm : m = putAt l 40 (natLE 4 (fwif v))) :
    exec (.manWrite f i) s = .next (withQueue s (storeCmd (sipStage v f i 0 .running (sha256 m)) e (pTarget e.b) true (pLba e.b)
      ((toBlocks m).length / 4096) (toBlocks m))) := by
  have hn : ¬ e.stage = 1 := by omega
  have hb : ¬ (l.isEmpty || !manEntriesOk l) = true := by simp [hne, hen]
  change execManWrite f i s = _
  rw [execManWrite, h, keepQueue_of_next]
  refine next_withQueue_congr ((if_neg hn).trans ((sipData_ok (r := l) (u := v) ?_ _).trans ((if_neg hb).trans ?_)))
  · rw [runMM_bind_ok hd, if_pos hok, hl]
  · subst hm
    rfl

end

section
variable (h : SipRuns s f i 4 a e)
include h

/-- A MAN_READ asks for the header's block. -/
theorem exec_manRead_header (hst : e.stage = 0) :
    exec (.manRead f i) s = .next (withQueue s (storeCmd (sipStage a f i 0 .running []) e (pTarget e.b) false (pLba e.b) 1 [])) := by
  change execManRead f i s = _
  rw [execManRead, h, keepQueue_of_next]
  exact next_withQueue_congr (if_pos hst)

/-- The header says how much is asked for. -/
theorem exec_manRead_whole (hst : e.stage = 1) (ht : manTag e.staged = true) (hl : manLen (nshards e.staged) ≤ pArg e.b) :
    exec (.manRead f i) s = .next (withQueue s (storeCmd (sipStage a f i 1 .running e.staged) e (pTarget e.b) false (pLba e.b)
      ((manLen (nshards e.staged) + 4095) / 4096) [])) := by
  have hn : ¬ e.stage = 0 := by omega
  have hb : ¬ (!manTag e.staged || decide (pArg e.b < manLen (nshards e.staged))) = true := by simp [ht, hl]
  change execManRead f i s = _
  rw [execManRead, h, keepQueue_of_next]
  exact next_withQueue_congr ((if_neg hn).trans ((if_pos hst).trans (if_neg hb)))

section
variable (hst : 2 ≤ e.stage) {t : List Byte} (hw : runMM a (writeSp (ioOf e) (furOwner a f) (pAux e.b) e.staged) = (.ok (), u))
  (ht : runMM u (readSp (ioOf e) (furOwner a f) (pEnt e.b) 32) = (.ok t, v))
include hst hw ht

/-- The whole manifest has come: what its accesses give decides the end. -/
theorem exec_manRead_checked {ok : Bool} {w : State} (hr : runMM v (if sha256 (e.staged.take (manLen (nshards e.staged))) = t then do
      writeSp (ioOf e) (furOwner a f) (pDesc e.b) e.staged
      return true
    else return false) = (.ok ok, w)) :
    exec (.manRead f i) s = .next (withQueue s (if ok then endEntry w f i stOk (nshards e.staged)
      else endEntry (incF w f_SIP_CNT_AUTHFAIL_V 1) f i stAuth noResult)) := by
  have h0 : ¬ e.stage = 0 := by omega
  have h1 : ¬ e.stage = 1 := by omega
  change execManRead f i s = _
  rw [execManRead, h, keepQueue_of_next]
  refine next_withQueue_congr ((if_neg h0).trans ((if_neg h1).trans (sipData_ok ?_ _)))
  rw [runMM_bind_ok hw, runMM_bind_ok ht]
  exact hr

/-- The token holds: the manifest is written to DESCADDR. -/
theorem exec_manRead_holds {w : State} (he : sha256 (e.staged.take (manLen (nshards e.staged))) = t)
    (hp : runMM v (writeSp (ioOf e) (furOwner a f) (pDesc e.b) e.staged) = (.ok (), w)) :
    exec (.manRead f i) s = .next (withQueue s (endEntry w f i 0 (nshards e.staged))) := by
  refine exec_manRead_checked h hst hw ht (ok := true) ?_
  rw [if_pos he, runMM_bind_ok hp]
  rfl

/-- The token differs: AUTH_FAIL. -/
theorem exec_manRead_differs (he : sha256 (e.staged.take (manLen (nshards e.staged))) ≠ t) :
    exec (.manRead f i) s = .next (withQueue s (endEntry (incF v f_SIP_CNT_AUTHFAIL_V 1) f i 0x06 noResult)) := by
  refine exec_manRead_checked h hst hw ht (ok := false) ?_
  rw [if_neg he]
  rfl

end
end
end

/-- Settles O49: each row runs on its started entry, stage by stage. -/
theorem siphonShards : Obligations.SiphonShards := by
  unfold Obligations.SiphonShards
  intro s u v f i e₀ hf hi
  refine ⟨?save, ?saved, ?load, ?loaded, ?written, ?write, ?read⟩
  case save => exact fun h hst d x g l hd hx hl => exec_save_read (h.sipRuns hf hi) hst hd hx hl rfl rfl
  case saved => exact fun h hst hw => exec_save_stored (h.sipRuns hf hi) hst hw
  case load => exact fun h hst d m x y g hd hm hx hy hfit => exec_load_read (h.sipRuns hf hi) hst hd hm hx hy hfit
  case loaded =>
    exact fun h hst x y g hx hy => ⟨fun ho hw => exec_load_sealed (h.sipRuns hf hi) hst hx hy ho hw,
      fun pt rows fl ho hr hw => exec_load_opened (h.sipRuns hf hi) hst hx hy ho hr hw⟩
  case written => exact fun h hst hw => exec_manWrite_stored (h.sipRuns hf hi) hst hw
  case write => exact fun h hst d l hd hok hl hne hen => exec_manWrite_read (h.sipRuns hf hi) hst hd hok hl hne hen rfl
  case read =>
    exact fun h => ⟨exec_manRead_header (h.sipRuns hf hi), exec_manRead_whole (h.sipRuns hf hi), fun hst t w hw ht =>
      ⟨exec_manRead_holds (h.sipRuns hf hi) hst hw ht, exec_manRead_differs (h.sipRuns hf hi) hst hw ht⟩⟩

end Sys2Proof.Machine
end

section
/-! The store targets (O50). -/

namespace Sys2Proof.Machine

/-! ### Connections (R365–R367) -/

@[simp] theorem pinQueues_clk (s : State) (k n : Nat) : (pinQueues s k n).clk = s.clk := by
  rw [pinQueues]
  split <;> rfl

theorem exec_siphonEnable_open {s : State} (hb : barOpen s = true) :
    exec .siphonEnable s = .next (withQueue s ((List.range 16).foldl tryConnect (wr s f_SIP_CFG_EN 1))) := by
  change execSiphonEnable s = _
  simp only [execSiphonEnable, hb, Bool.not_true, Bool.false_eq_true, if_false, keepQueue_of_next]

/-- The ports of a target as its connection uses them: those it has while all are up, else new ones. -/
def pinnedPorts (s : State) (k n : Nat) : State :=
  if (pinsOf s k).all (fun p => (sipPorts s).contains p) && !(pinsOf s k).isEmpty then s else pinQueues s k n

@[simp] theorem pinnedPorts_clk (s : State) (k n : Nat) : (pinnedPorts s k n).clk = s.clk := by
  rw [pinnedPorts]
  split
  · rfl
  · exact pinQueues_clk s k n

section
variable {s : State} {k : Fin 16} {q : Fin 9} {l : List Byte} (hen : rd s f_SIP_CFG_EN = 1) (hl : targetEntry s k = some l)
include hen hl

/-- A target entry that is bad sets ERR. -/
theorem exec_storeConnectionOpen_bad (hb : targetBad s l = true) :
    exec (.storeConnectionOpen k q true) s = .next (wr s (f_SIP_TGTSTAT_ERR k) 1) := by
  have hn : ¬ rd s f_SIP_CFG_EN = 0 := by omega
  change execStoreConnectionOpen k q true s = _
  simp only [execStoreConnectionOpen, if_neg hn, hl, hb, Bool.true_or, if_true, keepQueue_of_next, withQueue_wr]

section
variable (hb : targetBad s l = false) (hp : (pinsOf (pinnedPorts s k (lef l 1 1 3 0)) k).isEmpty = false)
include hb hp

/-- A good target whose queues have ports counts those that are open. -/
theorem exec_storeConnectionOpen_good : exec (.storeConnectionOpen k q true) s = .next (withQueue s (
    let n := lef l 1 1 3 0
    let j := min q.val n
    let t := wr (wr (pinnedPorts s k n) (f_SIP_TGTSTAT_QUEUES k) j) (f_SIP_TGTSTAT_CONN k) (b2n (j == n))
    if j = n then setConn t k (some ⟨be l 4 16, le l 2 2, n, s.clk⟩) else t)) := by
  have hn : ¬ rd s f_SIP_CFG_EN = 0 := by omega
  change execStoreConnectionOpen k q true s = _
  rw [execStoreConnectionOpen, if_neg hn]
  simp only [hl, hb, Bool.not_true, Bool.or_self, Bool.false_eq_true, if_false]
  change keepQueue s (if (pinsOf (pinnedPorts s k (lef l 1 1 3 0)) k).isEmpty then _ else _) = _
  rw [if_neg (ne_true_of_eq_false hp), keepQueue_of_next]
  rw [← pinnedPorts_clk s k (lef l 1 1 3 0)]
  rfl

end
end

theorem exec_storeConnectionLoss_open {s : State} {k : Fin 16} {c : Conn} (hc : connOf s k = some c) :
    exec (.storeConnectionLoss k) s = .next (withQueue s (connLost s k)) := by
  have hn : ¬ (connOf s k).isNone = true := by simp [hc]
  change execStoreConnectionLoss k s = _
  simp only [execStoreConnectionLoss, if_neg hn, keepQueue_of_next]

/-! ### Commands (R367, R374) -/

theorem fetchStart_stage (e : Entry) : (fetchStart e).stage = e.stage := by
  cases h : e.snap <;> simp [fetchStart, Entry.stage, h]

theorem fetchStart_staged (e : Entry) : (fetchStart e).staged = e.staged := by
  simp [fetchStart, Entry.staged]

/-- A meaning run on a state with the same queue keeps that queue. -/
theorem keepQueue_keepQueue {s t : State} (h : t.pending = s.pending) (x : Ans) : keepQueue s (keepQueue t x) = keepQueue t x := by
  cases x <;> simp [keepQueue, h]

/-- The row that an entry runs once its target has read or written. -/
def sipNext (t : State) (f : Fin 262144) (i : Fin 65536) (e : Entry) (l : List Byte) : Ans :=
  match e.op with
  | 1 => execSave f i (sipStage t f i 1 .fetched e.staged)
  | 2 => execLoad f i (sipStage t f i 1 .fetched (e.staged ++ l))
  | 3 => execManWrite f i (sipStage t f i 1 .fetched e.staged)
  | _ => execManRead f i (sipStage t f i (e.stage + 1) .fetched l)

theorem keepQueue_sipNext {s t : State} (h : t.pending = s.pending) (f : Fin 262144) (i : Fin 65536) (e : Entry) (l : List Byte) :
    keepQueue s (sipNext t f i e l) = sipNext t f i e l := by
  unfold sipNext
  split
  · rw [execSave]; exact keepQueue_keepQueue (by exact h) _
  · rw [execLoad]; exact keepQueue_keepQueue (by exact h) _
  · rw [execManWrite]; exact keepQueue_keepQueue (by exact h) _
  · rw [execManRead]; exact keepQueue_keepQueue (by exact h) _

section
variable {s : State} {k : Fin 16} {id : BitVec 16} {c : StoreCmd}
  (hc : s.sip.cmds.find? (fun c => c.target == k.val && c.id == id.toNat) = some c)
include hc

theorem exec_storeCommandTimeout_late {e : Entry} (ht : c.at_ + 1000000 * rd s f_SIP_CFG_TMO < s.clk) (he : entryOf s c.f c.i = some e)
    (hne : e.ended = false) :
    exec (.storeCommandTimeout k id) s = .next (withQueue s (connLost (incF (endEntry s c.f c.i 0x10 noResult) f_SIP_CNT_TMO_V 1) k)) := by
  have hl : cmdLate s c = true := by simp [cmdLate, overdue, ht]
  have hk : c.target = k.val := by
    have h := List.find?_some hc
    simp only [Bool.and_eq_true, beq_iff_eq] at h
    exact h.1
  change execStoreCommandTimeout k id s = _
  simp only [execStoreCommandTimeout, hc, hl, if_true, keepQueue_of_next, cmdExpire, he, hne, Bool.false_eq_true, if_false, hk]
  rfl

/-- The state with a command off the list of those that a target has not ended. -/
def cmdTaken (s : State) (c : StoreCmd) : State := { s with sip := { s.sip with cmds := s.sip.cmds.erase c } }

section
variable (ht : s.clk ≤ c.at_ + 1000000 * rd s f_SIP_CFG_TMO) {d : List Byte} {e : Entry} {f : Fin 262144} {i : Fin 65536}
  (he : entryOf (cmdTaken s c) c.f c.i = some e) (hne : e.ended = false) (hf : c.f = f) (hi : c.i = i)
include ht he hne hf hi

theorem exec_storeTargetCompletion_failed {st : Fin 3} (hst : st ≠ 0) :
    exec (.storeTargetCompletion k id st d) s = .next (withQueue s (endEntry (cmdTaken s c) f i 0x0C noResult)) := by
  have hl : ¬ cmdLate s c = true := by simp [cmdLate, overdue, ht]
  have hv : st.val ≠ 0 := fun h => hst (Fin.ext h)
  change execStoreTargetCompletion k id st d s = _
  simp only [execStoreTargetCompletion, hc, if_neg hl]
  change keepQueue s (match entryOf (cmdTaken s c) c.f c.i with | none => _ | some e => _) = _
  rw [he]
  simp only [hne, Bool.false_eq_true, if_false, if_pos hv, hf, hi, keepQueue_of_next]
  rfl

/-- A success in time runs the entry's row at its next stage. -/
theorem exec_storeTargetCompletion_success :
    exec (.storeTargetCompletion k id 0 d) s = sipNext (cmdTaken s c) f i e (padTo (4096 * c.blocks) d) := by
  have hl : ¬ cmdLate s c = true := by simp [cmdLate, overdue, ht]
  have hf' : Fin.ofNat 262144 f.val = f := Fin.ofNat_val_eq_self f
  have hi' : Fin.ofNat 65536 i.val = i := Fin.ofNat_val_eq_self i
  have h0 : ¬ ((0 : Fin 3).val ≠ 0) := not_not_intro rfl
  change execStoreTargetCompletion k id 0 d s = _
  simp only [execStoreTargetCompletion, hc, if_neg hl]
  change keepQueue s (match entryOf (cmdTaken s c) c.f c.i with | none => _ | some e => _) = _
  rw [he]
  simp only [hne, Bool.false_eq_true, if_false, hf, hi, hf', hi', if_neg h0]
  exact keepQueue_sipNext rfl f i e _

end
end

/-! ### The statement -/

section
variable {s : State} {k : Fin 16} {q : Fin 9} {l : List Byte} (hen : rd s f_SIP_CFG_EN = 1) (hl : targetEntry s k = some l)
  (hb : targetBad s l = false) (hp : (pinsOf (pinnedPorts s k (lef l 1 1 3 0)) k).isEmpty = false)
include hen hl hb hp

/-- All its queues are open: the connection is. -/
theorem exec_storeConnectionOpen_all (hq : lef l 1 1 3 0 ≤ q.val) :
    exec (.storeConnectionOpen k q true) s = .next (withQueue s (setConn (wr (wr (pinnedPorts s k (lef l 1 1 3 0))
      (f_SIP_TGTSTAT_QUEUES k) (lef l 1 1 3 0)) (f_SIP_TGTSTAT_CONN k) 1) k (some ⟨be l 4 16, le l 2 2, lef l 1 1 3 0, s.clk⟩))) := by
  rw [exec_storeConnectionOpen_good hen hl hb hp]
  simp only [Nat.min_eq_right hq, if_true, beq_self_eq_true]
  rfl

/-- Some of its queues are open: the connection is not. -/
theorem exec_storeConnectionOpen_some (hq : q.val < lef l 1 1 3 0) :
    exec (.storeConnectionOpen k q true) s = .next (withQueue s (wr (wr (pinnedPorts s k (lef l 1 1 3 0))
      (f_SIP_TGTSTAT_QUEUES k) q) (f_SIP_TGTSTAT_CONN k) 0)) := by
  have hne : ¬ q.val = lef l 1 1 3 0 := by omega
  have hbf : (q.val == lef l 1 1 3 0) = false := by simpa using hne
  rw [exec_storeConnectionOpen_good hen hl hb hp]
  simp only [Nat.min_eq_left hq.le, if_neg hne, hbf]
  rfl

end

/-- Settles O50: connections open and close by their rows, and a completion runs the entry's row at its next stage. -/
theorem siphonTargets : Obligations.SiphonTargets := by
  unfold Obligations.SiphonTargets
  refine ⟨fun s => ⟨exec_siphonEnable_open, ?keepAlive⟩, ?opened, fun s k c hc => exec_storeConnectionLoss_open hc,
    fun s k id c hc => ⟨fun e => exec_storeCommandTimeout_late hc, ?complete⟩⟩
  case keepAlive =>
    change execKeepAlive s = _
    rw [execKeepAlive, keepQueue_of_next]
  case opened =>
    exact fun s k q l hen hl => ⟨exec_storeConnectionOpen_bad hen hl, fun hb hp =>
      ⟨exec_storeConnectionOpen_all hen hl hb hp, exec_storeConnectionOpen_some hen hl hb hp⟩⟩
  case complete =>
    intro ht t d e f i he hne hf hi
    have hs := exec_storeTargetCompletion_success (d := d) hc ht he hne hf hi
    refine ⟨fun st hst => exec_storeTargetCompletion_failed hc ht he hne hf hi hst, fun h1 => ?_, fun h2 => ?_, fun h3 => ?_, fun h4 => ?_⟩
    · rw [hs, sipNext, h1]
      rfl
    · rw [hs, sipNext, h2]
      rfl
    · rw [hs, sipNext, h3]
      rfl
    · have hr : exec (.storeTargetCompletion k id 0 d) s = exec (.manRead f i)
          (sipStage t f i (e.stage + 1) .fetched (padTo (4096 * c.blocks) d)) := by
        rw [hs, sipNext, h4]
        rfl
      refine ⟨hr, fun x hx hxf hxi _ hst hl htag hlen => ?_⟩
      have hsl : (fetchStart x).staged = padTo (4096 * c.blocks) d := by rw [fetchStart_staged, hl]
      rw [hr, exec_manRead_whole (hx.sipRuns hxf hxi) (by rw [fetchStart_stage, hst]) (by rw [hsl, htag]) (by rw [hsl]; exact hlen), hsl]
      rfl

end Sys2Proof.Machine
end

section
/-! Turnout migration (O51). -/

namespace Sys2Proof.Machine

/-! ### TRN_SAVE (R379, R380) -/

/-- A TRN_SAVE of an active turnout without a page beyond HBM freezes the turnout's furrows and begins to drain. -/
theorem exec_trnSave_begins {s : State} {f : Fin 262144} {i : Fin 65536} {e : Entry} (h : EntryReady s f i clSiphon 8 e)
    (hne : e.ended = false) (ho : s.sip.op = none) (ht : turnActive s (pArg e.b) = true) (h2 : hasTier s (pArg e.b) 2 = false) :
    exec (.trnSave f i) s = .next (withQueue s (
      let u := wr (wr (freezeFurs s (fun _ x => x.owner == pArg e.b)) f_SIP_TSTAT_PHASE 1) f_SIP_TSTAT_TURNOUT (pArg e.b)
      modEntry { u with sip := { u.sip with
        op := some ⟨f, i, pArg e.b, s.clk, ((fursOf s (pArg e.b)).filter (fun p => p.2.enabled)).map Prod.fst⟩ } } f i
        (fun e => { e with ph := .running }))) := by
  obtain ⟨he, hp, hc, hop⟩ := h
  have hn : ¬ (furClass s f ≠ clSiphon ∨ e.op ≠ 8 ∨ e.ended = true) := by simp [hc, hop, hne]
  have hp' : ¬ e.ph ≠ .fetched := not_not_intro hp
  have ht' : ¬ (turnActive s (pArg e.b) = false ∨ hasTier s (pArg e.b) 2 = true) := by simp [ht, h2]
  change execTrnSave f i s = _
  simp only [execTrnSave, he, if_neg hn, ho, if_neg hp', if_neg ht', keepQueue_of_next]
  rfl

section
variable {s : State} {f : Fin 262144} {i : Fin 65536} {e : Entry} (he : entryOf s f i = some e)
  (hn : ¬ (furClass s f ≠ clSiphon ∨ e.op ≠ 8 ∨ e.ended = true)) {o : TurnOp} (ho : s.sip.op = some o) (hof : ¬ (o.f ≠ f ∨ o.i ≠ i))
include he hn ho hof

theorem exec_trnSave_frozen (hp : sipPhase s = 1) : exec (.trnSave f i) s = .next (wr s f_SIP_TSTAT_PHASE 2) := by
  change execTrnSave f i s = _
  simp only [execTrnSave, he, if_neg hn, ho, if_neg hof, hp, keepQueue_of_next, withQueue_wr]

theorem exec_trnSave_drained (hp : sipPhase s = 2) (hi : inFlight s o.t = false) :
    exec (.trnSave f i) s = .next (withQueue s (saveHalt s o)) := by
  change execTrnSave f i s = _
  simp only [execTrnSave, he, if_neg hn, ho, if_neg hof, hp, hi, Bool.false_eq_true, if_false, keepQueue_of_next]

/-- The cells have halted: the image is written, and the save ends. -/
theorem exec_trnSave_written (hp : 2 < sipPhase s) {u v w x y : State} (hu : u = (cellsOf s o.t).foldl (fun s c => modCell s c saveCell) s)
    (hall : (cellsOf u o.t).all (fun c => cellSaved (cellOf u c)) = true) {n : Nat} {units : Nat} (hw : freshBelow u (2 ^ 20) = (n, w))
    (hn1 : n + 1 = units) (hv : moveAll w o.t = some v) {bytes img : List Byte} (hx : freshBytes v (4096 * units) = (bytes, x))
    (himg : img = putAt bytes 0 ([0x53, 0x4B, 0x54, 0x49] ++ natLE 2 1)) (hy : runMM x (writeSp (ioOf e) 0x201 (pDesc e.b) img) = (.ok (), y)) :
    exec (.trnSave f i) s = .next (withQueue s (saveEnd { y with sip := { y.sip with
      images := y.sip.images ++ [(img, turnImage w o.t units)] } } o 0 units (bit (le e.b 18 1) 0))) := by
  obtain ⟨m, hm⟩ : ∃ m, sipPhase s = m + 3 := ⟨sipPhase s - 3, by omega⟩
  have hall' : ¬ (!(cellsOf u o.t).all (fun c => cellSaved (cellOf u c))) = true := by simp [hall]
  subst hu himg
  change execTrnSave f i s = _
  rw [execTrnSave, he]
  refine (congrArg (keepQueue s) ((if_neg hn).trans ?_)).trans (keepQueue_of_next s _)
  rw [ho]
  refine (if_neg hof).trans ?_
  rw [hm]
  refine (if_neg hall').trans ?_
  rw [hw]
  -- the number of units becomes a variable before the rest is rewritten: the checker would unfold a successor
  change (match moveAll w o.t with | none => _ | some s => _) = _
  rw [hn1]
  simp only [hv, hx, hy]
  rfl

end

/-! ### TRN_RESTORE (R381) -/

/-- An image that the device did not write, and that fits, is put back; the cells stay halted. -/
theorem exec_trnRestore_put {s u : State} {f : Fin 262144} {i : Fin 65536} {e : Entry} {a : State} (h : SipRuns s f i 9 a e) {c : TurnImage}
    {l : List Byte} (hm : runMM a (readSp (ioOf e) 0x201 (pDesc e.b) (4096 * c.units)) = (.ok l, u))
    (hl : u.sip.images.find? (fun p => p.1 == l) = none)
    (hok : ¬ (turnActive u (pArg e.b) = false ∨ fwif u < c.fwif ∨ c.digest = false ∨ (!(fursOf u (pArg e.b)).isEmpty) = true ∨
      (!(ctxsOf u (pArg e.b)).isEmpty) = true ∨ winCount u (pArg e.b) ≠ 0))
    (hfit : ¬ ((quotaOf u (pArg e.b)).furrows < c.furs.length ∨ (quotaOf u (pArg e.b)).contexts < c.ctxs.length ∨
      (quotaOf u (pArg e.b)).windows < c.wins.length ∨ (cellsOf u (pArg e.b)).length < c.cells.length)) :
    let t := pArg e.b
    let a := c.furs.foldl (putFurImg t) (wr (wr u f_SIP_TSTAT_PHASE 4) f_SIP_TSTAT_TURNOUT t)
    let b := c.ctxs.foldl (putCtxImg t) { a with lat := { a.lat with wins := a.lat.wins ++ c.wins.map (fun w => { w with t := t }) } }
    let d := ((cellsOf u t).zip c.cells).foldl (fun s p => putCellImg t s p.1 p.2) b
    let g := ((cellsOf u t).drop c.cells.length).foldl (fun s c => modCell s c saveCell) d
    exec (.trnRestore f i c) s = .next (withQueue s (endEntry (wr { g with sip := { g.sip with halted := some t } } f_SIP_TSTAT_PHASE 5) f i 0
      noResult)) := by
  change execTrnRestore f i c s = _
  rw [execTrnRestore, h, keepQueue_of_next]
  refine next_withQueue_congr ((sipData_ok hm _).trans ?_)
  simp only [hl, Option.map_none, Option.getD_none, if_neg hok, if_neg hfit]
  rfl

/-! ### The drain deadline and GO (R379, R381) -/

theorem exec_drainDeadline_over {s : State} {o : TurnOp} (ho : s.sip.op = some o) (hp : sipPhase s = 1 ∨ sipPhase s = 2)
    (ht : o.at_ + 50000000 < s.clk) :
    exec .drainDeadline s = .next (withQueue s (saveHalt (endAll s (fun e => furOwner s e.f == o.t) 0x0E) o)) := by
  have hn : ¬ ((sipPhase s ≠ 1 ∧ sipPhase s ≠ 2) ∨ overdue s (o.at_ + 50000000) = false) := by
    simp only [overdue, decide_eq_false_iff_not]
    omega
  change execDrainDeadline s = _
  rw [execDrainDeadline, keepQueue_of_next]
  simp only [drainEnd, ho, if_neg hn]
  rfl

section
variable {s : State} (hb : barOpen s = true)
include hb

theorem exec_turnoutGo_halted {t : Nat} (hp : sipPhase s = 5) (hh : s.sip.halted = some t) :
    exec .turnoutGo s = .next (withQueue s (
      let u := (cellsOf s t).foldl freeCell s
      wr { u with sip := { u.sip with halted := none } } f_SIP_TSTAT_PHASE 0)) := by
  have hn : ¬ sipPhase s ≠ 5 := not_not_intro hp
  change execTurnoutGo s = _
  simp only [execTurnoutGo, hb, Bool.not_true, Bool.false_eq_true, if_false, if_neg hn, hh, keepQueue_of_next]

theorem exec_turnoutGo_ignored (hp : sipPhase s ≠ 5) : exec .turnoutGo s = .next (withQueue s (writeIgnored s)) := by
  change execTurnoutGo s = _
  simp only [execTurnoutGo, hb, Bool.not_true, Bool.false_eq_true, if_false, if_pos hp, keepQueue_of_next]

end

/-- Settles O51: one lemma for each phase of a save, one for the restore, and one for each of the deadline and GO. -/
theorem siphonTurnouts : Obligations.SiphonTurnouts := by
  unfold Obligations.SiphonTurnouts
  refine ⟨fun s f i e => ⟨?begins, ?goes, ?restore⟩, fun s o ho hp ht => exec_drainDeadline_over ho hp ht,
    fun s hb => ⟨fun t hp hh => exec_turnoutGo_halted hb hp hh, exec_turnoutGo_ignored hb⟩⟩
  case begins => exact fun h hne ho ht h2 => exec_trnSave_begins h hne ho ht h2
  case goes =>
    intro he hc hop hne o ho hf hi
    have hn : ¬ (furClass s f ≠ clSiphon ∨ e.op ≠ 8 ∨ e.ended = true) := by simp [hc, hop, hne]
    have hof : ¬ (o.f ≠ f ∨ o.i ≠ i) := by simp [hf, hi]
    refine ⟨exec_trnSave_frozen he hn ho hof, exec_trnSave_drained he hn ho hof, fun hp u hu hall n w hw v hv bytes x hx => ?_⟩
    exact fun y hy => exec_trnSave_written he hn ho hof hp hu hall hw rfl hv hx rfl hy
  case restore =>
    intro h hf hi c u l hm t hl ht hv hdig hfurs hctxs hwins hqf hqc hqw hcells
    refine exec_trnRestore_put (h.sipRuns hf hi) hm hl ?_ ?_
    · change ¬ (turnActive u t = false ∨ fwif u < c.fwif ∨ c.digest = false ∨ (!(fursOf u t).isEmpty) = true ∨
        (!(ctxsOf u t).isEmpty) = true ∨ winCount u t ≠ 0)
      simp [ht, hdig, hfurs, hctxs, hwins, hv]
    · change ¬ ((quotaOf u t).furrows < c.furs.length ∨ (quotaOf u t).contexts < c.ctxs.length ∨
        (quotaOf u t).windows < c.wins.length ∨ (cellsOf u t).length < c.cells.length)
      omega

end Sys2Proof.Machine
end

section
/-! The machine right after power-on reset (O5). -/

namespace Sys2Proof.Machine

/-- The reservoir reads zeros after power-on reset. -/
theorem memByte_reset_reservoir {a : Nat} (h1 : 0x100_0000_0000 ≤ a) (h2 : a < 0x101_0000_0000) : memByte State.reset a = 0 := by
  simp only [memByte, areaOf_reservoir h1 h2]
  rfl

/-- A core after power-on reset is in supervisor mode, with interrupts off, in no trap. -/
theorem status_reset : userMode KCore.reset = false ∧ ie KCore.reset = false ∧ exl KCore.reset = false := by decide

/-- Its general registers read zero. -/
theorem gReg_reset (r : BitVec 5) : gReg KCore.reset r = 0 := ite_self _

/-- Settles O5: the stores of the reset state are empty, and the named registers are read from the register table. -/
theorem resetState : Obligations.ResetState := by
  unfold Obligations.ResetState
  obtain ⟨hu, hi, hx⟩ := status_reset
  refine ⟨by decide +kernel, by decide +kernel,
    fun c => ⟨rfl, rfl, hu, hi, hx, rfl, rfl, rfl, gReg_reset, fun k => ⟨rfl, rfl⟩⟩,
    reset_mem_wf, fun a => memByte_reset_reservoir (by omega) (by omega), fun f => rfl, rfl, fun t id => rfl, rfl, fun k => ⟨rfl, rfl⟩,
    by decide +kernel, by decide +kernel, by decide +kernel, by decide +kernel, by decide +kernel, by decide +kernel⟩

end Sys2Proof.Machine
end

section
/-! Kiben words: what the decoder makes of an encoded instruction and of words of the tables (O6, O7). -/

namespace Sys2Proof.Machine

/-! ### Fields of concatenations

The library's rules, stated so that `simp` also finds them where the width of the word is a literal. -/

@[simp] theorem extractLsb'_append_high {v w lo n : Nat} {x : BitVec v} {y : BitVec w} (h : w ≤ lo) :
    (no_index (x ++ y)).extractLsb' lo n = x.extractLsb' (lo - w) n := BitVec.extractLsb'_append_eq_of_le h

@[simp] theorem extractLsb'_append_low {v w lo n : Nat} {x : BitVec v} {y : BitVec w} (h : lo + n ≤ w) :
    (no_index (x ++ y)).extractLsb' lo n = y.extractLsb' lo n := BitVec.extractLsb'_append_eq_of_add_le h

/-! ### The coprocessors (R145, R154, R198, R205) -/

theorem decCP0_encCP0 {o : CP0Op} (h : cp0Ok o = true) : decCP0 (encCP0 o) = .ok (.cp0 o) := by
  cases o <;> simp_all [cp0Ok, decCP0, encCP0, fmtCP, kChk, -BitVec.extractLsb'_toNat]

/-- The three-register operations have minor opcodes of their own. -/
theorem vbinOfMinor_vbinMinor (op : VBinOp) : vbinOfMinor (vbinMinor op).toNat = some op := by cases op <;> rfl

theorem decCP1_encCP1 {o : CP1Op} (h : cp1Ok o = true) : decCP1 (encCP1 o) = .ok (.cp1 o) := by
  cases o with
  | vbin op d a b m =>
    have hm : op = .vsel → m.mu = 1#1 := by simp_all [cp1Ok, imp_iff_not_or]
    simp_all [cp1Ok, decCP1, encCP1, fmtV, vmBits, kChk, vbinOfMinor_vbinMinor]
  | _ => simp_all [cp1Ok, decCP1, encCP1, fmtV, vmBits, kChk, vbinOfMinor, -BitVec.extractLsb'_toNat]

theorem decCP2_encCP2 {o : CP2Op} (h : kOk (.cp2 o) = true) : decCP2 (encCP2 o) = .ok (.cp2 o) := by
  cases o <;> simp_all [kOk, decCP2, encCP2, fmtCP, kChk, -BitVec.extractLsb'_toNat]

theorem decCP3_encCP3 (o : CP3Op) : decCP3 (encCP3 o) = .ok (.cp3 o) := by
  cases o <;> simp [decCP3, encCP3, fmtCP, kChk, -BitVec.extractLsb'_toNat]

theorem encCP0_major (o : CP0Op) : (encCP0 o).extractLsb' 26 6 = 0x38#6 := by
  cases o <;> simp [encCP0, fmtCP]

theorem encCP1_major (o : CP1Op) : (encCP1 o).extractLsb' 26 6 = 0x39#6 := by
  cases o <;> simp [encCP1, fmtV]

theorem encCP2_major (o : CP2Op) : (encCP2 o).extractLsb' 26 6 = 0x3A#6 := by
  cases o <;> simp [encCP2, fmtCP]

theorem encCP3_major (o : CP3Op) : (encCP3 o).extractLsb' 26 6 = 0x3B#6 := by
  cases o <;> simp [encCP3, fmtCP]

/-! ### The core's own instructions (R98–R101) -/

/-- The operations of the ALU group have funct values of their own. -/
theorem aluOfFunct_aluFunct (op : AluOp) : aluOfFunct (aluFunct op) = some op := by cases op <;> rfl

theorem kDecode_alu (op : AluOp) (d a b : BitVec 5) : kDecode (kEncode (.alu op d a b)) = .ok (.alu op d a b) := by
  simp [kDecode, decAlu, kEncode, fmtR, kChk, aluOfFunct_aluFunct]

theorem kDecode_cmp (a b : BitVec 5) : kDecode (kEncode (.cmp a b)) = .ok (.cmp a b) := by
  simp [kDecode, decAlu, kEncode, fmtR, kChk, aluOfFunct]

/-- CSEL, whose condition may be reserved (R104, R126). -/
theorem kDecode_csel (c : BitVec 4) (d a b : BitVec 5) :
    kDecode (kEncode (.csel c d a b)) = if condOk c then .ok (.csel c d a b) else .ill 3 := by
  cases h : condOk c <;> simp [kDecode, decAlu, kEncode, fmtR, kChk, aluOfFunct, h]

/-- BC, whose condition may be reserved (R104, R126). -/
theorem kDecode_bc (c : BitVec 4) (o : BitVec 22) : kDecode (kEncode (.bc c o)) = if condOk c then .ok (.bc c o) else .ill 3 := by
  cases h : condOk c <;> simp [kDecode, kEncode, kChk, h]

/-- Every instruction of defined fields is read back from its word. -/
theorem kDecode_kEncode {i : KInstr} (h : kOk i = true) : kDecode (kEncode i) = .ok i := by
  cases i with
  | alu op d a b => exact kDecode_alu op d a b
  | cmp a b => exact kDecode_cmp a b
  | csel c d a b => exact (kDecode_csel c d a b).trans (if_pos h)
  | bc c o => exact (kDecode_bc c o).trans (if_pos h)
  | eret => rfl
  | park => rfl
  | load op => cases op <;> simp [kDecode, kEncode, loadMajor, fmtI, -BitVec.extractLsb'_toNat]
  | store op => cases op <;> simp [kDecode, kEncode, storeMajor, fmtI, -BitVec.extractLsb'_toNat]
  | cp0 o => simp [kDecode, kEncode, encCP0_major, decCP0_encCP0 h]
  | cp1 o => simp [kDecode, kEncode, encCP1_major, decCP1_encCP1 h]
  | cp2 o => simp [kDecode, kEncode, encCP2_major, decCP2_encCP2 h]
  | cp3 o => simp [kDecode, kEncode, encCP3_major, decCP3_encCP3]
  | _ => simp_all [kDecode, kOk, kEncode, fmtI, fmtSys, decSys, kChk, -BitVec.extractLsb'_toNat]

/-- Settles O6: the instructions by groups; the coprocessors' words have majors and decoders of their own. -/
theorem kibenDecodeEncode : Obligations.KibenDecodeEncode := by
  unfold Obligations.KibenDecodeEncode
  exact fun i h => kDecode_kEncode h

/-- Settles O7: each word is decoded by computation. -/
theorem kibenWords : Obligations.KibenWords := by
  unfold Obligations.KibenWords
  exact ⟨rfl, rfl, rfl, rfl, rfl, rfl, rfl, rfl, rfl⟩

end Sys2Proof.Machine
end

section
/-! What an instruction of a ready core answers, by the way in which it ends. -/

namespace Sys2Proof.Machine

/-- A trap without an event of its own, with EXL = 1, is a double trap (R125). -/
theorem takeTrap_of_exl {s : State} {c code : Nat} (hr : cellInReset s c = false) (hx : exl (coreOf s c) = true)
    (ho : ownEvent code = false) (sub : Nat) (tval epc : Word) : takeTrap s c code sub tval epc = stopOn s c code := by
  simp only [takeTrap, ho, trapAt, hr, hx, Bool.false_eq_true, if_false, if_true, stopOn]

section
variable {s : State} {c : Nat} (h : Ready s c) {body : State → Cell → State × KOut}
include h

/-- A body that leaves the state outside its cell alone decides by its outcome. -/
theorem Ready.issue_eq {o : KOut} (hb : body s (cellOf s c) = (s, o)) : issue s c body = finish s c o := by
  rw [issue_ready h, hb]
  exact if_neg (by simp [h.notInReset])

theorem Ready.answer_seqCell {x : Cell} (hb : body s (cellOf s c) = (s, .seq x)) : keepQueue s (.next (issue s c body)) =
    .next (setCell s c (boundary { x with k := { nextPc x.k with run := .running } })) := by rw [h.issue_eq hb]; rfl

theorem Ready.answer_seq {k : KCore} (hb : body s (cellOf s c) = (s, .seq { cellOf s c with k := k })) :
    keepQueue s (.next (issue s c body)) = .next (seqTo s c k) := by rw [h.issue_eq hb]; rfl

theorem Ready.answer_jump {k : KCore} {t : Word} {ends : Bool}
    (hb : body s (cellOf s c) = (s, .jump { cellOf s c with k := k } t ends)) :
    keepQueue s (.next (issue s c body)) = .next (jumpTo s c (if ends then leaveLoops k t else k) t) := by
  rw [h.issue_eq hb]
  rfl

theorem Ready.answer_hold {x : Cell} (hb : body s (cellOf s c) = (s, .hold x)) :
    keepQueue s (.next (issue s c body)) = .next (setCell s c x) := by rw [h.issue_eq hb]; rfl

section
variable {code : Nat} (ho : ownEvent code = false) {sub : Nat} {tval : Word}
  (hb : body s (cellOf s c) = (s, .trap code sub tval))
include ho hb

/-- With EXL = 0 a trap is taken (R121). -/
theorem Ready.answer_trap (hx : exl (coreOf s c) = false) :
    keepQueue s (.next (issue s c body)) = .next (trapTo s c (coreOf s c) code sub tval (coreOf s c).pc) := by
  rw [h.issue_eq hb, finish, takeTrap_of_not_exl h.notInReset hx ho, keepQueue_of_next, withQueue_same (trapTo_pending ..)]

/-- With EXL = 1 a trap is a double trap (R125). -/
theorem Ready.answer_doubleTrap (hx : exl (coreOf s c) = true) :
    keepQueue s (.next (issue s c body)) = .next (withQueue s (stopOn s c code)) := by
  rw [h.issue_eq hb, finish, takeTrap_of_exl h.notInReset hx ho, keepQueue_of_next]

end

end

end Sys2Proof.Machine
end

section
/-! Conditions, branches and jumps (O8, O11). -/

namespace Sys2Proof.Machine

/-! ### Conditions (R104, R126) -/

/-- The reserved condition codes. -/
theorem condOk_eq_false {k : BitVec 4} (hk : k = 0xE ∨ k = 0xF) : condOk k = false := by rcases hk with rfl | rfl <;> rfl

/-- Each odd code is the inverse of the even code below it. -/
theorem condHolds_odd {k : BitVec 4} (hk : condOk k = true) (ho : k.getLsbD 0 = true) (f : BitVec 4) :
    condHolds k f = !condHolds (k - 1) f := by
  revert k f
  decide

/-- A word offset from the instruction's own address, in numbers (R106). -/
theorem target_eq {w : Nat} (pc : Word) (o : BitVec w) : target pc (o.signExtend 32) = BitVec.ofInt 32 (pc.toInt + 4 * o.toInt) := by
  rw [BitVec.ofInt_add, BitVec.ofInt_mul, BitVec.ofInt_toInt]
  rfl

section
variable {s : State} {c : Fin 256} (h : Ready s c) {cond : BitVec 4}
include h

theorem Ready.exec_csel (hc : condOk cond = true) (d a b : BitVec 5) : exec (.csel c cond d a b) s =
    .next (seqTo s c (setG (coreOf s c) d (if condHolds cond (coreOf s c).flags then gReg (coreOf s c) a else gReg (coreOf s c) b))) := by
  refine h.answer_seq ?_
  simp only [legal, kOk, hc, if_true]

theorem Ready.exec_bc (hc : condOk cond = true) (o : BitVec 22) {t : Word}
    (ht : t = BitVec.ofInt 32 ((coreOf s c).pc.toInt + 4 * o.toInt)) : exec (.bc c cond o) s =
    .next (if condHolds cond (coreOf s c).flags then jumpTo s c (leaveLoops (coreOf s c) t) t else seqTo s c (coreOf s c)) := by
  rw [← target_eq] at ht
  subst ht
  split
  · next hh => exact h.answer_jump (k := coreOf s c) (ends := true) (by simp only [legal, kOk, hc, hh, if_true])
  · next hh => exact h.answer_seq (k := coreOf s c) (by simp only [legal, kOk, hc, hh, if_true]; rfl)

end

/-- The outcome of a word with a reserved condition. -/
theorem legal_reserved {i : KInstr} (hi : kOk i = false) (o : KOut) : legal i o = .trap 0x01 3 (kEncode i) := by
  rw [legal, hi]
  rfl

/-- Settles O8: the table by its sixteen flag values, the words by the decoder, the instructions by their outcomes. -/
theorem conditions : Obligations.Conditions := by
  unfold Obligations.Conditions
  refine ⟨fun f => ?table, fun d a b o k hk => ?words, fun s c d a b o k h hc => ⟨h.exec_bc hc o rfl, h.exec_csel hc d a b⟩,
    fun s c d a b o k h hk => ?reserved⟩
  case table =>
    intro n z c v
    refine ⟨?_, ?_, ?_, ?_, ?_, ?_, ?_, ?_, ?_, ?_, ?_, ?_, ?_, ?_, fun k hk ho => condHolds_odd hk ho f⟩
    all_goals revert f; decide
  case words => simp [kDecode_bc, kDecode_csel, condOk_eq_false hk]
  case reserved =>
    have hbc : kOk (.bc k o) = false := condOk_eq_false hk
    have hcs : kOk (.csel k d a b) = false := condOk_eq_false hk
    have hb (i : KInstr) (hi : kOk i = false) (u : KOut) := congrArg (Prod.mk s) (legal_reserved hi u)
    exact ⟨fun hx => ⟨h.answer_trap rfl (hb _ hbc _) hx, h.answer_trap rfl (hb _ hcs _) hx⟩,
      fun hx => ⟨h.answer_doubleTrap rfl (hb _ hbc _) hx, h.answer_doubleTrap rfl (hb _ hcs _) hx⟩⟩

/-! ### Jumps (R106, R110) -/

/-- JALR to an aligned target; with g0 as its destination it ends the loops that it leaves. -/
theorem Ready.exec_jalr {s : State} {c : Fin 256} (h : Ready s c) {d a : BitVec 5} {i : BitVec 16} {k : KCore} (hk : coreOf s c = k)
    {t : Word} (ht : gReg k a + i.signExtend 32 = t) (h4 : 4 ∣ t.toNat) :
    exec (.jalr c d a i) s = .next (jumpTo s c (if d = 0 then leaveLoops k t else setG k d (k.pc + 4)) t) := by
  subst hk ht
  have hj : exec (.jalr c d a i) s = _ := h.answer_jump (k := setG (coreOf s c) d ((coreOf s c).pc + 4)) (ends := d == 0)
    (congrArg (Prod.mk s) (if_neg (not_not_intro (Nat.mod_eq_zero_of_dvd h4))))
  rcases eq_or_ne d 0 with rfl | hd
  · exact hj
  · rw [if_neg (by simpa using hd)] at hj
    rw [if_neg hd]
    exact hj

/-- Settles O11: each outcome of a branch or jump, with the target in numbers. -/
theorem coreBranches : Obligations.CoreBranches := by
  unfold Obligations.CoreBranches
  intro s c cond o22 o26 d a i h k t u r
  have misaligned (hr : ¬ 4 ∣ r.toNat) : r.toNat % 4 ≠ 0 := mt Nat.dvd_of_mod_eq_zero hr
  have hu : u = target k.pc (o26.signExtend 32) := (target_eq ..).symm
  rw [hu]
  exact ⟨fun hc => h.exec_bc hc o22 rfl, h.answer_jump (k := k) (ends := true) rfl,
    h.answer_jump (k := setG k 31 (k.pc + 4)) (ends := false) rfl, h.exec_jalr rfl rfl,
    fun hr hx => h.answer_trap rfl (congrArg (Prod.mk s) (if_pos (misaligned hr))) hx,
    fun hr hx => h.answer_doubleTrap rfl (congrArg (Prod.mk s) (if_pos (misaligned hr))) hx, rfl⟩

end Sys2Proof.Machine
end

section
/-! Arithmetic, logic, shifts and divisions (O9, O10). -/

namespace Sys2Proof.Machine

/-! ### Operations of the ALU, on a core that is ready -/

section
variable {s : State} {c : Nat} (h : Ready s c) {op : AluOp} {d a b : BitVec 5} {v : Word} {f : BitVec 4}
include h

theorem Ready.answer_alu (ho : isDiv op = false)
    (hv : aluResult op (gReg (coreOf s c) a) (gReg (coreOf s c) b) (coreOf s c).flags = (v, f)) :
    keepQueue s (.next (aluOp s c op d a b)) = .next (seqTo s c { setG (coreOf s c) d v with flags := f }) := by
  rw [aluOp_ready h op ho, hv]
  rfl

theorem Ready.answer_imm {i : Word} (hv : aluResult op (gReg (coreOf s c) a) i (coreOf s c).flags = (v, f)) :
    keepQueue s (.next (immOp s c op d a i)) = .next (seqTo s c { setG (coreOf s c) d v with flags := f }) := by
  rw [immOp_ready h, hv]
  rfl

/-- An operation that leaves FLAGS only writes rd. -/
theorem Ready.answer_aluKeep (ho : isDiv op = false)
    (hv : aluResult op (gReg (coreOf s c) a) (gReg (coreOf s c) b) (coreOf s c).flags = (v, (coreOf s c).flags)) :
    keepQueue s (.next (aluOp s c op d a b)) = .next (seqTo s c (setG (coreOf s c) d v)) := by
  rw [h.answer_alu ho hv, setG_sameFlags]

theorem Ready.answer_immKeep {i : Word} (hv : aluResult op (gReg (coreOf s c) a) i (coreOf s c).flags = (v, (coreOf s c).flags)) :
    keepQueue s (.next (immOp s c op d a i)) = .next (seqTo s c (setG (coreOf s c) d v)) := by
  rw [h.answer_imm hv, setG_sameFlags]

/-- A division blocks the core with its result (R105, R128). -/
theorem Ready.answer_div (ho : isDiv op = true)
    (hv : aluResult op (gReg (coreOf s c) a) (gReg (coreOf s c) b) (coreOf s c).flags = (v, f)) :
    keepQueue s (.next (aluOp s c op d a b)) =
      .next (setCell s c { cellOf s c with k := { coreOf s c with run := .dividing d v } }) := by
  rw [aluOp_div h op ho, hv]
  rfl

end

/-! ### Results with their flags (R103) -/

section
variable (x y : Word) (f : BitVec 4)

theorem aluResult_add : aluResult .add x y f =
    (x + y, nzcv (x + y) (decide (2 ^ 32 ≤ x.toNat + y.toNat)) (outside32 (x.toInt + y.toInt))) := by
  simpa [aluResult, b2n] using addFlags_eq x y false

theorem aluResult_sub : aluResult .sub x y f =
    (x - y, nzcv (x - y) (decide (y.toNat ≤ x.toNat)) (outside32 (x.toInt - y.toInt))) := by
  simpa [aluResult, b2n] using subFlags_eq x y true

/-- The low half of the product. -/
theorem aluResult_mul : aluResult .mul x y f =
    (BitVec.ofNat 32 (x.toNat * y.toNat), nzcv (BitVec.ofNat 32 (x.toNat * y.toNat)) (flagC f) (flagV f)) := by
  have hxy : x * y = BitVec.ofNat 32 (x.toNat * y.toNat) := by rw [BitVec.ofNat_mul, BitVec.ofNat_toNat, BitVec.ofNat_toNat]; simp
  simp only [aluResult, mulFlags, nzcv, hxy]

end

/-- Settles O9: sums and differences by `addFlags_eq` and `subFlags_eq`, products by their halves. -/
theorem coreAddMultiply : Obligations.CoreAddMultiply := by
  unfold Obligations.CoreAddMultiply
  refine ⟨fun s c d a b i h => ⟨h.answer_alu rfl (aluResult_add ..), h.answer_alu rfl (addFlags_eq ..),
      h.answer_alu rfl (aluResult_sub ..), h.answer_alu rfl (subFlags_eq ..), h.answer_alu (d := 0) rfl (aluResult_sub ..),
      h.answer_imm (aluResult_add ..),
      h.answer_imm (d := 0) (aluResult_sub ..)⟩,
    fun s c d a b h => ⟨h.answer_alu rfl (aluResult_mul ..), h.answer_alu rfl rfl, h.answer_alu rfl rfl⟩⟩

/-! ### Shifts and divisions (R105) -/

/-- A register's shift amount is its low five bits. -/
theorem extractLsb'_five_toNat (y : Word) : (y.extractLsb' 0 5).toNat = y.toNat % 32 := by simp

/-- A shift immediate is its own amount. -/
theorem zeroExtend_five_mod (n : BitVec 5) : (n.zeroExtend 32).toNat % 32 = n.toNat := by
  have := n.isLt
  simp only [BitVec.truncate_eq_setWidth, BitVec.toNat_setWidth]
  omega

/-- LUI's value, in numbers. -/
theorem append_zero16_eq (i : BitVec 16) : i ++ 0#16 = BitVec.ofNat 32 (65536 * i.toNat) := by
  have := i.isLt
  apply BitVec.eq_of_toNat_eq
  rw [BitVec.toNat_append, ← Nat.shiftLeft_add_eq_or_of_lt (by decide), Nat.shiftLeft_eq]
  simp only [BitVec.toNat_ofNat]
  omega

/-- The end of a division writes its result, and the core goes on (R105, R128). -/
theorem exec_divideComplete {s : State} {c : Fin 256} {d : BitVec 5} {v : Word} (hd : (coreOf s c).run = .dividing d v)
    (hr : cellInReset s c = false) : exec (.divideComplete c) s = .next (seqTo s c (setG (coreOf s c) d v)) := by
  change execDivideComplete c s = _
  simp only [execDivideComplete, hd, hr, Bool.false_eq_true, if_false]
  rfl

/-- Settles O10: each operation by its result; the shift amounts and LUI's value in numbers. -/
theorem coreShiftDivide : Obligations.CoreShiftDivide := by
  unfold Obligations.CoreShiftDivide
  refine ⟨fun s c d a b n i cond h => ?_, fun s c d a b h => ⟨h.answer_div rfl rfl, h.answer_div rfl rfl, h.answer_div rfl rfl,
    h.answer_div rfl rfl, fun hx hy => ⟨?quotient, ?remainder⟩⟩, fun s c d v => exec_divideComplete⟩
  case quotient => exact h.answer_div rfl (by rw [hx, hy]; rfl)
  case remainder => exact h.answer_div rfl (by rw [hx, hy]; rfl)
  intro k x y z sh
  have hsh : sh = y.toNat % 32 := extractLsb'_five_toNat y
  rw [hsh, ← zeroExtend_five_mod n, ← append_zero16_eq]
  refine ⟨h.answer_aluKeep rfl rfl, h.answer_aluKeep rfl rfl, h.answer_aluKeep rfl rfl, h.answer_aluKeep rfl rfl,
    h.answer_immKeep rfl, h.answer_immKeep rfl, h.answer_immKeep rfl, h.answer_aluKeep rfl rfl, h.answer_aluKeep rfl rfl,
    h.answer_aluKeep rfl rfl, h.answer_aluKeep rfl rfl, h.answer_immKeep rfl, h.answer_immKeep rfl, h.answer_immKeep rfl,
    h.answer_immKeep rfl, h.answer_seq rfl, fun hc => h.exec_csel hc d a b, fun h0 => ?_⟩
  rw [h0]
  exact ⟨BitVec.shiftLeft_zero x, BitVec.ushiftRight_zero x, BitVec.sshiftRight_zero, by simp [BitVec.rotateRight_def]⟩

end Sys2Proof.Machine
end

section
/-! Hardware loops, control registers, software traps, ERET and interrupts (O12, O13, O14, O16). -/

namespace Sys2Proof.Machine

/-! ### LOOP and LOOPI (R107, R108) -/

/-- The core with the bounds of a body of `len` instructions at level `l`. -/
def loopBounds (k : KCore) (l len : Nat) : KCore :=
  { k with loops := sput 0 (sput 0 k.loops l (k.pc + 4)) (4 + l) (k.pc + BitVec.ofNat 32 (4 * len)) }

/-- Does the body of `len` instructions at level `l` lie in instruction memory and in the enclosing body. -/
def LoopFits (k : KCore) (l len : Nat) : Prop := k.pc.toNat + 4 * len ≤ 0x7FFC ∧
  (l = 0 ∨ (loopS k (l - 1)).toNat ≤ k.pc.toNat ∧ k.pc.toNat + 4 * len ≤ (loopE k (l - 1)).toNat)

/-- At the innermost new level a body that fits is skipped with a count of zero, and entered with another. -/
theorem loopOp_of_fits {x : Cell} {l len : Nat} (hx : exl x.k = false) (hl : l = loopDepth x.k) (hf : LoopFits x.k l len) (w n : Word) :
    loopOp x w l n len = if n = 0 then .jump { x with k := loopBounds x.k l len } (x.k.pc + BitVec.ofNat 32 (4 * len) + 4) false
      else .jump { x with k := setLC (loopBounds x.k l len) l n } (x.k.pc + 4) false := by
  obtain ⟨hm, hn⟩ := hf
  rw [loopOp]
  simp only [hx, Bool.false_eq_true, if_false]
  rw [if_neg (by simp only [Bool.or_eq_true, Bool.and_eq_true, decide_eq_true_eq]; omega)]
  rfl

/-- A level that is not the depth is a LOOP_FAULT (R108). -/
theorem loopOp_of_wrongLevel {x : Cell} {l : Nat} (hx : exl x.k = false) (hl : l ≠ loopDepth x.k) (w n : Word) (len : Nat) :
    loopOp x w l n len = .trap 0x0F 0 w := by
  simp [loopOp, hx, hl]

/-- A loop of a defined word, on a ready core; `f` reads its count. -/
theorem Ready.answer_loop {s : State} {c : Nat} (h : Ready s c) {i : KInstr} (hi : kOk i = true) {l len : Nat} {w : Word}
    {f : Cell → Word} (hx : exl (coreOf s c) = false) (hl : l = loopDepth (coreOf s c)) (hf : LoopFits (coreOf s c) l len) :
    keepQueue s (.next (issueK s c (fun x => legal i (loopOp x w l (f x) len)))) = .next (if f (cellOf s c) = 0
      then jumpTo s c (loopBounds (coreOf s c) l len) ((coreOf s c).pc + BitVec.ofNat 32 (4 * len) + 4)
      else jumpTo s c (setLC (loopBounds (coreOf s c) l len) l (f (cellOf s c))) ((coreOf s c).pc + 4)) := by
  have hb : legal i (loopOp (cellOf s c) w l (f (cellOf s c)) len) = _ := (if_pos hi).trans (loopOp_of_fits hx hl hf w _)
  split
  · next h0 => exact h.answer_jump (ends := false) (congrArg (Prod.mk s) (hb.trans (if_pos h0)))
  · next h0 => exact h.answer_jump (ends := false) (congrArg (Prod.mk s) (hb.trans (if_neg h0)))

/-- A count of LOOPI is zero as it stands. -/
theorem zeroExtend_eq_zero_iff {n : BitVec 12} : n.zeroExtend 32 = 0 ↔ n = 0 := by
  have := n.isLt
  simp only [← BitVec.toNat_inj, BitVec.truncate_eq_setWidth, BitVec.toNat_setWidth, BitVec.ofNat_eq_ofNat, BitVec.toNat_ofNat]
  omega

/-- Settles O12: a word with a reserved field, a wrong level, or a body that is skipped or entered. -/
theorem coreLoops : Obligations.CoreLoops := by
  unfold Obligations.CoreLoops
  refine ⟨fun s c lvl r n len h => ?runs, fun s c lvl r n len h hx => ⟨fun hr => ?reserved, fun h3 hlen hl => ?wrongLevel⟩⟩
  case runs =>
    intro k l first last set hx h3 hlen hl hm he
    have h3' : lvl ≠ 3 := fun e => absurd h3 (by simp [l, e])
    have hok : (lvl != 3 && len != 0) = true := by simp_all
    refine ⟨h.answer_loop (i := .loop lvl r len) hok hx hl ⟨hm, he⟩,
      (h.answer_loop (i := .loopi lvl n len) (f := fun _ => n.zeroExtend 32) hok hx hl ⟨hm, he⟩).trans ?_⟩
    simp only [zeroExtend_eq_zero_iff]
    rfl
  case reserved =>
    have hno : (lvl != 3 && len != 0) = false := by rcases hr with rfl | rfl <;> simp
    exact ⟨h.answer_trap rfl (congrArg (Prod.mk s) (legal_reserved (i := .loop lvl r len) hno _)) hx,
      h.answer_trap rfl (congrArg (Prod.mk s) (legal_reserved (i := .loopi lvl n len) hno _)) hx⟩
  case wrongLevel =>
    have hok : (lvl != 3 && len != 0) = true := by simp_all
    have hb (i : KInstr) (hi : kOk i = true) (w n : Word) : (s, legal i (loopOp (cellOf s c) w lvl.toNat n len.toNat)) = (s, _) :=
      congrArg (Prod.mk s) ((if_pos hi).trans (loopOp_of_wrongLevel hx hl w n len.toNat))
    exact ⟨h.answer_trap rfl (hb (.loop lvl r len) hok _ _) hx, h.answer_trap rfl (hb (.loopi lvl n len) hok _ _) hx⟩

/-! ### MFC and MTC (R114, R115) -/

section
variable {s : State} {c : Fin 256} (h : Ready s c) {n : BitVec 12} (hl : crListed n = true)
  (hu : userMode (coreOf s c) = false ∨ crUser n.toNat = true)
include h hl hu

theorem Ready.exec_mfc (d : BitVec 5) : exec (.mfc c d n) s =
    .next (seqTo s c (setG (crRead s c n.toNat).2 d (crRead s c n.toNat).1)) := by
  have hp : (userMode (coreOf s c) && !crUser n.toNat) = false := by simpa [imp_iff_not_or] using hu
  exact h.answer_seq (by simp only [hl, hp]; rfl)

theorem Ready.exec_mtc {r : BitVec 5} {k' : KCore} (hw : crWrite s (coreOf s c) n.toNat (gReg (coreOf s c) r) = some k') :
    exec (.mtc c r n) s = .next (seqTo s c k') := by
  have hp : (userMode (coreOf s c) && !crUser n.toNat) = false := by simpa [imp_iff_not_or] using hu
  exact h.answer_seq (by simp only [hl, hp, hw]; rfl)

end

/-- The cell's own store of captured counts. -/
theorem captured_setCell {s : State} {c : Nat} {k : KCore} (hs : swf Cell.reset s.cells = true) :
    (cellOf (setCell s c { cellOf s c with k := k }) c).k.captured = k.captured := by rw [cellOf_setCell hs]

/-- Settles O13: what a control register of each kind does, and the counts captured. -/
theorem coreControlRegisters : Obligations.CoreControlRegisters := by
  unfold Obligations.CoreControlRegisters
  refine ⟨fun s c d r n h => ⟨fun hl hu => ⟨h.exec_mfc hl hu d, fun k' => h.exec_mtc hl hu⟩,
      fun hl hm hu hx => ?privileged, fun hl hx => ?unlisted⟩,
    fun s c hc => ?captured⟩
  case privileged =>
    have hp : (userMode (coreOf s c) && !crUser n.toNat) = true := by rw [hm, hu]; rfl
    exact ⟨h.answer_trap rfl (by simp only [hl, hp]; rfl) hx, h.answer_trap rfl (by simp only [hl, hp]; rfl) hx⟩
  case unlisted =>
    exact ⟨h.answer_trap rfl (by simp only [hl]; rfl) hx, h.answer_trap rfl (by simp only [hl]; rfl) hx⟩
  case captured =>
    intro at_ hs
    have hk (k : KCore) (i : Nat) : sget 0 (coreOf (at_ k) c).captured i = sget 0 k.captured i := by rw [captured_setCell hs]
    have hlow (v : DWord) : v.truncate 32 = v.extractLsb' 0 32 := BitVec.setWidth_eq_extractLsb' (by decide)
    exact ⟨hlow _, (hk _ 0).trans ((sget_sput_other (by decide)).trans (sget_sput_same hc)),
      (hk _ 1).trans (sget_sput_same (swf_sput hc)), hlow _, (hk _ 2).trans (sget_sput_same hc)⟩

/-! ### SYSCALL, BREAK and ERET (R117, R121, R125) -/

/-- The loop checks of a sequential completion change pc and the loop registers alone (R109). -/
theorem nextPcGo_eq (a : Word) (n : Nat) (k : KCore) :
    nextPcGo a n k = { k with pc := (nextPcGo a n k).pc, loops := (nextPcGo a n k).loops } := by
  induction n generalizing k with
  | zero => rfl
  | succ d ih =>
    simp only [nextPcGo]
    split
    · split
      · rfl
      · exact ih (setLC k d 0)
    · rfl

theorem nextPc_eq (k : KCore) : nextPc k = { k with pc := (nextPc k).pc, loops := (nextPc k).loops } := by
  unfold nextPc
  split
  · rfl
  · exact nextPcGo_eq ..

theorem nextPc_status (k : KCore) : (nextPc k).status = k.status :=
  (congrArg KCore.status (nextPc_eq k)).trans rfl

theorem Ready.issues_eq {s : State} {c : Nat} (h : Ready s c) : issues s c = true := by
  obtain ⟨hc, hi, hf⟩ := h
  simp [issues, hc, hi, hf]

/-- A software trap completes its instruction first (R121). -/
theorem softTrap_of_not_exl {s : State} {c code : Nat} (h : Ready s c) (hx : exl (coreOf s c) = false) (arg : Word) :
    softTrap s c code arg = trapTo s c (nextPc (coreOf s c)) code 0 arg (nextPc (coreOf s c)).pc := by
  have hx' : exl (nextPc (coreOf s c)) = false := by rw [exl, nextPc_status]; exact hx
  rw [softTrap, if_neg (by simp [hx])]
  exact trapAt_of_not_exl h.notInReset hx' code 0 arg _

/-- Settles O14: the software traps with EXL = 0 and 1, BREAK of a claimed cell, and ERET by mode. -/
theorem coreTraps : Obligations.CoreTraps := by
  unfold Obligations.CoreTraps
  refine ⟨fun s c code h => ⟨fun hx => ⟨?syscall, fun hd => ?brk⟩, fun hx => ?double, fun hd => ?claimed⟩,
    fun s c h => ⟨fun hm => ?eret, fun hm hx => h.answer_trap rfl (congrArg (Prod.mk s) (if_pos hm)) hx⟩⟩
  case syscall =>
    change execSyscall c code s = _
    rw [execSyscall, if_pos h.issues_eq, softTrap_of_not_exl h hx, keepQueue_of_next, withQueue_same (trapTo_pending ..)]
  case brk =>
    change execBreak c code s = _
    rw [execBreak, if_pos h.issues_eq, hd, if_neg (by decide), softTrap_of_not_exl h hx,
      keepQueue_of_next, withQueue_same (trapTo_pending ..)]
  case double =>
    change execSyscall c code s = _
    rw [execSyscall, if_pos h.issues_eq, softTrap, if_pos hx, takeTrap_of_exl h.notInReset hx rfl, keepQueue_of_next]
  case claimed =>
    change execBreak c code s = _
    rw [execBreak, if_pos h.issues_eq, if_pos hd]
    rfl
  case eret =>
    exact h.answer_jump (k := eretRegs (coreOf s c)) (ends := false) (congrArg (Prod.mk s) (if_neg (by simp [hm])))

/-! ### Interrupts (R121, R124) -/

/-- The first of the four interrupts in the order of R124 that is on. -/
theorem find?_intOrder {on : Nat → Bool} {i : Fin 4} (hi : on i = true)
    (hfirst : ∀ j : Fin 4, on j = true → j = i ∨ ([2, 3, 1, 0] : List Nat).idxOf i.val < ([2, 3, 1, 0] : List Nat).idxOf j.val) :
    [2, 3, 1, 0].find? on = some i.val := by
  have hoff (j : Fin 4) (hne : j ≠ i) (hle : ([2, 3, 1, 0] : List Nat).idxOf j.val ≤ ([2, 3, 1, 0] : List Nat).idxOf i.val) :
      on j = false := by
    by_contra hj
    have := (hfirst j (by simpa using hj)).resolve_left hne
    omega
  match i, hi, hoff with
  | 0, hi, hoff =>
    have h2 := hoff 2 (by decide) (by decide)
    have h3 := hoff 3 (by decide) (by decide)
    have h1 := hoff 1 (by decide) (by decide)
    simp_all [List.find?]
  | 1, hi, hoff =>
    have h2 := hoff 2 (by decide) (by decide)
    have h3 := hoff 3 (by decide) (by decide)
    simp_all [List.find?]
  | 2, hi, hoff => simp_all [List.find?]
  | 3, hi, hoff =>
    have h2 := hoff 2 (by decide) (by decide)
    simp_all [List.find?]

theorem exec_interruptEntry {s : State} {c : Fin 256} {i : Nat} (hr : cellInReset s c = false) (hp : intPoint (cellOf s c) = true)
    (hi : pendingInt (cellOf s c) = some i) : exec (.interruptEntry c) s = .next (takeInt s c i) := by
  change execInterruptEntry c s = _
  simp only [execInterruptEntry, hr, hp, hi, Bool.not_true, Bool.or_false, Bool.false_eq_true, if_false]
  rfl

/-- Settles O16: the interrupt that comes first in the order is the one that is taken. -/
theorem coreInterrupts : Obligations.CoreInterrupts := by
  unfold Obligations.CoreInterrupts
  intro s c i x k on hr hrun hst hie hx hi hfirst
  have hp : pendingInt x = some i.val := by
    rw [pendingInt, hie, hx, hst]
    exact find?_intOrder hi hfirst
  have hie' : k.status.getLsbD 1 = true := hie
  rw [exec_interruptEntry hr (by rw [intPoint, hrun]) hp, takeInt, trapRegs, statusTrap, hie', userMode, Bool.not_not]
  rfl

end Sys2Proof.Machine
end

section
/-! Loads and stores of the cell's own memory, and their alignment (O18, O19, O20, O21). -/

namespace Sys2Proof.Machine

/-! ### The values of bytes (R6, R92) -/

theorem natLE_length (n v : Nat) : (natLE n v).length = n := by
  induction n generalizing v with
  | zero => rfl
  | succ n ih => simp [natLE, ih]

theorem natLE_getElem {n v j : Nat} (h : j < (natLE n v).length) : (natLE n v)[j] = BitVec.ofNat 8 (v / 2 ^ (8 * j)) := by
  induction n generalizing v j with
  | zero => exact absurd h (Nat.not_lt_zero _)
  | succ n ih =>
    cases j with
    | zero => simp [natLE]
    | succ j =>
      have hp : 2 ^ (8 * (j + 1)) = 256 * 2 ^ (8 * j) := by rw [Nat.mul_succ, Nat.pow_add, Nat.mul_comm]
      simp [natLE, ih, Nat.div_div_eq_div_mul, hp]

/-- The bytes of a word from the lowest on. -/
theorem natLE_eq_map (n : Nat) (v : Word) : natLE n v.toNat = (List.range n).map (fun j => v.extractLsb' (8 * j) 8) := by
  refine List.ext_getElem (by simp [natLE_length]) fun j h _ => ?_
  rw [natLE_getElem, List.getElem_map, List.getElem_range]
  apply BitVec.eq_of_toNat_eq
  rw [BitVec.toNat_ofNat, BitVec.extractLsb'_toNat, Nat.shiftRight_eq_div_pow]

/-- Bytes put in front of a little-endian number. -/
theorem append_toNat {n : Nat} (v : BitVec n) (b : Byte) : (v ++ b).toNat = b.toNat + 256 * v.toNat := by
  rw [BitVec.toNat_append, ← Nat.shiftLeft_add_eq_or_of_lt b.isLt, Nat.shiftLeft_eq]
  omega

/-- Little-endian bytes as one number. -/
theorem leNat_two (a b : Byte) : leNat [a, b] = (b ++ a).toNat := by
  simp only [leNat, append_toNat]
  omega

theorem leNat_four (a b c d : Byte) : leNat [a, b, c, d] = (d ++ c ++ b ++ a).toNat := by
  simp only [leNat, append_toNat]
  omega

/-! ### Loads (R94, R97) -/

theorem loadVal_byte (b : Byte) : loadVal .lb [b] = b.signExtend 32 ∧ loadVal .lbu [b] = b.zeroExtend 32 := by
  have hb : leNat [b] = b.toNat := rfl
  refine ⟨by simp only [loadVal, hb, BitVec.ofNat_toNat, BitVec.setWidth_eq], BitVec.eq_of_toNat_eq ?_⟩
  have := b.isLt
  simp only [loadVal, hb, BitVec.toNat_ofNat, BitVec.truncate_eq_setWidth, BitVec.toNat_setWidth]
  omega

theorem loadVal_half (a b : Byte) : loadVal .lh [a, b] = (b ++ a).signExtend 32 ∧ loadVal .lhu [a, b] = (b ++ a).zeroExtend 32 := by
  refine ⟨by simp only [loadVal, leNat_two, BitVec.ofNat_toNat, BitVec.setWidth_eq], BitVec.eq_of_toNat_eq ?_⟩
  have := (b ++ a).isLt
  simp only [loadVal, leNat_two, BitVec.toNat_ofNat, BitVec.truncate_eq_setWidth, BitVec.toNat_setWidth]
  omega

theorem loadVal_word (a b c d : Byte) : loadVal .lw [a, b, c, d] = d ++ c ++ b ++ a := by
  simp only [loadVal, leNat_four, BitVec.ofNat_toNat, BitVec.setWidth_eq]

/-- The MPU lets an access pass that it allows user mode (R118). -/
theorem mpuRefuses_eq_false {k : KCore} {a : Word} {kind : AccKind} (hm : userMode k = true → mpuOk k a kind = true) :
    (userMode k && !mpuOk k a kind) = false := by simpa [imp_iff_not_or] using hm

/-- A load from the cell's own scratch that nothing stands against. -/
theorem loadOp_scratch {s : State} {c o : Nat} {op : LoadOp} {d a : BitVec 5} {i : BitVec 16} {addr : Word}
    (ha : gReg (cellOf s c).k a + sx16 i = addr) (hl : localOf addr.toNat = .scratch o)
    (hm : userMode (cellOf s c).k = true → mpuOk (cellOf s c).k addr .load = true) (h0 : addr.toNat % loadBytes op = 0)
    (hw : wpHit (cellOf s c) addr.toNat (loadBytes op) false = none)
    (hk : checkRange s (scratchPA c + o) (loadBytes op) false = (false, s)) :
    loadOp c op d a i s (cellOf s c) = (s, .seq { cellOf s c with
      k := setG (coreOf s c) d (loadVal op (memBytes s (scratchPA c + o) (loadBytes op))) }) := by
  simp only [loadOp, ha, h0, hw, hl, hk, mpuRefuses_eq_false hm, ne_eq, not_true_eq_false, Bool.false_eq_true, if_false]

/-- Settles O18: each width, with the value of its bytes. -/
theorem coreLoads : Obligations.CoreLoads := by
  unfold Obligations.CoreLoads
  intro s c d a i o h x addr m byte fine hl hm
  have load (op : LoadOp) (h0 : addr.toNat % loadBytes op = 0) (hf : fine (loadBytes op)) :=
    h.answer_seq (loadOp_scratch (d := d) rfl hl hm h0 hf.1 hf.2)
  refine ⟨fun hf => ⟨?_, ?_⟩, fun h2 hf => ⟨?_, ?_⟩, fun h4 hf => ?_⟩
  · rw [← (loadVal_byte _).1]
    exact load .lb (Nat.mod_one _) hf
  · rw [← (loadVal_byte _).2]
    exact load .lbu (Nat.mod_one _) hf
  · rw [← (loadVal_half _ _).1]
    exact load .lh (Nat.mod_eq_zero_of_dvd h2) hf
  · rw [← (loadVal_half _ _).2]
    exact load .lhu (Nat.mod_eq_zero_of_dvd h2) hf
  · rw [← loadVal_word]
    exact load .lw (Nat.mod_eq_zero_of_dvd h4) hf

/-- Settles O20: a misaligned address ends the load or store before its other checks. -/
theorem coreAlignment : Obligations.CoreAlignment := by
  unfold Obligations.CoreAlignment
  intro s c d a i h k addr takes
  have hload (op : LoadOp) (h0 : addr.toNat % loadBytes op ≠ 0) : loadOp c op d a i s (cellOf s c) = (s, .trap 0x06 0 addr) := if_pos h0
  have hstore (op : StoreOp) (h0 : addr.toNat % loadBytes (storeKind op) ≠ 0) :
      storeOp c op d a i s (cellOf s c) = (s, .trap 0x07 0 addr) := if_pos h0
  refine ⟨fun h2 => ?_, fun h4 => ?_⟩
  · have h0 : addr.toNat % 2 ≠ 0 := mt Nat.dvd_of_mod_eq_zero h2
    exact ⟨⟨h.answer_trap rfl (hload .lh h0), h.answer_doubleTrap rfl (hload .lh h0)⟩,
      ⟨h.answer_trap rfl (hload .lhu h0), h.answer_doubleTrap rfl (hload .lhu h0)⟩,
      ⟨h.answer_trap rfl (hstore .sh h0), h.answer_doubleTrap rfl (hstore .sh h0)⟩⟩
  · have h0 : addr.toNat % 4 ≠ 0 := mt Nat.dvd_of_mod_eq_zero h4
    exact ⟨⟨h.answer_trap rfl (hload .lw h0), h.answer_doubleTrap rfl (hload .lw h0)⟩,
      ⟨h.answer_trap rfl (hstore .sw h0), h.answer_doubleTrap rfl (hstore .sw h0)⟩⟩

end Sys2Proof.Machine
end

section
/-! Stores into the cell's own memory and their frame (O19, O21). -/

namespace Sys2Proof.Machine

/-! ### What a store of bytes leaves -/

theorem setMemByte_eq (s : State) (a : Nat) (b : Byte) : setMemByte s a b = { s with m := (setMemByte s a b).m } := by
  unfold setMemByte
  split <;> rfl

theorem setMemBytes_eq (s : State) (a : Nat) (l : List Byte) : setMemBytes s a l = { s with m := (setMemBytes s a l).m } := by
  induction l generalizing s a with
  | nil => rfl
  | cons b r ih =>
    rw [setMemBytes, ih, setMemByte_eq]

/-- A store of good bytes changes the memories alone. -/
theorem storeBytes_eq (s : State) (a : Nat) (l : List Byte) : storeBytes s a l false = { s with m := (storeBytes s a l false).m } := by
  simp only [storeBytes, Bool.false_eq_true, if_false]
  rw [setMemBytes_eq]

@[simp] theorem storeBytes_cells (s : State) (a : Nat) (l : List Byte) : (storeBytes s a l false).cells = s.cells := by rw [storeBytes_eq]
@[simp] theorem storeBytes_regs (s : State) (a : Nat) (l : List Byte) : (storeBytes s a l false).regs = s.regs := by rw [storeBytes_eq]
@[simp] theorem storeBytes_fab (s : State) (a : Nat) (l : List Byte) : (storeBytes s a l false).fab = s.fab := by rw [storeBytes_eq]
@[simp] theorem storeBytes_infl (s : State) (a : Nat) (l : List Byte) : (storeBytes s a l false).infl = s.infl := by rw [storeBytes_eq]
@[simp] theorem storeBytes_out (s : State) (a : Nat) (l : List Byte) : (storeBytes s a l false).out = s.out := by rw [storeBytes_eq]

@[simp] theorem cellOf_storeBytes (s : State) (a : Nat) (l : List Byte) (c : Nat) : cellOf (storeBytes s a l false) c = cellOf s c := by
  rw [cellOf, storeBytes_cells]
  rfl

@[simp] theorem cellInReset_storeBytes (s : State) (a : Nat) (l : List Byte) (c : Nat) :
    cellInReset (storeBytes s a l false) c = cellInReset s c := by
  rw [storeBytes_eq]
  rfl

/-- Is an address in the scratch or the instruction memory of a cell. -/
def OnCell (a : Nat) : Prop := ∃ c, areaOf a = .scratch c ∨ areaOf a = .imem c

/-- Another byte reads as before. -/
theorem memByte_setMemByte_other {s : State} {a z : Nat} {b : Byte} (ha : OnCell a) (hz : z ≠ a) :
    memByte (setMemByte s a b) z = memByte s z := by
  have hset : setMemByte s a b = { s with m := { s.m with sram := sput 0 s.m.sram a b } } := by
    obtain ⟨c, ha | ha⟩ := ha <;> simp only [setMemByte, ha]
  have hget : sget 0 (sput 0 s.m.sram a b) z = sget 0 s.m.sram z := sget_sput_other hz
  rw [hset]
  unfold memByte
  split <;> simp only [hget] <;> rfl

section
variable {s : State} {a : Nat} {l : List Byte} (ha : ∀ j < l.length, OnCell (a + j))
include ha

/-- Every byte outside the written ones reads as before. -/
theorem memByte_setMemBytes_out {z : Nat} (hz : z < a ∨ a + l.length ≤ z) : memByte (setMemBytes s a l) z = memByte s z := by
  induction l generalizing s a with
  | nil => rfl
  | cons b r ih =>
    rw [List.length_cons] at ha hz
    rw [setMemBytes, ih (fun j hj => by simpa [Nat.add_assoc, Nat.add_comm 1] using ha (j + 1) (by omega)) (by omega)]
    exact memByte_setMemByte_other (ha 0 (by omega)) (by omega)

/-- A written byte reads as it was written. -/
theorem memByte_setMemBytes_in (hs : s.m.wf = true) {j : Nat} (hj : j < l.length) : memByte (setMemBytes s a l) (a + j) = l[j] := by
  induction l generalizing s a j with
  | nil => exact absurd hj (Nat.not_lt_zero _)
  | cons b r ih =>
    rw [List.length_cons] at ha hj
    have hr : ∀ j < r.length, OnCell (a + 1 + j) := fun j hj => by
      simpa [Nat.add_assoc, Nat.add_comm 1] using ha (j + 1) (by omega)
    cases j with
    | zero =>
      rw [setMemBytes, memByte_setMemBytes_out hr (by omega)]
      obtain ⟨c, h0⟩ := ha 0 (by omega)
      exact memByte_setMemByte_sram hs (.inr (h0.imp (fun e => ⟨c, e⟩) (fun e => ⟨c, e⟩)))
    | succ j =>
      rw [setMemBytes, show a + (j + 1) = a + 1 + j by omega, ih hr (setMemByte_wf a b hs) (by omega)]
      rfl

end

/-! ### Stores (R94, R97, R118) -/

/-- The place of a store into the cell's own memory: scratch, which user mode reaches where the MPU lets it, or in supervisor mode
instruction memory. -/
def StorePlace (s : State) (c : Nat) (addr : Word) (m : Nat) : Prop :=
  ∃ o, localOf addr.toNat = .scratch o ∧ (userMode (coreOf s c) = true → mpuOk (coreOf s c) addr .store = true) ∧
      m = scratchPA c + o ∨
    localOf addr.toNat = .imem o ∧ userMode (coreOf s c) = false ∧ m = imemPA c + o

section
variable {s : State} {c : Fin 256} {op : StoreOp} {b a : BitVec 5} {i : BitVec 16} {addr : Word} {m n : Nat}
  (ha : gReg (coreOf s c) a + i.signExtend 32 = addr) (hn : loadBytes (storeKind op) = n) (hp : StorePlace s c addr m)
  (h0 : addr.toNat % n = 0) (hw : wpHit (cellOf s c) addr.toNat n true = none) (hb : mergeBad s m n = false) (hf : mergeFix s m n = s)
include ha hn hp h0 hw hb hf

theorem storeOp_own : storeOp c op b a i s (cellOf s c) =
    (storeBytes s m (natLE n (gReg (coreOf s c) b).toNat) false, .seq (cellOf s c)) := by
  have ha' : gReg (cellOf s c).k a + sx16 i = addr := ha
  obtain ⟨o, ⟨hl, hm, rfl⟩ | ⟨hl, hu, rfl⟩⟩ := hp
  · simp only [storeOp, ha', hn, h0, hw, hl, hb, hf, mpuRefuses_eq_false hm, ne_eq, not_true_eq_false, Bool.false_eq_true, if_false]
  · simp only [storeOp, ha', hn, h0, hw, hl, hb, hu, ne_eq, not_true_eq_false, Bool.false_eq_true, if_false]

/-- A store that nothing stands against writes its bytes and goes on. -/
theorem Ready.answer_store (h : Ready s c) : keepQueue s (.next (issue s c (storeOp c op b a i))) =
    .next (seqTo (storeBytes s m (natLE n (gReg (coreOf s c) b).toNat) false) c (coreOf s c)) := by
  rw [issue_ready h, storeOp_own ha hn hp h0 hw hb hf, if_neg (by simp [h.notInReset]), finish, seqTo, cellOf_storeBytes, keepQueue_of_next]
  exact congrArg _ (withQueue_same (storeBytes_pending ..))

end

/-- Settles O19: the three widths, with the bytes of the stored word. -/
theorem coreStores : Obligations.CoreStores := by
  unfold Obligations.CoreStores
  intro s c b a i o h x addr v byte write fine place m hm
  have store (op : StoreOp) (h0 : addr.toNat % loadBytes (storeKind op) = 0) (hf : fine m (loadBytes (storeKind op))) :=
    h.answer_store (b := b) rfl rfl ⟨o, hm⟩ h0 hf.1 hf.2.1 hf.2.2
  simp only [natLE_eq_map] at store
  exact ⟨store .sb (Nat.mod_one _), fun h2 => store .sh (Nat.mod_eq_zero_of_dvd h2), fun h4 => store .sw (Nat.mod_eq_zero_of_dvd h4)⟩

/-! ### The frame of the stores -/

theorem of_localOf_scratch {a o : Nat} (h : localOf a = .scratch o) : a = 0x1000_0000 + o ∧ o < 0x10_0000 := by
  unfold localOf at h
  split_ifs at h
  all_goals simp at h
  omega

theorem of_localOf_imem {a o : Nat} (h : localOf a = .imem o) : a = o ∧ o < 0x8000 := by
  unfold localOf at h
  split_ifs at h
  all_goals simp at h
  omega

/-- An aligned store into the cell's own memory stays in it. -/
theorem StorePlace.onCell {s : State} {c : Fin 256} {addr : Word} {m : Nat} (hp : StorePlace s c addr m) {op : StoreOp}
    (h0 : addr.toNat % loadBytes (storeKind op) = 0) {j : Nat} (hj : j < loadBytes (storeKind op)) : OnCell (m + j) := by
  obtain ⟨o, ⟨hl, -, rfl⟩ | ⟨hl, -, rfl⟩⟩ := hp
  · obtain ⟨ho, hlt⟩ := of_localOf_scratch hl
    have hj' : o + j < 0x10_0000 := by cases op <;> simp only [storeKind, loadBytes] at h0 hj <;> omega
    exact ⟨c, .inl (by rw [Nat.add_assoc]; exact areaOf_scratch c.isLt hj')⟩
  · obtain ⟨ho, hlt⟩ := of_localOf_imem hl
    have hj' : o + j < 0x8000 := by cases op <;> simp only [storeKind, loadBytes] at h0 hj <;> omega
    exact ⟨c, .inr (by rw [Nat.add_assoc]; exact areaOf_imem c.isLt hj')⟩

/-- An instruction boundary changes what the core does and the debug registers alone (R435). -/
theorem boundary_eq (x : Cell) :
    boundary x = { x with k := { x.k with run := (boundary x).k.run }, dbg := (boundary x).dbg } := by
  unfold boundary
  split
  · rfl
  · split <;> rfl

/-- The cell after a sequential completion. -/
theorem cellOf_seqTo {s : State} {c : Nat} {k : KCore} (hs : swf Cell.reset s.cells = true) :
    cellOf (seqTo s c k) c = boundary { cellOf s c with k := { nextPc k with run := .running } } := cellOf_setCell hs

/-- Settles O21: the bytes by the frame of a store of bytes, the rest by what a completion changes. -/
theorem coreStoreFrame : Obligations.CoreStoreFrame := by
  unfold Obligations.CoreStoreFrame
  intro s t c b a i op h hm hs x addr n instr he h0 hw m hp hb hf
  have hp : StorePlace s c addr m := hp
  have hstore := h.answer_store (b := b) rfl rfl hp h0 hw hb hf
  have ht : t = seqTo (storeBytes s m (natLE n (gReg x.k b).toNat) false) c x.k := by
    cases op <;> exact Host.Outcome.next.inj (he.symm.trans hstore)
  have hl : (natLE n (gReg x.k b).toNat).length = n := natLE_length ..
  have hon : ∀ j < (natLE n (gReg x.k b).toNat).length, OnCell (m + j) := fun j hj => hp.onCell h0 (by rwa [hl] at hj)
  have hcell := cellOf_seqTo (s := storeBytes s m (natLE n (gReg x.k b).toNat) false) (c := c) (k := x.k) (by rwa [storeBytes_cells])
  rw [boundary_eq, nextPc_eq, cellOf_storeBytes] at hcell
  subst ht
  refine ⟨fun z hz => ?outside, fun j hj => ?inside, storeBytes_regs .., storeBytes_fab .., storeBytes_out .., storeBytes_infl ..,
    fun e hne => ?otherCell, ?_, ?_, ?_, ?_, ?_, ?_, ?_⟩
  case outside => exact memByte_setMemBytes_out hon (by rwa [hl])
  case inside =>
    refine (memByte_setMemBytes_in hon hm (by rwa [hl])).trans ?_
    simp only [natLE_eq_map, List.getElem_map, List.getElem_range]
  case otherCell => exact (cellOf_setCell_other hne).trans (cellOf_storeBytes ..)
  all_goals simp only [coreOf, hcell]
  all_goals rfl

end Sys2Proof.Machine
end

section
/-! The issue of undefined words and of coprocessor instructions (O17). -/

namespace Sys2Proof.Machine

/-! ### The coprocessors' queues (R113) -/

section
variable {s : State} {x : Cell} (hu : userMode x.k = false)
include hu

/-- In supervisor mode an instruction of CP1 that runs joins the queue, or the core stalls on a full one. -/
theorem cp1Body_of_running {op : CP1Op} (hop : ∀ d n, op ≠ .vmfc d n) (hh : x.v.halted = false) : cp1Body op s x =
    (s, if 16 ≤ x.v.q.length then .hold x
      else .seq { x with v := { x.v with q := x.v.q ++ [⟨op, gReg x.k (cp1Reg op), 0, false, x.k.pc⟩] } }) := by
  cases op with
  | vmfc d n => exact absurd rfl (hop d n)
  | _ =>
    simp only [cp1Body, hu, hh, Bool.false_and, Bool.false_eq_true, if_false]
    split <;> rfl

/-- In supervisor mode an instruction of CP0 that is accepted joins the queue, or the core stalls on a full one. -/
theorem cp0Body_of_running {op : CP0Op} (hop : ∀ d n, op ≠ .tmfc d n) {t : Tensor} (ha : accept0 x.t op = some t)
    (hh : x.t.halted = false) : cp0Body op s x =
    (s, if 16 ≤ x.t.q.length then .hold x
      else .seq { x with t := { t with q := x.t.q ++ [⟨op, gReg x.k (cp0Regs op).1, gReg x.k (cp0Regs op).2, false, x.k.pc⟩] } }) := by
  cases op with
  | tmfc d n => exact absurd rfl (hop d n)
  | _ =>
    simp only [cp0Body, ha, hu, hh, Bool.false_and, Bool.false_eq_true, if_false]
    split <;> rfl

end

/-- A word of a coprocessor's major is passed to it. -/
theorem exec_coprocIssue {s : State} {c : Fin 256} {w : Word} (hw : 0xE000_0000 ≤ w.toNat) :
    exec (.coprocIssue c w) s = keepQueue s (.next (issue s c (coprocBody c w))) := by
  change execCoprocIssue c w s = _
  rw [execCoprocIssue, if_neg (by omega)]

/-- A body that stalls the core or completes, on a ready core. -/
theorem Ready.answer_holdOrSeq {s : State} {c : Nat} (h : Ready s c) {body : State → Cell → State × KOut} {p : Prop} [Decidable p]
    {x y : Cell}
    (hb : body s (cellOf s c) = (s, if p then .hold x else .seq y)) : keepQueue s (.next (issue s c body)) =
    .next (if p then setCell s c x else setCell s c (boundary { y with k := { nextPc y.k with run := .running } })) := by
  split
  · next hp => exact h.answer_hold (hb.trans (by rw [if_pos hp]))
  · next hp => exact h.answer_seqCell (hb.trans (by rw [if_neg hp]))

/-- Settles O17: the undefined word traps; the coprocessors' words by their bodies. -/
theorem coreIssue : Obligations.CoreIssue := by
  unfold Obligations.CoreIssue
  intro s c w h x
  refine ⟨fun sub hx hd => ?undefined, fun op hw hd hop hu hh => ?cp1, fun op t hw hd hop ha hu hh => ?cp0⟩
  case undefined =>
    change execIllegalInstruction c w s = _
    rw [execIllegalInstruction, hd]
    exact h.answer_trap rfl rfl hx
  case cp1 =>
    have hb : coprocBody c w s x = cp1Body op s x := by rw [coprocBody, hd]
    exact (exec_coprocIssue hw).trans (h.answer_holdOrSeq (hb.trans (cp1Body_of_running hu hop hh)))
  case cp0 =>
    have hb : coprocBody c w s x = cp0Body op s x := by rw [coprocBody, hd]
    exact (exec_coprocIssue hw).trans (h.answer_holdOrSeq (hb.trans (cp0Body_of_running hu hop ha hh)))

end Sys2Proof.Machine
end

section
/-! Accesses through windows and what ends them (O22). -/

namespace Sys2Proof.Machine

/-! ### A cell that is no longer as after a reset reads as it was written -/

section
variable {α : Type} [DecidableEq α] {d v : α} (hv : v ≠ d) (m : SMap α) (k : Nat)
include hv

theorem sget_sput_of_ne_default : sget d (sput d m k v) k = v := by
  induction m with
  | nil => simp [sput, sget, hv]
  | cons p r ih =>
    simp only [sput, hv, if_false]
    split
    · simp [sget]
    · split
      · simp [sget]
      · next hne => simp [sget, hne, ih]

theorem sput_sput_of_ne_default : sput d (sput d m k v) k v = sput d m k v := by
  induction m with
  | nil => simp [sput, hv]
  | cons p r ih =>
    simp only [sput, hv, if_false]
    split
    · simp [sput, hv]
    · next hlt =>
      split
      · next heq => simp [sput, hv]
      · next hne => simp [sput, hlt, hne, ih]

end

theorem ne_reset_of_run {x : Cell} (h : x.k.run ≠ .halted) : x ≠ Cell.reset := fun e => h (by rw [e]; rfl)

/-! ### An access goes out (R95, R96) -/

section
variable (s : State) (c : Nat) (a : Access95)

/-- The cell whose access has gone out. -/
def accessCell : Cell := { cellOf s c with k := { coreOf s c with run := .access { a with tag := s.fab.tag } } }

theorem sendAccess_cells : (sendAccess s c a).cells = sput Cell.reset s.cells c (accessCell s c a) := by
  unfold sendAccess
  simp only [freshTag]
  split <;> rfl

/-- What is put back is what stands there. -/
theorem setCell_sendAccess : setCell (sendAccess s c a) c (cellOf (sendAccess s c a) c) = sendAccess s c a := by
  have hne : accessCell s c a ≠ Cell.reset := ne_reset_of_run (by simp [accessCell])
  have hc : sput Cell.reset (sendAccess s c a).cells c (cellOf (sendAccess s c a) c) = (sendAccess s c a).cells := by
    rw [cellOf, sendAccess_cells, sget_sput_of_ne_default hne, sput_sput_of_ne_default hne]
  rw [setCell, hc]

end

section
variable {s s' : State} {c : Nat} {st : Bool} {op : LoadOp} {d : BitVec 5} {addr v : Word}

theorem startAccess_ok {pa : Nat} (hpa : runMM s (localPA c addr.toNat st) = (.ok pa, s')) :
    startAccess s c st op d addr v =
      (sendAccess s' c ⟨st, op, d, addr, v, pa, 0, s.clk + 100000, none, winAt s c addr.toNat⟩,
        .hold (cellOf (sendAccess s' c ⟨st, op, d, addr, v, pa, 0, s.clk + 100000, none, winAt s c addr.toNat⟩) c)) := by
  simp only [startAccess, hpa]

theorem startAccess_refused {e : MErr} (he : ∀ t p w, e ≠ .page t p w) (hpa : runMM s (localPA c addr.toNat st) = (.error e, s')) :
    startAccess s c st op d addr v = (s', .trap (if st then 0x09 else 0x08) 0 addr) := by
  cases e with
  | page t p w => exact absurd rfl (he t p w)
  | _ => simp only [startAccess, hpa]

end

section
variable {s s' : State} {c : Nat} (h : Ready s c) {body : State → Cell → State × KOut}
include h

/-- A body that sends an access leaves the core blocked on it. -/
theorem Ready.answer_sendAccess {a : Access95} (hb : body s (cellOf s c) = (sendAccess s' c a, .hold (cellOf (sendAccess s' c a) c))) :
    keepQueue s (.next (issue s c body)) = .next (withQueue s (sendAccess s' c a)) := by
  rw [issue_ready h, hb, keepQueue_of_next]
  simp only [finish, setCell_sendAccess, ite_self]

/-- A body that ends in a trap in another state. -/
theorem Ready.answer_trapIn {code : Nat} {tval : Word} (hb : body s (cellOf s c) = (s', .trap code 0 tval))
    (hr : cellInReset s' c = false) :
    keepQueue s (.next (issue s c body)) = .next (withQueue s (takeTrap s' c code 0 tval (coreOf s' c).pc)) := by
  rw [issue_ready h, hb, keepQueue_of_next]
  simp only [hr, Bool.false_eq_true, if_false, finish]

end

/-- Does a cell-local address lie in a window. -/
def InWindow (a : Nat) : Prop := (∃ g o, localOf a = .trans g o) ∨ ∃ o, localOf a = .rsv o

section
variable {s : State} {c : Nat} {d a : BitVec 5} {i : BitVec 16} {addr : Word} (ha : gReg (cellOf s c).k a + sx16 i = addr)
  (hl : InWindow addr.toNat)
include ha hl

theorem loadOp_window {op : LoadOp} (h0 : addr.toNat % loadBytes op = 0) (hw : wpHit (cellOf s c) addr.toNat (loadBytes op) false = none)
    (hm : userMode (cellOf s c).k = true → mpuOk (cellOf s c).k addr .load = true) :
    loadOp c op d a i s (cellOf s c) = startAccess s c false op d addr 0 := by
  obtain ⟨g, o, hl⟩ | ⟨o, hl⟩ := hl <;>
    simp only [loadOp, ha, h0, hw, hl, mpuRefuses_eq_false hm, ne_eq, not_true_eq_false, Bool.false_eq_true, if_false]

theorem storeOp_window {op : StoreOp} {b : BitVec 5} (h0 : addr.toNat % loadBytes (storeKind op) = 0)
    (hw : wpHit (cellOf s c) addr.toNat (loadBytes (storeKind op)) true = none)
    (hm : userMode (cellOf s c).k = true → mpuOk (cellOf s c).k addr .store = true) :
    storeOp c op b a i s (cellOf s c) = startAccess s c true (storeKind op) 0 addr (gReg (coreOf s c) b) := by
  obtain ⟨g, o, hl⟩ | ⟨o, hl⟩ := hl <;>
    simp only [storeOp, ha, h0, hw, hl, mpuRefuses_eq_false hm, ne_eq, not_true_eq_false, Bool.false_eq_true, if_false]

end

/-! ### A packet's travel leaves what is held in reset (R73, R75) -/

/-- The blocks and regions held in reset are the same in both states. -/
def SameResets (s t : State) : Prop := t.fab.blockRst = s.fab.blockRst ∧ t.fab.regionRst = s.fab.regionRst

theorem grantsBefore_resets (s : State) (r j : Nat) : SameResets s (grantsBefore s r j) := by
  refine List.foldlRecOn _ _ ⟨rfl, rfl⟩ fun t ht i _ => ?_
  split
  · split
    · exact ht
    · exact ht
  · exact ht

theorem turnOf_resets (s : State) (q : Packet) : SameResets s (turnOf s q) := by
  unfold turnOf
  split
  · exact grantsBefore_resets s _ _
  · exact ⟨rfl, rfl⟩

theorem arrive_resets (s : State) (p : Packet) : SameResets s (arrive s p).2 := by
  unfold arrive
  split
  · exact ⟨rfl, rfl⟩
  · next q _ =>
    have ht : SameResets s (if reach s q = q.hop then s else turnOf s q) := by
      split
      · exact ⟨rfl, rfl⟩
      · exact turnOf_resets s q
    generalize (if reach s q = q.hop then s else turnOf s q) = u at ht
    split
    · exact ⟨rfl, rfl⟩
    · dsimp only
      split
      · exact ht
      · dsimp only
        split <;> exact ht

/-- A cell is in reset after a packet's travel as it was before. -/
theorem cellInReset_arrive (s : State) (p : Packet) (c : Nat) : cellInReset (arrive s p).2 c = cellInReset s c := by
  obtain ⟨hb, hr⟩ := arrive_resets s p
  obtain ⟨f, hf⟩ := arrive_frame s p
  have hc : cellOf (arrive s p).2 c = cellOf s c := by rw [hf]; rfl
  simp only [cellInReset, hc, hb, hr]

/-! ### What ends an access (R95, R96) -/

section
variable {s s' : State} {c : Fin 256} {a : Access95} (hrun : (coreOf s c).run = .access a) (ht : a.tag ≠ 0) (hr : cellInReset s c = false)
include hrun ht hr

/-- Once its deadline has passed an access ends in BUS_TIMEOUT. -/
theorem exec_busTimeout (hd : a.deadline < s.clk) (hs : swf Cell.reset s.cells = true) : exec (.busTimeout c) s =
    .next (withQueue s (takeTrap (setCell s c { cellOf s c with k := { coreOf s c with run := .running } }) c 0x0E 0 a.addr
      (coreOf s c).pc)) := by
  have ho : overdue s a.deadline = true := decide_eq_true hd
  change execBusTimeout c s = _
  simp only [execBusTimeout, hrun, ht, ho, hr, decide_false, Bool.not_true, Bool.or_false, Bool.false_eq_true, if_false, finish,
    cellOf_setCell hs, keepQueue_of_next]

section
variable (hd : s.clk ≤ a.deadline)
include hd

/-- A response that arrives in time ends the access by its STATUS; poisoned read data count as STATUS 1. -/
theorem respond_arrived {p : Packet} (hp : p.tag = a.tag) (ha : arrive s p = (true, s')) :
    respond s' c p = finishAccess s' c a (if p.poison ≠ 0 ∧ p.status = 0 ∧ a.isStore = false then 1 else p.status) p.data := by
  obtain ⟨f, hf⟩ := arrive_frame s p
  have hr' := cellInReset_arrive s p c
  simp only [ha] at hf hr'
  have hrun' : (cellOf s' c).k.run = .access a := by rw [hf]; exact hrun
  have hin : inTime s' a.deadline = true := by rw [hf]; exact decide_eq_true hd
  simp [respond, hr', hr, hrun', ht, hp, hin, and_assoc]

theorem exec_windowResponse_flume {p : Packet} (hl : ∃ g o, localOf a.addr.toNat = .trans g o)
    (hp : s.fab.net.find? (fun q => (q.ty == 2 || q.ty == 4) && q.dest == endpointOf c && q.tag == a.tag) = some p)
    (ha : arrive s p = (true, s')) : exec (.windowResponse c) s = .next (withQueue s (finishAccess s' c a
      (if p.poison ≠ 0 ∧ p.status = 0 ∧ a.isStore = false then 1 else p.status) p.data)) := by
  obtain ⟨g, o, hl⟩ := hl
  have ho : overdue s a.deadline = false := decide_eq_false (Nat.not_lt.2 hd)
  have hq := List.find?_some hp
  have htag : p.tag = a.tag := by simp at hq; exact hq.2
  change execWindowResponse c s = _
  simp only [execWindowResponse, hrun, ht, hr, ho, hl, hp, ha, decide_false, Bool.or_false, Bool.false_eq_true, if_false,
    respond_arrived hrun ht hr hd htag ha, keepQueue_of_next]

theorem exec_windowResponse_port {st : Nat} {l : List Byte} (hl : ∃ o, localOf a.addr.toNat = .rsv o)
    (ha : doAccess s c a = (st, l, s')) (hr' : cellInReset s' c = false) :
    exec (.windowResponse c) s = .next (withQueue s (finishAccess s' c a st l)) := by
  obtain ⟨o, hl⟩ := hl
  have ho : overdue s a.deadline = false := decide_eq_false (Nat.not_lt.2 hd)
  change execWindowResponse c s = _
  simp only [execWindowResponse, hrun, ht, hr, ho, hl, ha, hr', decide_false, Bool.or_false, Bool.false_eq_true, if_false,
    keepQueue_of_next]

end

end

/-- Settles O22: what a load and a store through a window start, and the three ways in which the access ends. -/
theorem coreWindows : Obligations.CoreWindows := by
  unfold Obligations.CoreWindows
  refine ⟨fun s s' c d b a i h => ?goes,
    fun s s' c a hrun ht hr => ⟨fun hd hs => exec_busTimeout hrun ht hr hd hs, fun hd =>
      ⟨fun p => exec_windowResponse_flume hrun ht hr hd, fun st l => exec_windowResponse_port hrun ht hr hd⟩⟩⟩
  case goes =>
    intro x addr window refused acc hl h4 hr
    have h0 : addr.toNat % 4 = 0 := Nat.mod_eq_zero_of_dvd h4
    refine ⟨fun hw hm => ?load, fun hw hm => ?store⟩
    case load =>
      have hb := loadOp_window (d := d) (op := .lw) rfl hl h0 hw hm
      exact ⟨fun pa hpa => h.answer_sendAccess (hb.trans (startAccess_ok hpa)),
        fun e he hpa => h.answer_trapIn (hb.trans (startAccess_refused he hpa)) hr⟩
    case store =>
      have hb := storeOp_window (b := b) (op := .sw) rfl hl h0 hw hm
      exact ⟨fun pa hpa => h.answer_sendAccess (hb.trans (startAccess_ok hpa)),
        fun e he hpa => h.answer_trapIn (hb.trans (startAccess_refused he hpa)) hr⟩

end Sys2Proof.Machine
end
